-- ==== Sys2Proof/Word.lean ====
section
/-! DEFINITION. The word types of the BZ64: a byte, the 16-bit halves of descriptors and the 32-bit words of the
host-port register space (R3, R631). -/

namespace Sys2Proof

/-- One byte. -/
abbrev Byte := BitVec 8

/-- A 16-bit field of a descriptor, entry or record. -/
abbrev Half := BitVec 16

/-- A 32-bit register or record word. -/
abbrev Word := BitVec 32

/-- A 24-bit filter output in two's complement (R115). -/
abbrev Code24 := BitVec 24

end Sys2Proof
end

