-- ==== Sys2Proof/Config.lean ====
section
/-! DEFINITION. The values the spec leaves open. Each is an opaque constant without a body, so a claim about the
model holds whatever the value is. The assumption log names each one. -/

namespace Sys2Proof.Config

/-- Which of the two neighbouring representable values a rounding takes where the spec names no rounding rule
(log 5). The argument is the exact value. -/
opaque roundsUp : ℚ → Bool

/-- LAT of a completion entry, in microseconds: the Supervisor's execution time is bounded by R402 but not stated
(log 6). The argument counts the completions written. -/
opaque latUs : Nat → Half

/-- Whether an ECDSA P-384 signature verifies (R445, R595; log 7). Arguments: public key, signed bytes, signature. -/
opaque ecdsaVerifies : List Byte → List Byte → List Byte → Bool

/-- SHA-384 of a public key (R595; log 7). -/
opaque sha384 : List Byte → List Byte

/-- Whether an AES-256-GCM section of an image decrypts under KIMG with a valid tag (R595; log 7). -/
opaque gcmVerifies : List Byte → Bool

/-- HMAC-SHA-256 of a message under the credential key (R442; log 7). -/
opaque hmacSha256 : List Byte → List Byte → List Byte

/-- The plaintext of an image section decrypted under KIMG (R597, R609; log 7). -/
opaque gcmPlaintext : List Byte → List Byte

/-- The device ID programmed at final test (Table 20.1; log 8). -/
opaque devId : BitVec 64

/-- The SHA-384 hash PKH0 programmed at final test (Table 20.1; log 8). -/
opaque pkh0 : List Byte

/-- The silicon stepping of HPT_ID, major and minor (Table 22.3; log 8). -/
opaque stepping : Half

/-- The reported quantity of a sweep point whose signal A has no component at its frequency, real and imaginary single-precision
words: the ratio of R320 does not exist there (log 9). The argument counts the sweep points. -/
opaque sweepRe : Nat → Word
opaque sweepIm : Nat → Word

/-- The natural logarithm as the device computes it for the B equation of an NTC, whose precision is not stated (R571; log 171). -/
opaque lnNtc : ℚ → ℚ

/-- Into how many steps, beyond one, the Supervisor divides 10 ms when it runs a Channel's model forward for TTL: R197 bounds
the step and does not state it (log 10). -/
opaque ttlSplit : Nat

/-- The corrected value of a square root where the spec states a square root and no precision (R171, R239, R265;
log 5). -/
opaque sqrtUp : ℚ → Bool

/-- Which of the Channels that may take a Creep probe the Supervisor probes in a Period (R234; log 29). -/
opaque probeChoice : Nat → Nat

/-- The section of the input notch for an F0CODE and a QCODE: its zero coefficient and its two pole coefficients. R119 states
centre, attenuation and settling, not the coefficients: they are free among those that have these (log 142). -/
opaque notchCoef : Nat → Nat → ℚ × ℚ × ℚ

/-- The two second-order sections of an arc band-pass filter: coefficients b0, b1, b2, a1 and a2 of each. R216 and Table 6.1 state
order and edges: the coefficients are free among those that have these (log 160). Argument: sub-band. -/
opaque arcSections : Nat → (ℚ × ℚ × ℚ × ℚ × ℚ) × (ℚ × ℚ × ℚ × ℚ × ℚ)

/-- What a G4 or Channel latch holds before the first valid one of a start (log 11). -/
opaque unsettled : Nat → Code24

/-- RESULT bytes 16-23 of the reads whose RESULT R439 fills without saying with what (log 18). -/
opaque readResult : Nat → BitVec 64

/-- The format version in the records that the device writes to Firn (Table 7.7; log 34). -/
opaque formatVersion : Half

/-- The CRC-32C of an OFFER over the frozen targets: the spec gives their bytes no layout (R506; log 59). The argument lists
the targets. -/
opaque targetCrc : List Nat → Word

/-- Overlap of a swap in units of 10 ns (Table 15.10; log 60). The argument counts the swaps. -/
opaque swapOverlap : Nat → Half

/-- The link whose buffer holds the frame that a double-bit error at an address destroys: the command names no link (Table
1.5; log 89). -/
opaque eccLink : Word → Bool

/-- The captured sample that a double-bit error at an address of the capture SRAM destroys, as stream and index: the spec
places no stream's words at addresses (Table 1.5; log 90). -/
opaque eccSample : Word → Nat × Nat

/-- Microseconds from the end of a contract by PDEN to vSafe0V, which no command reports (R577; log 204). -/
opaque vSafeUs : Nat → Word

/-- The node address of the partner chip, which no field of a link frame carries (R516, Table 15.10; log 60). -/
opaque partnerNode : Half

end Sys2Proof.Config
end

