-- ==== Sys2Proof/Syntax.lean ====
section
/-! DEFINITION. The commands of the block, one constructor per row of opcode_table.json, and the operands that carry
what the outside world presents with each command: descriptors, sensed values, bus frames. -/

namespace Sys2Proof

/-- The bytes of a submission descriptor other than its OPCODE (Table 11.3). -/
structure CmdArgs where
  flags  : Half
  tag    : Word
  target : Half
  rsv    : Half
  doff   : Half
  dlen   : Half
  param  : List Byte
deriving DecidableEq, Repr, Inhabited

/-- What a Frame tick presents to the device: what the converters gave in the Frame that ends (R92-R95, R98), the gates as
the drive die reads them back (R135), and how the Frame that begins uses its time. -/
structure FrameIn where
  /-- result of the conversion in each slot of each round of each Group as the slice gives it, before its offset and gain are applied,
  in 1/16 LSB of the 14-bit result (R95, R97). -/
  conv : Vector (Vector (Vector (BitVec 18) 32) 20) 5
  /-- conversions with a negative margin, as Group, round and slot, and Groups whose spare was late (R98, R101). -/
  late : List (Fin 5 × Fin 20 × Fin 32)
  spareLate : BitVec 5
  /-- gate-source voltage of each Channel in mV (R135). -/
  vgs : Vector Int 64
  /-- CE cycles used in S2 and in S3 (R294). -/
  s2Cycles : Nat
  s3Cycles : Nat
  /-- S5 work was left unfinished at the tick (R48). -/
  s5Carry : Bool
  /-- Channels whose S1 evaluation does not end by the deadline of S1 (R195). -/
  missed : BitVec 64
deriving DecidableEq, Repr, Inhabited

/-- The estimate the spare slice gives for the slice it shadowed in a Period (R96, R97): differences in the units of
SNS_READ, and whether the samples carried enough slope for skew. -/
structure SliceEst where
  off : Int
  gain : Int
  skew : Int
  slope : Bool
deriving DecidableEq, Repr, Inhabited

/-- What a Period boundary presents (R50, R96, R98). -/
structure PeriodIn where
  /-- estimate of the slice shadowed in the Period, per Group. -/
  est : Vector SliceEst 5
  /-- smallest margin of each slice in the Period, 10 ps, positions 0-3 then the spare; below 0 it was late (R98). -/
  margin : Vector (Vector Int 5) 5
deriving DecidableEq, Repr, Inhabited

/-- One housekeeping round (R121): on-die temperatures in 1/64 degC after conversion, raw codes of the on-die sensors and of the
TEMPNTC inputs, voltages in mV and the eight self-check codes. -/
structure HkIn where
  ts : Vector Int 24
  tsRaw : Vector (BitVec 12) 24
  ntc : Vector (BitVec 12) 16
  volts : Vector Int 16
  check : Vector (BitVec 12) 8
deriving DecidableEq, Repr, Inhabited

/-- The maskable wake sources and a comparator trip of a HELD Channel (Table 12 rows of Table 2.12). -/
inductive WakeSrc where
  | wakeIn
  | t1s
  | tw0
deriving DecidableEq, Repr, Inhabited

/-- Memory regions of Table 1.3 / Table 1.5 in which an ECC error is found. -/
inductive Region where
  | bootRom
  | supSram
  | ceTcm
  | capture
  | queueMem
  | linkBuf
  | firn
  | flashWin
  | blockRegs
deriving DecidableEq, Repr, Inhabited

/-- An initiator on the fabric (Tables 1.2, 1.3). -/
inductive Initiator where
  | supervisor
  | controlEngine
  | linkEngine
  | captureEngine
  | spiPort
  | tw1Bridge
  | icecore
deriving DecidableEq, Repr, Inhabited

/-- The actuator that a word on the way to the drive die addresses (Die-to-die link, R11). -/
inductive DieWord where
  | gate (n : Fin 64)
  | pwm (p : Fin 16)
  | phaseEnable (p : Fin 16)
  | threshold (n : Fin 64)
  | limit (n : Fin 64)
deriving DecidableEq, Repr, Inhabited

/-- Where a parity error is found (Table 1.5, R11): a transaction of an initiator, or a word on the die-to-die link. -/
inductive ParityAt where
  | fabric (i : Initiator)
  | dieLink (w : DieWord)
deriving DecidableEq, Repr, Inhabited

/-- What a double-bit Firn error hits (Table 1.5). -/
inductive FirnPart where
  | iceRing (seq : Nat)
  | settings (copy : Bool)
  | battery (slot : Bool)
  | snapshot (slot : Bool)
  | creep (ch : Fin 64) (slot : Bool)
  | lastFault (cause : Fin 12) (slot : Bool)
  | cvLearned (slot : Bool)
  | rsv (word : Bool)
  | updState (record : Bool)
  | other
deriving DecidableEq, Repr, Inhabited

/-- The two network links; a numeral 0 or 1 in HPT_DROP. -/
inductive Link where
  | t1
  | t1s
deriving DecidableEq, Repr, Inhabited

/-- A Class A, B or C lane or binding (Table 0.4). -/
inductive Cls where
  | a
  | b
  | c
deriving DecidableEq, Repr, Inhabited

/-- How a Euvos message is carried (Table 13.3). -/
inductive Encap where
  | raw
  | udp (ip : BitVec 128) (port : Half)
deriving DecidableEq, Repr, Inhabited

/-- A received Euvos message with the facts of the frame around it: link, PCP of the tag (none untagged), source MAC,
encapsulation, whether its receive lane was full (R465, log 168), whether its SecTAG and ICV are valid, its secure channel and packet
number (Table 13.2), its EtherType and, over UDP, its destination port (Table 13.3), whether an IPv6 packet had an extension header or
was fragmented or failed its checksum, and the bytes of header and payload (Table 13.4). -/
structure NetMsg where
  link : Link
  pcp : Option (BitVec 3)
  mac : BitVec 48
  encap : Encap
  laneFull : Bool
  secOk : Bool
  sci : BitVec 64
  pn : Word
  etherType : Half
  dport : Half
  ipBad : Bool
  bytes : List Byte
deriving DecidableEq, Repr, Inhabited

/-- How an attempt to send SMBus Host Notify ends (R487, R488, R489). -/
inductive NotifyEnd where
  | acked
  | nacked
  | arbLost (byte : Nat) (bit : Fin 8)
deriving DecidableEq, Repr, Inhabited

/-- The two two-wire buses. -/
inductive Bus where
  | tw0
  | tw1
deriving DecidableEq, Repr, Inhabited

/-- A record of a Hinge link frame (Tables 15.2, 15.4). Only its type code has a place in the spec, so the data stand here
by their meaning (log 58). Ages are Frames since the time that a record names; each chip keeps its own Frame count. -/
inductive LinkRec where
  | offer (swSeq : Word) (frame : Word) (crc : Word)
  | ack
  | nak
  | resyncEnd
  | chan (n : Fin 64) (st : BitVec 3) (cause : BitVec 5) (cls : BitVec 2) (hold : Bool) (queued : Bool) (age : Nat)
      (energy : ℚ)
  | thresholds (n : Fin 64) (cmp : Nat) (creepk : Nat)
  | conv (mode : BitVec 2) (target : Nat) (p : ℚ) (v : ℚ) (a : ℚ)
  | zone (hu : BitVec 2) (cause : Nat) (iso : Bool) (corn : Bool) (cornAge : Nat)
  | setting (code : Nat) (res : Nat) (ord : Nat) (idx : Nat) (val : Nat)
  | nodes (tc : Vector Int 64) (ti : Vector Int 64)
  | capping (cap : Nat) (restore : List (Fin 64)) (dwell : Nat)
  | battery (soc : ℚ) (u : ℚ) (q : ℚ) (uq : ℚ) (rl : ℚ) (conf : Nat) (flags : BitVec 6)
  | creep (n : Fin 64) (fsoa : Nat) (creepk : Nat) (red : Nat) (rho : ℚ) (zratio : ℚ)
  | means (i : Vector ℚ 64) (v : Vector ℚ 64) (g4 : Vector ℚ 5)
  | digest (w : Word)
deriving DecidableEq, Repr, Inhabited

/-- A received Hinge link frame, with whether its lanes and its CRC are good (Table 15.2, R500, R501). -/
structure LinkFrame where
  crcOk : Bool
  state : BitVec 3
  flags : Byte
  swSeq : Word
  mirSeq : Word
  recs : List LinkRec
deriving DecidableEq, Repr, Inhabited

/-- What the PHY reports at an attach (R578, R583): the CC pin that carries Rd, whether the other shows Ra, whether the cable's
e-marker reports 5 A, and whether PD_VCONN_IN is at 4.5 V or above. -/
structure AttachIn where
  cc2 : Bool
  ra : Bool
  cable5 : Bool
  vconnIn : Bool
deriving DecidableEq, Repr, Inhabited

/-- A sink Request (R580): object position, PPS or fixed, operating current in 10 mA, requested voltage in 20 mV. -/
structure PdRequest where
  obj : Nat
  cur : Nat
  volt : Nat
deriving DecidableEq, Repr, Inhabited

/-- A USB PD message other than Request (R575). -/
inductive PdMsg where
  | hardReset
  | getSourceCap
  | getSourceCapExtended
  | getStatus
  | getPpsStatus
  | discoverIdentityReply (fiveAmp : Bool)
  | other (code : Byte)
deriving DecidableEq, Repr, Inhabited

/-- A pump that is late in its start: the Bank that waits, and what the device then reads at VSUP_Bn, in 10 mV (R62, R134). -/
structure PumpLate where
  bank : Fin 4
  vsup : Nat
deriving DecidableEq, Repr, Inhabited

/-- What a comparator sees: the Channel, its forward shunt voltage in µV, and for how long in ns (R187). -/
structure CmpSeen where
  n : Fin 64
  uv : Int
  ns : Nat
deriving DecidableEq, Repr, Inhabited

/-- The Tumbler fields in the row order of Table 17.1. -/
inductive TmbField where
  | classA
  | maxCode
  | tInrush
  | soaCeil
  | tcCeil
  | tiCeil
  | retryMin
  | rateMax
  | buckWin
  | boostWin
  | slewCap
  | nphMax
  | hCap
deriving DecidableEq, Repr, Inhabited

/-- One command of the block: one constructor per row of opcode_table.json. An operand of type Unit has one value: the row brings
nothing from outside. A trigger of an injected conversion falls into a round of the Frame, at a time in ns after its beginning. -/
inductive Instr where
  | powerUp
  | keepAlivePor
  | logicPor
  | logicPorRelease
  | resetN
  | lockstepMismatch
  | pllLockLoss
  | crystalFault
  | pllRelock
  | rcOscillatorFault
  | crystalStartTimeout
  | pllLock
  | ceRelease (offFrames : Nat)
  | pumpRegulated (bank : Fin 4) (vsup : Nat)
  | pumpStartTimeout (x : PumpLate)
  | pumpFail (bank : Fin 4)
  | converterRegulation
  | startFail
  | frameTick (i : FrameIn)
  | frameOverrun (slot : Fin 4)
  | ceRestart
  | periodBoundary (p : PeriodIn)
  | classAServiceSlot
  | classAAcceptTimeout (n : Fin 64)
  | comparatorTrip (x : CmpSeen)
  | tumblerRamp (n : Fin 64)
  | rampTimeout (n : Fin 64)
  | gateFail (n : Fin 64)
  | fetShortTest (n : Fin 64)
  | fetShort (n : Fin 64)
  | retryDue (n : Fin 64)
  | tstableExpiry (n : Fin 64)
  | dischargeTimeout (n : Fin 64)
  | ambFallback (n : Fin 64)
  | arcBlock (a : Unit)
  | probeEnd (n : Fin 64) (a : Unit)
  | injectedConversion (g : Fin 5) (defn : Fin 8) (round : Fin 20) (ns : Fin 200)
  | hkRound (h : HkIn)
  | captureDone (stream : Fin 16)
  | shedholdExpiry
  | interleaveRotation
  | autoRestart
  | countedRestart (rail : Fin 5)
  | profileTimeout (n : Fin 64)
  | injectionStart
  | sweepPointEnd
  | holdupReturn
  | returnTimeout
  | spentStartTimeout
  | huTestEnd
  | powerFailWarning
  | powerFailClear
  | wake (src : WakeSrc)
  | keyringWakeInterval
  | dormantEntryStep
  | sramScrub
  | firnScrub
  | eccSingle (r : Region)
  | eccDouble (r : Region) (addr : Word) (part : FirnPart)
  | parity (w : ParityAt)
  | busError (addr : Word)
  | keyringSeal (count : Nat)
  | keyringKeyWrite (task : Fin 16) (val : Half)
  | keyringRegister (task : Fin 16) (key : Half)
  | keyringEnable
  | expire
  | krgClock
  | tumblerTighten (f : TmbField) (ch : Fin 64) (hi : Bool) (val : Nat)
  | offPermitLapse (n : Fin 64)
  | iceFlushDone
  | iceClearDone
  | fenceComplete (q : Fin 32)
  | spiFrame (words : List Word) (midWord : Bool)
  | qmSqdb (q : Fin 32) (w : Word)
  | qmCqdb (q : Fin 32) (w : Word)
  | qmQctlEn (q : Fin 32) (en : Bool) (ie : Bool)
  | qmQctlRestart (q : Fin 32)
  | qmWinbase (w : Word)
  | vioCtlClear
  | hptFaultClear (w : Word)
  | registerWrite (addr : Half) (w : Word)
  | commandMessage (m : NetMsg)
  | echoReq (m : NetMsg)
  | neighbourSolicitation (link : Link) (target : BitVec 128) (src : BitVec 128) (mac : BitVec 48)
  | linkState (link : Link) (up : Bool)
  | permit (m : NetMsg)
  | revoke (m : NetMsg)
  | failover (m : NetMsg)
  | hingeGnt (level : Bool)
  | partnerPulse (hold : Bool)
  | heartbeat (f : LinkFrame)
  | hingeLinkLost
  | partnerAbsent
  | handingRegain
  | coldStartTake
  | offer (f : LinkFrame)
  | ack (f : LinkFrame)
  | nak (f : LinkFrame)
  | resyncEnd (f : LinkFrame)
  | converterHandoverEnd
  | hostNotify (e : NotifyEnd)
  | hostNotifyRetry (e : NotifyEnd)
  | tw1BlockWrite (code : Byte) (count : Nat) (bytes : List Byte) (pec : Option Byte)
  | tw1BlockRead (code : Byte) (complete : Bool)
  | tw1ReadWord (code : Byte)
  | tw0BlockRead (code : Byte)
  | tw0QuickCommand
  | illegalStart (b : Bus)
  | twBusError (b : Bus)
  | twTimeout (b : Bus) (asController : Bool)
  | attach (p : Fin 2) (a : AttachIn)
  | rdAbsent (p : Fin 2)
  | detach (p : Fin 2) (vSafeUs : Nat)
  | request (p : Fin 2) (r : PdRequest)
  | srcTransition (p : Fin 2)
  | noPdReply (p : Fin 2)
  | contractHardReset (p : Fin 2)
  | moistureTest (p : Fin 2) (imp : Vector Nat 4)
  | vconnLimit (p : Fin 2)
  | updVerifyDone (readError : Bool)
  | trialConfirm
  | commandedReset
  | chOn (q : Fin 32) (d : CmdArgs)
  | chOff (q : Fin 32) (d : CmdArgs)
  | chCfg (q : Fin 32) (d : CmdArgs)
  | chRead (q : Fin 32) (d : CmdArgs)
  | chClear (q : Fin 32) (d : CmdArgs)
  | cvSet (q : Fin 32) (d : CmdArgs)
  | cvCfg (q : Fin 32) (d : CmdArgs)
  | auxCfg (q : Fin 32) (d : CmdArgs)
  | lawCfg (q : Fin 32) (d : CmdArgs)
  | cvRead (q : Fin 32) (d : CmdArgs)
  | capSet (q : Fin 32) (d : CmdArgs)
  | huCfg (q : Fin 32) (d : CmdArgs)
  | shedOrder (q : Fin 32) (d : CmdArgs)
  | zoneRead (q : Fin 32) (d : CmdArgs)
  | huTest (q : Fin 32) (d : CmdArgs)
  | stagCfg (q : Fin 32) (d : CmdArgs)
  | batCfg (q : Fin 32) (d : CmdArgs)
  | batRead (q : Fin 32) (d : CmdArgs)
  | snsMask (q : Fin 32) (d : CmdArgs)
  | snsGain (q : Fin 32) (d : CmdArgs)
  | snsFilter (q : Fin 32) (d : CmdArgs)
  | snsInj (q : Fin 32) (d : CmdArgs)
  | snsZone (q : Fin 32) (d : CmdArgs)
  | snsRead (q : Fin 32) (d : CmdArgs)
  | capCfg (q : Fin 32) (d : CmdArgs)
  | capArm (q : Fin 32) (d : CmdArgs)
  | capTrig (q : Fin 32) (d : CmdArgs)
  | capRelease (q : Fin 32) (d : CmdArgs)
  | capRead (q : Fin 32) (d : CmdArgs)
  | capNetStart (q : Fin 32) (d : CmdArgs)
  | capNetStop (q : Fin 32) (d : CmdArgs)
  | iceRead (q : Fin 32) (d : CmdArgs)
  | iceFlush (q : Fin 32) (d : CmdArgs)
  | iceClear (q : Fin 32) (d : CmdArgs)
  | fence (q : Fin 32) (d : CmdArgs)
  | reset (q : Fin 32) (d : CmdArgs)
  | dormant (q : Fin 32) (d : CmdArgs)
  | wakeCfg (q : Fin 32) (d : CmdArgs)
  | ownerMap (q : Fin 32) (d : CmdArgs)
  | ownerRes (q : Fin 32) (d : CmdArgs)
  | qCfg (q : Fin 32) (d : CmdArgs)
  | qCtlDisable (q : Fin 32) (d : CmdArgs)
  | qCtlEnable (q : Fin 32) (d : CmdArgs)
  | qCtlRestart (q : Fin 32) (d : CmdArgs)
  | vioClear (q : Fin 32) (d : CmdArgs)
  | idRead (q : Fin 32) (d : CmdArgs)
  | hingeCfg (q : Fin 32) (d : CmdArgs)
  | hingeHandover (q : Fin 32) (d : CmdArgs)
  | hingeResync (q : Fin 32) (d : CmdArgs)
  | hingeCounterClear (q : Fin 32) (d : CmdArgs)
  | hingeRead (q : Fin 32) (d : CmdArgs)
  | pdCfg (q : Fin 32) (d : CmdArgs)
  | pdReadvertise (q : Fin 32) (d : CmdArgs)
  | pdHardReset (q : Fin 32) (d : CmdArgs)
  | pdMoistureTestNow (q : Fin 32) (d : CmdArgs)
  | pdClearFault (q : Fin 32) (d : CmdArgs)
  | pdClearCorrosion (q : Fin 32) (d : CmdArgs)
  | pdRead (q : Fin 32) (d : CmdArgs)
  | updBegin (q : Fin 32) (d : CmdArgs)
  | updData (q : Fin 32) (d : CmdArgs)
  | updEnd (q : Fin 32) (d : CmdArgs)
  | updActivate (q : Fin 32) (d : CmdArgs)
  | updRead (q : Fin 32) (d : CmdArgs)
  | injStart (q : Fin 32) (d : CmdArgs)
  | injStop (q : Fin 32) (d : CmdArgs)
  | injRead (q : Fin 32) (d : CmdArgs)
  | ceStat (q : Fin 32) (d : CmdArgs)
  | resetNRelease
  | rdReturn (p : Fin 2)
  | pdReceivedMessage (p : Fin 2) (m : PdMsg)
  | vconnInputLow
  | mkaFrame (link : Link) (newSak : Bool)
  | transmitOpportunity
  | flashWriteDone
  | firnWriteDone (verifyOk : Bool)
  | neighbourAdvertisement (link : Link) (ip : BitVec 128) (mac : BitVec 48)
deriving DecidableEq, Repr

end Sys2Proof
end

