-- ==== Sys2Proof/WellFormed.lean ====
section
/-! DEFINITION. Which commands are well formed: the operands have the sizes that the spec's formats give them. -/

namespace Sys2Proof

/-- PARAM is bytes 16-63 of the descriptor (Table 11.3). -/
def CmdArgs.wf (d : CmdArgs) : Bool := d.param.length == 48

/-- A Frame has 2,000 CE cycles (R294), and a conversion is late once. -/
def FrameIn.wf (i : FrameIn) : Bool := i.s2Cycles ≤ 2000 && i.s3Cycles ≤ 2000 && i.late.Nodup

/-- A margin is 25 ns less the time of a conversion (R98), in 10 ps. -/
def PeriodIn.wf (p : PeriodIn) : Bool := p.margin.toList.all fun g => g.toList.all fun m => m ≤ 2500

/-- The codes of a link record name a state and a cause that exist (Tables 4.6, 12.10). -/
def LinkRec.wf : LinkRec → Bool
  | .chan _ st cause _ _ _ _ _ => st.toNat ≤ 6 && cause.toNat ≤ 17
  | .conv mode _ _ _ _ => mode.toNat ≤ 2
  | _ => true

/-- The Hinge state of a link frame exists (Table 15.2). -/
def LinkFrame.wf (f : LinkFrame) : Bool := f.state.toNat ≤ 5 && f.recs.all LinkRec.wf

/-- A Euvos message has at most 1,104 bytes, and a PCP is present only in a tag (Table 13.5). -/
def NetMsg.wf (m : NetMsg) : Bool := m.bytes.length ≤ 1104

/-- Well-formedness of a command. -/
def Instr.wf : Instr → Bool
  | .frameTick i => i.wf
  | .spiFrame ws _ => ws.length ≤ 131
  | .commandMessage m | .echoReq m | .permit m | .revoke m | .failover m => m.wf
  | .heartbeat f | .offer f | .ack f | .nak f | .resyncEnd f => f.wf
  | .tw1BlockWrite _ c bs _ => c < 256 && bs.length < 256
  | .request _ r => 1 ≤ r.obj && r.obj ≤ 7
  | .periodBoundary p => p.wf
  | .keyringSeal n => n < 65536
  | .ceRelease n => n < 2 ^ 64
  | .chOn _ d | .chOff _ d | .chCfg _ d | .chRead _ d | .chClear _ d | .cvSet _ d | .cvCfg _ d | .auxCfg _ d
  | .lawCfg _ d | .cvRead _ d | .capSet _ d | .huCfg _ d | .shedOrder _ d | .zoneRead _ d | .huTest _ d
  | .stagCfg _ d | .batCfg _ d | .batRead _ d | .snsMask _ d | .snsGain _ d | .snsFilter _ d | .snsInj _ d
  | .snsZone _ d | .snsRead _ d | .capCfg _ d | .capArm _ d | .capTrig _ d | .capRelease _ d | .capRead _ d
  | .capNetStart _ d | .capNetStop _ d | .iceRead _ d | .iceFlush _ d | .iceClear _ d | .fence _ d | .reset _ d
  | .dormant _ d | .wakeCfg _ d | .ownerMap _ d | .ownerRes _ d | .qCfg _ d | .qCtlDisable _ d | .qCtlEnable _ d
  | .qCtlRestart _ d | .vioClear _ d | .idRead _ d | .hingeCfg _ d | .hingeHandover _ d | .hingeResync _ d
  | .hingeCounterClear _ d | .hingeRead _ d | .pdCfg _ d | .pdReadvertise _ d | .pdHardReset _ d
  | .pdMoistureTestNow _ d | .pdClearFault _ d | .pdClearCorrosion _ d | .pdRead _ d | .updBegin _ d | .updData _ d
  | .updEnd _ d | .updActivate _ d | .updRead _ d | .injStart _ d | .injStop _ d | .injRead _ d | .ceStat _ d => d.wf
  | .powerUp | .keepAlivePor | .logicPor | .logicPorRelease | .resetN | .lockstepMismatch | .pllLockLoss
  | .crystalFault | .pllRelock | .rcOscillatorFault | .crystalStartTimeout | .pllLock | .pumpRegulated ..
  | .pumpStartTimeout .. | .pumpFail _ | .converterRegulation | .startFail | .ceRestart | .classAServiceSlot
  | .classAAcceptTimeout _ | .comparatorTrip .. | .tumblerRamp _ | .rampTimeout _ | .gateFail _ | .fetShortTest _
  | .fetShort _ | .arcBlock _ | .probeEnd .. | .injectedConversion .. | .retryDue _ | .tstableExpiry _ | .dischargeTimeout _ | .ambFallback _
  | .hkRound _ | .captureDone _ | .shedholdExpiry | .interleaveRotation | .autoRestart | .countedRestart _
  | .profileTimeout _ | .injectionStart | .sweepPointEnd | .holdupReturn | .returnTimeout | .spentStartTimeout
  | .huTestEnd | .powerFailWarning | .powerFailClear | .wake _ | .keyringWakeInterval | .dormantEntryStep | .sramScrub
  | .firnScrub | .eccSingle _ | .eccDouble .. | .parity _ | .busError _ | .frameOverrun .. | .keyringKeyWrite .. | .keyringRegister ..
  | .keyringEnable | .expire | .krgClock | .tumblerTighten .. | .offPermitLapse _ | .iceFlushDone | .iceClearDone
  | .fenceComplete _ | .qmSqdb .. | .qmCqdb .. | .qmQctlEn .. | .qmQctlRestart _ | .qmWinbase _ | .vioCtlClear
  | .hptFaultClear _ | .registerWrite .. | .neighbourSolicitation .. | .linkState .. | .hingeGnt _ | .partnerPulse _
  | .hingeLinkLost | .partnerAbsent | .handingRegain | .coldStartTake | .converterHandoverEnd | .hostNotify _
  | .hostNotifyRetry _ | .tw1BlockRead .. | .tw1ReadWord _ | .tw0BlockRead _ | .tw0QuickCommand | .illegalStart _
  | .twBusError _ | .twTimeout .. | .attach .. | .rdAbsent _ | .detach .. | .srcTransition _ | .noPdReply _
  | .contractHardReset _ | .moistureTest .. | .vconnLimit _ | .updVerifyDone _ | .trialConfirm | .commandedReset
  | .resetNRelease | .rdReturn _ | .pdReceivedMessage .. | .vconnInputLow | .mkaFrame .. | .transmitOpportunity
  | .flashWriteDone | .firnWriteDone _ | .neighbourAdvertisement .. => true

end Sys2Proof
end

