-- ==== Sys2Proof/Machine/State.lean ====
section
/-! DEFINITION. The state of the BZ64 as plain data: every register, queue, buffer, counter, mode and pin that the spec
gives the block, and the queue of waiting commands. Section numbers name the files of spec/. -/

namespace Sys2Proof.Machine

open Sys2Proof

/-- Reasons a step stops with a fault. -/
inductive Fault where
  /-- Raised by no meaning: every command of the block has an effect or is ignored. Safe. -/
  | unreachable
deriving DecidableEq, Repr

/-- Reasons a step is refused. -/
inductive Refusal where
  /-- A row of the opcode table without a meaning yet. Raised by no arm of the finished model. Safe. -/
  | notModelled (mnemonic : String)
deriving DecidableEq, Repr

/-- Power modes (R58). -/
inductive PowerMode where
  | off
  | start
  | run
  | dormant
  | shutdown
deriving DecidableEq, Repr, Inhabited

/-- The logic die: unpowered, held in reset, or running (R12, R80). -/
inductive LogicDie where
  | off
  | inReset
  | running
deriving DecidableEq, Repr, Inhabited

/-- Channel states (R141). -/
inductive ChState where
  | off
  | ramp
  | on
  | tripped
  | lockout
  | held
  | fetFault
deriving DecidableEq, Repr, Inhabited

/-- Gate drive of a Channel as the drive die applies it (R141, R148, R153). -/
inductive Gate where
  | low
  | ramp
  | full
deriving DecidableEq, Repr, Inhabited

/-- Output discharge sink of a Channel (R164). -/
inductive Sink where
  | none
  | passive
  | active
deriving DecidableEq, Repr, Inhabited

/-- Cause codes of Table 4.6. -/
inductive Cause where
  | none
  | tumblerRamp
  | comparator
  | shortRamp
  | rampTimeout
  | wireModel
  | arc
  | setMember
  | gateFail
  | fetShort
  | thermal
  | holdupShed
  | capShed
  | pumpFail
  | senseFail
  | reset
  | command
  | admitted
deriving DecidableEq, Repr, Inhabited

/-- What the path engine keeps of a descriptor besides its bytes: the Frame at which it became visible (R407), the
Euvos source and MSEQ on the network path (R463, R464), the model's own number of the descriptor in its Queue, and
whether it lies outside the bound: ninth outstanding (R412), or exempt: on another lane (R466), behind a FENCE of Table 11.9
(R411), or judged already, at the start of its effect (R410). -/
structure Vis where
  frame : Nat
  src : Nat
  mseq : Word
  id : Nat
  ninth : Bool
  exempt : Bool
  /-- RLEN of a COMMAND of the network path, beyond which its result is cut (R462). -/
  rlen : Option Nat := none
deriving DecidableEq, Repr, Inhabited

/-- A COMMAND of the network path or a block of TW1 that was written into a ring, for the repeats of R463 and R483: the
descriptor's number, its source and MSEQ, its bytes as received, and its completion (entry and data) once written. -/
structure Recent where
  id : Nat
  src : Nat
  mseq : Word
  key : List Byte
  cpl : Option (List Byte)
deriving DecidableEq, Repr, Inhabited

/-- A command taken from a ring: Queue, opcode, the descriptor's other bytes, the area's input data, the owner under
which it was taken and the Frame at which it became visible (R381, R389, R407). -/
structure Taken where
  q : Fin 32
  op : Half
  d : CmdArgs
  input : List Byte
  owner : Option (Fin 16)
  /-- the owners of the resources as they were when the command was taken (R381). -/
  res : List (Nat × Fin 16)
  vis : Vis
  /-- taken before its Queue was STOPPED: its completion is discarded (Table 11.8). -/
  dead : Bool
deriving DecidableEq, Repr, Inhabited

/-- What an outstanding command waits for. -/
inductive Wait where
  /-- the effect applies at the next tick; completes there with the status and result. -/
  | tick (status : Byte) (result : List Byte)
  /-- the effect applies at the next arc block boundary. -/
  | block (status : Byte) (result : List Byte)
  /-- the effect applies at the next Period boundary. -/
  | period (status : Byte) (result : List Byte)
  /-- CH_ON waiting for admission. -/
  | admission (ch : Fin 64)
  /-- CH_OFF whose gate-off takes effect at the next tick. -/
  | chOff (ch : Fin 64)
  /-- CH_CLEAR recheck in the next latch (R162). -/
  | clearCheck (ch : Fin 64)
  /-- converter CV_SET starting, slewing or going IDLE. -/
  | cvStart
  | cvSlew
  | cvIdle
  /-- AUX CV_SET. -/
  | auxOn (r : Fin 4)
  | auxSlew (r : Fin 4)
  | auxOff (r : Fin 4)
  /-- a deferred command whose effect starts at the next tick. -/
  | start
  /-- HU_TEST until NORMAL. -/
  | huTest
  /-- DORMANT until step 6. -/
  | dormant
  /-- FENCE: the earlier commands of its scoped Queues, as Queue and descriptor number, and the Frame of its execution (R416). -/
  | fence (earlier : List (Fin 32 × Nat)) (since : Nat)
  /-- a read held for a latch later than the tick named (R418). -/
  | readAfter (frame : Nat)
  /-- HINGE_CMD HANDOVER. -/
  | handover
  /-- finished, with its completion entry behind that of an earlier command of its Queue (R392); told: with CMD_DONE. -/
  | done (status : Nat) (frame : Option Nat) (result data : List Byte) (evt told : Bool)
deriving DecidableEq, Repr, Inhabited

/-- A CH_ON that waits for its admission. -/
def Wait.admits : Wait → Bool
  | .admission _ => true
  | _ => false

/-- A command whose process goes on in the partner, which the pair's HANDING completes with ACCEPTED (R506, log 205). -/
def Wait.passes : Wait → Bool
  | .admission _ | .cvStart | .cvSlew | .cvIdle | .auxOn _ | .auxSlew _ | .auxOff _ | .huTest => true
  | _ => false

/-- Whether the later commands of the Queue complete after a command in this wait (R392): all but those of Table 11.9, whose
processes are CH_ON in the admission queue, CV_SET, HU_TEST and FENCE (log 128). -/
def Wait.holds : Wait → Bool
  | .tick _ _ | .block _ _ | .period _ _ | .chOff _ | .clearCheck _ | .readAfter _ | .dormant | .handover
  | .done _ _ _ _ _ _ => true
  | .admission _ | .cvStart | .cvSlew | .cvIdle | .auxOn _ | .auxSlew _ | .auxOff _ | .start | .huTest | .fence _ _ => false

def Wait.isDone : Wait → Bool
  | .done _ _ _ _ _ _ => true
  | _ => false

/-- A command that has been executed and has not completed. seq orders the commands of one Queue. -/
structure Out where
  cmd : Taken
  seq : Nat
  wait : Wait
deriving DecidableEq, Repr, Inhabited

/-- Key of one configuration field: table code, resource, ordinal, INDEX (Tables 12.4, 12.5). -/
structure FKey where
  code : Nat
  res : Nat
  ord : Nat
  idx : Nat
deriving DecidableEq, Repr, Inhabited

/-- When staged field writes apply (R437). -/
inductive DueAt where
  | tick
  | block
  | period
deriving DecidableEq, Repr, Inhabited

/-- A set of accepted field writes that applies together. -/
structure Staged where
  due : DueAt
  writes : List (FKey × Nat)
deriving DecidableEq, Repr, Inhabited

/-- Arc detector of a Channel (06, R214-R230). Signatures are 1 step collapse, 2 restrike, 3 step rise. -/
structure ArcSt where
  /-- noise floors in LSB/16 of the raw word, and the blocks spent in ON, up to 25. -/
  floor : Vector ℚ 4
  learned : Nat
  /-- points and signature bits of the last 20 blocks, newest first. -/
  points : List Nat
  seen : List Nat
  /-- signatures of the last block that have not added their points. -/
  sigPend : List Nat
  /-- the last samples of the blocks before, newest last. -/
  lastWords : List ℚ
  /-- raw words of the running block, behind one that waits for the word after it (R230). -/
  buf : List Half
  /-- two sections of each band-pass filter (Table 6.1). -/
  sect : Vector (Vector (ℚ × ℚ) 2) 4
  /-- the block that ended last: its samples, the RMS of each sub-band in LSB/16, noise qualification, not yet evaluated. -/
  blk : List ℚ
  rms : Vector Nat 4
  qual : Bool
  due : Bool
  /-- Frames at which the gate target changed, of the last two blocks (Table 6.5). -/
  marks : List Nat
  /-- ASTATE at the last block (Table 6.10). -/
  astate : Nat
  suspectAt : Option Nat
  suspectUp : Bool
  nSuspect : Nat
  nCommon : Nat
  last : Option Nat
  ratio : Vector Nat 4
deriving DecidableEq, Repr, Inhabited

/-- A Creep result slot (Table 6.7). -/
structure CrSlot where
  seq : Nat
  rho : ℚ
  zratio : ℚ
  fsoa : Nat
  creepk : Nat
  red : Nat
  lifeRon : Nat
  lifeZth : Nat
deriving DecidableEq, Repr, Inhabited

/-- Creep of a Channel: windows, baselines and applied results (06, R231-R249). -/
structure CreepSt where
  /-- learned baselines in ohm and K/W. -/
  ron0 : ℚ
  zth0 : ℚ
  ronLearned : Bool
  zthLearned : Bool
  winRon : List ℚ
  winZth : List ℚ
  /-- ratios stored with the applied results; applied SOA factor in 0.001, limit offset in K, code reduction. -/
  rho : ℚ
  zratio : ℚ
  fsoa : Nat
  creepk : Nat
  red : Nat
  tfet : ℚ
  warn : Bool
  alarm : Bool
  rejected : Nat
  lifeRon : Nat
  lifeZth : Nat
  /-- sums over the present Period, and whether it can still be valid (R231). -/
  sumVI : ℚ
  sumII : ℚ
  sumI : ℚ
  okPeriod : Bool
  /-- mean current and validity of the last Period; a new value since the last re-plan. -/
  lastMean : ℚ
  lastValid : Bool
  isNew : Bool
  /-- Frame at which a running probe began; the samples of supply, output and current before it and after it, and of the current
  during it (R235); Frame of the last valid probe. -/
  probe : Option Nat
  /-- the running probe ends at the next tick, without a value (R236). -/
  probeCut : Bool
  pre : List (Int × Int × Int)
  during : List Int
  post : List (Int × Int × Int)
  lastProbe : Option Nat
  slot0 : Option CrSlot
  slot1 : Option CrSlot
  histRho : ℚ
  histTon : Nat
  /-- sequence of the next history entry; sequence of the baseline block, PLEN of its ZTH0, learned and not yet in Firn (R76). -/
  histSeq : Nat
  baseSeq : Nat
  basePlen : Nat
  baseLate : Bool
  hist : List (List Byte)
deriving DecidableEq, Repr, Inhabited

/-- Tumbler's per-Channel limits in force and drive-die counters (17, R536-R544). -/
structure TmbCh where
  classA : Bool
  maxCode : Nat
  tInrush : Nat
  soaCeil : Nat
  tcCeil : Nat
  tiCeil : Nat
  retryMin : Nat
  rateMax : Nat
  /-- drive-die time of the last off on a protection path. -/
  offAt : Option Nat
  /-- a start of ramp drive since that off has been counted. -/
  counted : Bool
  /-- drive-die times of the counted starts. -/
  starts : List Nat
  /-- Frame at which an armed off permit lapses. -/
  permit : Option Nat
deriving DecidableEq, Repr, Inhabited

/-- What S0 latches of a Channel for S1: the Frame, current before and after the notch, output and Vsup, GATE_LOW and GATE_MIN. -/
structure Latch where
  frame : Nat
  i : ℚ
  m : ℚ
  v : ℚ
  vs : ℚ
  low : Bool
  min : Bool
deriving DecidableEq, Repr, Inhabited

/-- A step that a wire model has not taken: one latch of an overrun S1 (R195), or the Frames of a suspension behind the
last latch before it (R194). -/
structure WmWork where
  frames : Nat
  i : ℚ
  susp : Bool
deriving DecidableEq, Repr, Inhabited

/-- One Channel (04, 05). -/
structure Chan where
  st : ChState
  cause : Cause
  mask : Word
  detail : Half
  lastTr : Nat
  tag : Word
  /-- gate drive applied, and the one staged for the next tick. -/
  gate : Gate
  gateNext : Gate
  gateLow : Bool
  gateMin : Bool
  gateFull : Bool
  /-- Frame in which GATE_MIN must be set, whether it was clear then (R150, R153), run of Frames with it clear in ON (R157). -/
  gateDue : Option Nat
  gateBad : Bool
  minRun : Nat
  /-- tick at which the gate was commanded off, while the check of R158 is armed. -/
  offAt : Option Nat
  fetRun : Nat
  sink : Sink
  sinkAt : Nat
  /-- ramp: time zero, reference start, energy, budget, charge, peak, outputs of the last Frames, run at 98 %. -/
  t0 : Nat
  refStart : ℚ
  /-- linear amplifier in RAMP: reference at this tick in V, its slope in V per ms, clamp in A (R149, R168). -/
  ref : ℚ
  slope : ℚ
  clamp : ℚ
  energy : ℚ
  budget : ℚ
  charge : ℚ
  peak : ℚ
  vHist : List ℚ
  run98 : Nat
  /-- Tumbler's ramp counter has turned the gate off, and S1 has not taken it (R154). -/
  tmbOff : Bool
  /-- latched values: protection taps and notch outputs in A and V, their valid flags. -/
  iP : ℚ
  vP : ℚ
  iM : ℚ
  vM : ℚ
  iOk : Bool
  vOk : Bool
  iSeen : Bool
  /-- meters of Table 4.7. -/
  iMin : ℚ
  iMax : ℚ
  iMinP : ℚ
  iMaxP : ℚ
  irms : Nat
  /-- squares of the current samples of the Period so far, in squared LSB of the 14-bit result. -/
  sumSq : Nat
  sumI : ℚ
  sumV : ℚ
  sumP : ℚ
  sumF : ℚ
  meanI : ℚ
  meanV : ℚ
  pload : ℚ
  pfet : ℚ
  efwd : ℚ
  erev : ℚ
  ton : Nat
  nramp : Nat
  lastDur : Nat
  lastE : ℚ
  lastPeak : ℚ
  lastQ : ℚ
  hasRamp : Bool
  onFrames : Nat
  savedP : ℚ
  /-- in ON since the last Period boundary, and for the whole of the Period that ended there (R350). -/
  steady : Bool
  wholeOn : Bool
  /-- wire model: nodes in 2^-32 K, whether stepping, source of the start values, HOT, IWMAX run, ambient. -/
  tc : Int
  ti : Int
  /-- what the last steps left below the LSB of each node (log 157). -/
  tcRem : ℚ
  tiRem : ℚ
  stepping : Bool
  nodeSrc : Nat
  raised12 : Bool
  raised11 : Bool
  hot : Bool
  iwRun : Nat
  ta : ℚ
  ambHost : Option Nat
  ambHostAt : Nat
  ambFb : Bool
  lastAmb : Option ℚ
  ttl : Half
  /-- comparator: effective code in force and staged, CREEP_CLIPPED written, drive-die trip latch, trip waiting for S1. -/
  cmp : Nat
  cmpNext : Nat
  /-- the code last asked for, before the clamp of the drive die (R30, R188). -/
  cmpAsk : Nat
  /-- PGA gain at the last threshold, kept while the logic die is off (R190). -/
  cmpGain : Nat
  clipped : Bool
  latch : Bool
  cmpTrip : Bool
  /-- retry policy: count k, Frame at which a retry falls due, Frame from which TSTABLE runs. -/
  k : Nat
  retryAt : Option Nat
  /-- the present trip has an automatic retry by Table 5.5 (R642). -/
  retryOwed : Bool
  tstabFrom : Nat
  /-- latches that S1 has not evaluated (R195), SHORT_RAMP's condition a in those of this S1, the steps that the wire model
  owes (R194, R195), and the cases of R184 met in this S1. -/
  miss : List Latch
  flat : Bool
  wmWork : List WmWork
  wmHit : Nat
  arc : ArcSt
  creep : CreepSt
  tmb : TmbCh
deriving DecidableEq, Repr, Inhabited

/-- Who asked for an admission-queue entry. -/
inductive AdmSrc where
  | host
  | manualRetry
  | autoRetry
  | restore
  | resetHead
deriving DecidableEq, Repr, Inhabited

/-- A feed-forward profile record (Table 8.4): IPRED in 0.1 A, NPRED in Frames. -/
structure ProfRec where
  ch : Fin 64
  dom48 : Bool
  ipred : Nat
  npred : Nat
  admitted : Bool
deriving DecidableEq, Repr, Inhabited

/-- A mailbox page of the CE (R17): the latch area that S0 writes, and the command area, here its profile records and the BUCK
target. -/
structure CePage where
  latch : Vector Code24 32
  valid : Vector Bool 32
  recs : List ProfRec
  target : Nat
  /-- the decision of the loss detector in this Frame (R329). -/
  loss : Bool
deriving DecidableEq, Repr, Inhabited

/-- An entry of the admission queue (R66-R74). -/
structure AdmEntry where
  ch : Fin 64
  src : AdmSrc
  vis : Nat
  phReq : Bool
  profile : Option ProfRec
  tag : Word
deriving DecidableEq, Repr, Inhabited

/-- A slice of a Group (R96-R101): corrections as in SNS_READ, SLOW, retired, consecutive updates out of range,
smallest margin of the last Period. -/
structure Slice where
  off : Int
  gain : Int
  skew : Int
  slow : Bool
  retired : Bool
  outRun : Nat
  margin : Int
deriving DecidableEq, Repr, Inhabited

/-- The filter chain of an input (R115-R120): the corrected value that a TAG 01 word repeats, integrators and combs of the CIC
with its last output, the notch's last two inputs and outputs, the chain's last output. -/
structure Filt where
  prev : Int
  int : List Int
  comb : List Int
  cic : Code24
  nIn : ℚ × ℚ
  nOut : ℚ × ℚ
  out : Code24
deriving DecidableEq, Repr, Inhabited

/-- A sense Group (03). slices 0-3 are the positions, 4 the spare. -/
structure Group where
  mask : Word
  seqMode : Bool
  seq : Vector Half 16
  inj : Vector Word 8
  injPeriod : Nat
  injLost : Vector Nat 8
  injWord : Vector Half 8
  injFrame : Vector Nat 8
  /-- tick from which the timer of TRIG 40 counts; injected conversions that are due, as definition and ns after the tick; results
  on their way to the mailbox. -/
  injFrom : Nat
  injReq : List (Fin 8 × Int)
  injNew : List (Fin 8 × Half × Nat)
  gain : Vector (BitVec 2) 32
  filt : Vector Word 32
  /-- Frames for which the latch of each input still carries a cleared valid flag. -/
  inval : Vector Nat 32
  /-- filter chains; raw words and chain outputs of the last Frame, in their order. -/
  flt : Vector Filt 32
  words : Vector (List Half) 32
  outs : Vector (List Code24) 32
  /-- the last 100 samples of each input (R235). -/
  recent : Vector (List Int) 32
  health : Nat
  slices : Vector Slice 5
  retired : Nat
  vacant : Option Nat
  cyc : Nat
deriving DecidableEq, Repr, Inhabited

/-- Pump of a Bank or a spare (R62, R136; low power in Dormant, R84). -/
inductive PumpSt where
  | stopped
  | starting
  | good
  | bad
  | lowPower
deriving DecidableEq, Repr, Inhabited

/-- Converter modes (R253). -/
inductive CvMode where
  | idle
  | buck
  | boost
deriving DecidableEq, Repr, Inhabited

/-- Phase states (R257); none for a Phase not set in PHMASK. -/
inductive PhState where
  | none
  | active
  | shed
  | spare
  | retired
deriving DecidableEq, Repr, Inhabited

/-- A profile generator (R310-R315) in units of Frames: position, rate and acceleration, the target, the limits last used
(rate, acceleration, jerk), and the plan in force as (Frames, jerk per Frame) segments. -/
structure Gen where
  p : ℚ
  v : ℚ
  a : ℚ
  target : ℚ
  lims : ℚ × ℚ × ℚ
  plan : List (Nat × ℚ)
  replan : Bool
deriving DecidableEq, Repr, Inhabited

/-- A switching period of a Phase or a rail (R252, R261, R262, R275, R301): start in ns after the tick, time with the PWM high, a
period that is skipped, diode emulation (R254, R281), and when a per-cycle limit ended the on-time or took the PWM to mid-level. -/
structure SwPeriod where
  start : ℚ
  on : Nat
  skip : Bool
  diode : Bool
  cut : Option ℚ
  mid : Option ℚ
deriving DecidableEq, Repr, Inhabited

/-- One converter Phase (07): join is the switching time since an add while JOINING, in ns. -/
structure Phase where
  st : PhState
  join : Option ℚ
  addedAt : Nat
  activeTime : Nat
  rph : List ℚ
  rph0 : ℚ
  krLow : Nat
  target : ℚ
  duty : ℚ
  /-- what the drive die applies: duty, PWM at mid-level, EN. -/
  dutyAp : ℚ
  midAp : Bool
  enAp : Bool
  integ : ℚ
  sumDI : ℚ
  sumII : ℚ
  sumI : ℚ
  okPeriod : Bool
  limPeriod : Nat
  limIpkf : Nat
  periods : Nat
  failRun : Nat
  stuckRun : Nat
  limNow : Bool
  /-- a per-cycle limit of R261 acted in the last Frame. -/
  cutNow : Bool
  /-- the switching periods of the last Frame, oldest first, and the current words whose result comes after the next tick. -/
  sw : List SwPeriod
  late : List (ℚ × ℚ)
deriving DecidableEq, Repr, Inhabited

/-- A feed-forward profile in progress (R305-R308); big where it predicts a load step of R269. -/
structure Profile where
  ch : Fin 64
  ipred : ℚ
  npred : Nat
  start : Nat
  big : Bool
deriving DecidableEq, Repr, Inhabited

/-- A last-fault slot of the converter (Table 7.7); valid says that its CRC-32C holds. -/
structure FaultRec where
  valid : Bool
  seq : Nat
  bytes : List Byte
deriving DecidableEq, Repr, Inhabited

/-- Whether a converter start is waiting or running; own marks a waiting start of a CV_SET or a restart, which STARTMODE does
not govern (R280). -/
inductive CvStart where
  | none
  | waiting (own : Bool)
  | running (since : Nat)
deriving DecidableEq, Repr, Inhabited

/-- A slot of the converter learned values (R260, Table 1.4): state, baseline and active time of each Phase; valid says that its
CRC holds. -/
structure CvSlot where
  valid : Bool
  seq : Nat
  ph : Vector (PhState × ℚ × Nat) 16
deriving DecidableEq, Repr, Inhabited

/-- The converter (07, 08). law is the mode whose law the CE runs; it leads mode by the Frame of R254 and R329. -/
structure Conv where
  mode : CvMode
  law : CvMode
  modeNext : Option CvMode
  ph : Vector Phase 16
  configured : Bool
  demand : ℚ
  d1 : ℚ
  d2 : ℚ
  integ : ℚ
  e1 : ℚ
  e2 : ℚ
  x1 : ℚ
  x2 : ℚ
  vfb : ℚ
  err : ℚ
  dff : ℚ
  vffen : Bool
  gen : Gen
  iff' : ℚ
  profiles : List Profile
  /-- Channels whose profile was admitted in this Frame. -/
  posted : List ProfRec
  atCap : Bool
  capFrames : Nat
  shed : Option (Fin 16 × Nat)
  dwell : Nat
  holdEnd : Option Nat
  /-- pulse skipping as decided, and as applied from the last tick on (R275). -/
  skip : Bool
  skipAp : Bool
  skipRun : Nat
  rot : Nat
  rotNs : ℚ
  /-- ACTIVE count wanted at the next tick; consecutive Frames at or above IADD; a load step found in this Frame. -/
  addNext : Option Nat
  addRun : Nat
  stepNow : Bool
  start : CvStart
  startLeft : Nat
  enableNs : ℚ
  vinRun : Nat
  regRun : Nat
  diodeNs : ℚ
  lastCause : Nat
  /-- fault whose automatic restart waits on its condition, with the run of Frames it has held. -/
  autoFault : Option Nat
  autoRun : Nat
  countedAt : Option Nat
  counted : List Nat
  lockout : Bool
  /-- hold of PHASE_STUCK or NO_PHASE. -/
  stop : Option Nat
  /-- NO_PHASE holds the converter until configuration; the mode in which the automatic restart's fault was raised was BOOST. -/
  noPhase : Bool
  autoBoost : Bool
  /-- fault with response IDLE detected in this Frame. -/
  faultNow : Option Nat
  retireNext : List (Fin 16)
  ovRun : Nat
  uvRun : Nat
  outOvRun : Nat
  outUvRun : Nat
  invZone : Nat
  inv12 : Nat
  /-- the two last-fault slots of each cause (R287). -/
  rec0 : Vector FaultRec 12
  rec1 : Vector FaultRec 12
  /-- the two slots of learned values, and the Frame of their last write in this start. -/
  slot0 : CvSlot
  slot1 : CvSlot
  storedAt : Nat
  clamped : Bool
  nClamp : Nat
  exercise : Option (Fin 16)
  exerciseFrom : Nat
  exercised : BitVec 16
  /-- Dormant entry: Frame from which the next shed may be decided (R277). -/
  dorm : Option Nat
  sumPcv : ℚ
  pcv : ℚ
deriving DecidableEq, Repr, Inhabited

/-- AUX rail states (R289). -/
inductive AuxState where
  | off
  | start
  | on
  | cc
  | fault
deriving DecidableEq, Repr, Inhabited

/-- One AUX rail (R288-R291, R303). -/
structure Aux where
  st : AuxState
  target : Nat
  icc : Option ℚ
  gen : Gen
  integV : ℚ
  integC : ℚ
  selC : Bool
  duty : ℚ
  /-- duty and EN as applied at the last tick. -/
  dutyAp : ℚ
  enAp : Bool
  ovRun : Nat
  uvRun : Nat
  inRun : Nat
  regRun : Nat
  /-- a fault detected in this Frame, that the policy engine is told of (R290). -/
  faultNow : Bool
  countedAt : Option Nat
  counted : List Nat
  stopped : Bool
  pdOwned : Bool
  pNow : ℚ
  /-- the rail's switching periods of the last Frame, the current words whose result comes after the next tick, and whether IPKA
ended the on-time of the newest period that has ended or been ended (R290). -/
  sw : List SwPeriod
  late : List (ℚ × ℚ)
  limNow : Bool
  sumP : ℚ
  pMean : ℚ
deriving DecidableEq, Repr, Inhabited

/-- Test injection (R316-R324). -/
structure Inject where
  /-- 0 idle, 1 running, 2 complete, 3 aborted. -/
  status : Nat
  armed : Bool
  f : Vector Nat 12
  startAt : Nat
  k : Nat
  phase : Word
  /-- the value in force belongs to the present sweep point. -/
  fed : Bool
  settleLeft : Nat
  measLeft : Nat
  /-- the correlations of A and B with the cosine and with minus the sine (R320). -/
  corA : ℚ × ℚ
  corB : ℚ × ℚ
  lfsr : BitVec 15
  chipLeft : Nat
  bitsLeft : Nat
  value : ℚ
  sigA : ℚ
  sigB : ℚ
  restarted : Bool
  invalid : Bool
  clamped : Bool
  /-- the injection ends at the next tick, aborted or complete. -/
  ending : Option Bool
  recs : List (List Byte)
  owner : Option (Fin 16)
  res : Nat
deriving DecidableEq, Repr, Inhabited

/-- Hold-up states (R333). -/
inductive HuState where
  | normal
  | holdup
  | ret
  | spent
deriving DecidableEq, Repr, Inhabited

/-- A Channel shed by capping or hold-up and waiting to be restored (R352). -/
structure RestEnt where
  ch : Fin 64
  queued : Bool
deriving DecidableEq, Repr, Inhabited

/-- Zone functions (09). -/
structure Zone where
  hu : HuState
  /-- cause code of the last transition (Table 9.4), and the transition that takes effect at the next tick. -/
  huCause : Nat
  huNext : Option (HuState × Nat)
  iso : Bool
  isoNext : Option Bool
  /-- the first latch of V48_IN of this start is still to come (R327). -/
  first : Bool
  corn : Bool
  cornNext : Option Bool
  cornAt : Nat
  /-- Cornice sequence of the last message, a message due, Periods since the last one. -/
  cornSeq : Nat
  cornMsg : Bool
  cornCount : Nat
  /-- Frames for which V48_IN has held VRET. -/
  retRun : Nat
  /-- RETURN: its Frame, the step of Table 9.5 in progress, whether it came from SPENT, the run of its condition. -/
  retAt : Nat
  retStep : Nat
  retSpent : Bool
  retOk : Nat
  isoClosedAt : Nat
  vbRun : Nat
  /-- HU_TEST: duration asked for in s, and the Frame at which it ends. -/
  testPending : Option Nat
  testEnd : Option Nat
  shortPosted : Bool
  order : List Word
  restore : List RestEnt
  capRun : Nat
  /-- whether CAP_OVER was posted, and whether it is due at the tick of Frame 125. -/
  capOver : Bool
  capNote : Bool
  pz : ℚ
  pzt : ℚ
  hcover : Nat
  hardHold : Bool
  nHu : Nat
  nCap : Nat
  nHard : Nat
  pbatt : ℚ
  /-- times in s, none where unlimited. -/
  ta : Option ℚ
  tz : Option ℚ
  /-- sheds and restores decided in this Period for the tick of Frame 125. -/
  shedAt125 : List (Fin 64 × Cause)
  restoreAt125 : List (Fin 64)
  payload : List Byte
  /-- stagger budget in mA s, and the credit of ramps that end at the next tick. -/
  budget : ℚ
  budgetLate : ℚ
deriving DecidableEq, Repr, Inhabited

/-- A battery learned-value slot (Table 10.5). -/
structure BatSlot where
  valid : Bool
  seq : Nat
  chem : Nat
  unconf : Bool
  relearn : Bool
  capLearned : Bool
  resLearned : Bool
  uncertain : Bool
  corr : Bool
  soc : Nat
  u : Nat
  q : Nat
  uq : Nat
  rl : Nat
  rtemp : Nat
  thruD : Nat
  thruC : Nat
  conf : Nat
  span : Nat
  tAnchor : Nat
deriving DecidableEq, Repr, Inhabited

/-- Battery estimator (10): charge figures in A s, SoC and u in percent, resistance in ohm, capacitance in F. -/
structure Bat where
  /-- whether the SoC of this start is set; whether a valid latch of each input has come. -/
  started : Bool
  seenV : Bool
  seenI : Bool
  chem : Nat
  soc : ℚ
  u : ℚ
  q : ℚ
  uq : ℚ
  rl : ℚ
  rtemp : Option ℚ
  unconf : Bool
  relearn : Bool
  capLearned : Bool
  resLearned : Bool
  uncertain : Bool
  corr : Bool
  pubSoc : ℚ
  pubEuse : ℚ
  /-- an EUSE_LO has been published since the start. -/
  pubAny : Bool
  /-- the quantities of Table 10.6 as the last Period left them (R379). -/
  read : List Byte
  thruD : ℚ
  thruC : ℚ
  conf : Nat
  /-- SoC covered since the swap: lowest and highest, and the span carried over a start. -/
  spanLo : ℚ
  spanHi : ℚ
  span : ℚ
  anchored : Bool
  /-- Periods since the last anchor and since the last periodic write. -/
  tAnchor : Nat
  periods : Nat
  /-- Frames for which the rest and the full-charge conditions have held, and whether their anchor was taken. -/
  restRun : Nat
  fullRun : Nat
  restDone : Bool
  fullDone : Bool
  lastAnchor : Option ℚ
  charge : ℚ
  chargeDirty : Bool
  /-- sums over the Period: IBATT, VBATT, VBATT times IBATT, latches counted of IBATT and of VBATT,
  uncertainty charge. -/
  sumI : ℚ
  sumV : ℚ
  sumVI : ℚ
  nLatch : Nat
  nV : Nat
  badQ : ℚ
  meanI : ℚ
  meanV : ℚ
  /-- the last latches (IBATT, VBATT), newest first; accepted resistance values, newest first, and their count. -/
  hist : List (ℚ × ℚ)
  resVals : List ℚ
  resNew : Nat
  openRun : Nat
  openCkt : Bool
  swapPend : Bool
  /-- EDLC learning window: Periods, charge, start voltage, learned values. -/
  capWin : Nat
  capQ : ℚ
  capV0 : ℚ
  capN : Nat
  slot0 : BatSlot
  slot1 : BatSlot
  /-- the newer slot that failed its CRC at this start (R375). -/
  torn : Option Bool
deriving DecidableEq, Repr, Inhabited

/-- Queue states (Table 11.8). -/
inductive QState where
  | disabled
  | run
  | stopped
deriving DecidableEq, Repr, Inhabited

/-- Paths of a Queue (R382). -/
inductive Path where
  | network
  | spi
  | tw1
  | none
deriving DecidableEq, Repr, Inhabited

/-- An event entry before it is written (Table 11.11), without ESEQ and the phase. -/
structure Event where
  code : Nat
  source : Nat
  cls : Nat
  frame : Nat
  rep : Nat
  payload : List Byte
deriving DecidableEq, Repr, Inhabited

/-- One Queue (11). -/
structure Queue where
  isEvent : Bool
  cls : Cls
  path : Path
  owner : Option (Fin 16)
  dlog : Nat
  dest : Nat
  st : QState
  disabling : Bool
  ie : Bool
  sqHead : Nat
  sqTail : Nat
  cqHead : Nat
  cqTail : Nat
  phase : Bool
  cseq : Nat
  eseq : Nat
  lost : Nat
  coal : List Event
  /-- what is kept of each untaken descriptor, oldest first. -/
  vis : List Vis
  /-- commands taken and waiting behind a FENCE. -/
  waiting : List Taken
  nTaken : Nat
  discarded : Nat
  /-- Frame of the last FENCE completion in this Queue (R418). -/
  fenceAt : Option Nat
  /-- descriptors written by the path engine so far, and the last ones (16 on the network path, 4 on TW1). -/
  nIn : Nat
  recent : List Recent
  /-- Frames of the completion entries of commands that a FENCE waits for: descriptor number, Frame (R416). -/
  doneAt : List (Nat × Nat)
  /-- areas of the data window in use: descriptor number, offset and length in 16-byte units (R462). -/
  areas : List (Nat × Nat × Nat)
deriving DecidableEq, Repr, Inhabited

/-- An entry of the violation log (Table 11.14). -/
structure Vio where
  frame : Nat
  kind : Nat
  path : Nat
  owner : Nat
  queue : Nat
  addr : Word
  iceSeq : Nat
deriving DecidableEq, Repr, Inhabited

/-- An Icecore record (Table 16.1), the CRC being a function of the rest. -/
structure IceRec where
  seq : Nat
  rep : Nat
  code : Nat
  source : Nat
  flags : Nat
  payload : List Byte
deriving DecidableEq, Repr, Inhabited

/-- Icecore (16). -/
structure Ice where
  next : Nat
  issued : Nat
  /-- the two reservation words of the Firn device records (R523). -/
  rsv0 : BitVec 64
  rsv1 : BitVec 64
  buf : List IceRec
  ring : List IceRec
  /-- repeats of the newest ring record that wait for the next flush (R527). -/
  foldPend : Nat
  lost : Nat
  lostPend : Nat
  flushing : Bool
  flushDue : Bool
  flushCmds : List Taken
  clearing : Option (Taken × Nat)
  clearedHead : Option Nat
  torn : List Nat
  /-- events the keep-alive domain holds while the logic die is off (R526), and the overflow count. -/
  kept : List (Nat × Nat × List Byte)
  keptLost : Nat
deriving DecidableEq, Repr, Inhabited

/-- A node-table entry (R455). -/
structure Node where
  node : Nat
  link : Link
  encap : Encap
  mac : BitVec 48
deriving DecidableEq, Repr, Inhabited

/-- What surrounds a message on the wire: encapsulation, destination and source MAC, PCP and VLAN ID, EtherType, and over UDP the
source address, hop limit and destination port (Table 13.3, R458, R467). -/
structure TxHdr where
  encap : Encap
  mac : BitVec 48
  own : BitVec 48
  pcp : Nat
  vlan : Nat
  etherType : Half
  src6 : BitVec 128
  hop : Nat
  dport : Half
deriving DecidableEq, Repr, Inhabited

/-- A neighbour advertisement or solicitation that the block sends (R458): its tag, the address that it names, the destination
address and the own MAC. -/
structure NdFrame where
  link : Link
  solicit : Bool
  target : BitVec 128
  dst : BitVec 128
  own : BitVec 48
  pcp : Nat
  vlan : Nat
  hop : Nat
deriving DecidableEq, Repr, Inhabited

/-- A receive secure channel of a link, with the last packet number that it has accepted under the present SAK (Table 13.2). -/
structure RxSc where
  link : Link
  sci : BitVec 64
  last : Nat
deriving DecidableEq, Repr, Inhabited

/-- A message waiting for or handed to a MAC. cap marks CAPTURE frames (PCP 1). -/
structure TxMsg where
  link : Link
  lane : Cls
  cap : Bool
  dest : Nat
  /-- ring entry that is freed when the message is handed over (Queue), and the descriptor's number for its area. -/
  frees : Option (Fin 32 × Option Nat)
  /-- an EVENT of a Class A source. -/
  evA : Bool
  /-- an ECHO_REP, which keeps the request's MSEQ (R460). -/
  keepSeq : Bool
  /-- a COMPLETION whose LAT is written at the hand-over: the Frame at which its command became visible, and its TAG where the bound of
  R409 is judged there (R408, R464). -/
  lat : Option (Nat × Option Word)
  bytes : List Byte
  /-- set at the hand-over. -/
  hdr : Option TxHdr
deriving DecidableEq, Repr, Inhabited

/-- Network links (13). -/
structure Net where
  up1 : Bool
  upS : Bool
  mka1 : Nat
  mkaS : Nat
  sak1 : Nat
  sakS : Nat
  /-- transmit packet numbers under the present SAKs, and whether a new SAK has been requested (Table 13.2). -/
  pn1 : Nat
  pnS : Nat
  rekey1 : Bool
  rekeyS : Bool
  nodes : List Node
  mseq : Word
  drops : Vector Nat 16
  hingeDrops : Nat
  txA : List TxMsg
  txB : List TxMsg
  txC : List TxMsg
  /-- messages handed to the MAC, oldest first: the block's output record. -/
  sent : List TxMsg
  /-- neighbour discovery frames sent, oldest first. -/
  nd : List NdFrame
  rxSc : List RxSc
  /-- streams sent over 1000BASE-T1: stream, destination node, next word, counted as Stream.gone does. -/
  capNet : List (Fin 16 × Nat × Nat)
deriving DecidableEq, Repr, Inhabited

/-- Counters of a two-wire block (Table 14.5). -/
structure TwCnt where
  illegalStart : Nat
  busError : Nat
  arbLost : Nat
  timeout : Nat
  pecErr : Nat
  format : Nat
  dup : Nat
  nackWake : Nat
  hnFail : Nat
  lastArb : Half
deriving DecidableEq, Repr, Inhabited

/-- An entry of the TW1 response list: part (0 Class A completions, 1 events, 2 B, 3 C), Queue, the entry's bytes, and,
where it is an entry of a ring that its reading frees, the number of the descriptor whose area goes with it. -/
structure TwEnt where
  part : Nat
  kind : Nat
  q : Fin 32
  bytes : List Byte
  frees : Option (Option Nat)
deriving DecidableEq, Repr, Inhabited

/-- Two-wire blocks (14). -/
structure Tw where
  c0 : TwCnt
  c1 : TwCnt
  resp : List TwEnt
  notify : Bool
  losses : Nat
  lastNotify : Option Nat
  /-- the bytes the block returned last, none for a NACK: the block's output. -/
  out : Option (List Byte)
deriving DecidableEq, Repr, Inhabited

/-- Hinge states (Table 15.3). -/
inductive HingeState where
  | solo
  | active
  | standby
  | handing
  | taking
  | out
deriving DecidableEq, Repr, Inhabited

/-- What a STANDBY keeps of the mirror beside its own fields (Table 15.4): the sequence of the next record (none: any),
mirror complete, whether its nodes have been taken from a resync, the converter of the ACTIVE as mode, target, p, v and a,
the Period means, the Tumbler digest. -/
structure Mirror where
  seq : Option Word
  complete : Bool
  nodesOk : Bool
  /-- the last mirrored wire-model nodes, before the first complete resync of the start (R504). -/
  nodes : Option (Vector Int 64 × Vector Int 64)
  conv : Option (CvMode × Nat × ℚ × ℚ × ℚ)
  meanI : Vector ℚ 64
  meanV : Vector ℚ 64
  g4 : Vector ℚ 5
  digest : Option Word
deriving DecidableEq, Repr, Inhabited

/-- Hinge pair (15). -/
structure Hinge where
  st : HingeState
  /-- HEN, ROLE and ARBSRC as they were at the start (R516). -/
  hen : Bool
  secondary : Bool
  euvos : Bool
  permitted : Bool
  gntLevel : Bool
  /-- the chip drives the outputs of its pair; its drive die holds them in reset hold (R499, R512). -/
  driving : Bool
  resetHold : Bool
  /-- HANDING: an ACK has come, so the outputs are released at the next tick (R508). -/
  releaseNext : Bool
  /-- last SWSEQ offered or accepted, last one accepted, whether TAKING or HANDING is of a swap. -/
  swSeq : Word
  accSeq : Word
  swap : Bool
  /-- cause code of a TAKING; whether it is a cold start; its outputs are to start at this tick. -/
  takeCause : Nat
  cold : Bool
  acking : Bool
  epoch : Word
  linkUp : Bool
  missRun : Nat
  gotBeat : Bool
  /-- partner pulses of the current Frame (400 ns, hold), Frames without either, one seen since step 6. -/
  pulseNow : Bool
  holdNow : Bool
  noPulseRun : Nat
  pulseEver : Bool
  /-- the partner as its last link frame shows it, and whether it has been seen driving since this start. -/
  partnerSeen : Bool
  partnerDrove : Bool
  partner : BitVec 3
  partnerFlags : Byte
  partnerLost : Bool
  conflict : Bool
  revert : Bool
  resync : Bool
  cleanRun : Nat
  failRun : Nat
  failMask : Nat
  nSwaps : Nat
  nAborts : Nat
  nTakeovers : Nat
  nMissed : Nat
  nCrc : Nat
  crcPeriod : Nat
  mirror : Mirror
  /-- records for the next link frame, sequence of the next record, on-change records as last sent, last frame sent. -/
  outRecs : List LinkRec
  mirSeq : Word
  sentRecs : List LinkRec
  sent : Option LinkFrame
  /-- a ramp, a trip or a Class A command in this Period; the last Period was a quiet point. -/
  noisy : Bool
  quiet : Bool
  step17 : Option Nat
  /-- Frame by which the former handing chip's converter stops; mode for which Table 9.3 counts a converter that starts
  (R510). -/
  handEnd : Option Nat
  cvAs : Option CvMode
  badPeriod : Bool
  /-- trips and arc decisions of this chip that were not acted on, in this Period and in the last one. -/
  decisions : List (Fin 64)
  decPrev : List (Fin 64)
deriving DecidableEq, Repr, Inhabited

/-- Zone-wide Tumbler limits (Table 17.1). -/
structure TmbZone where
  buckLo : Nat
  buckHi : Nat
  boostLo : Nat
  boostHi : Nat
  slewCap : Nat
  nphMax : Nat
  hCap : Nat
deriving DecidableEq, Repr, Inhabited

/-- Tumbler (17): lock, boot values staged, counters. -/
structure Tmb where
  locked : Bool
  bootTab : Bool
  zone : TmbZone
  boot : List (TmbField × Nat × Bool × Nat)
  blocks : Nat
  clamps : Nat
  digest : Word
deriving DecidableEq, Repr, Inhabited

/-- Keyring states (Table 17.11). -/
inductive KrgState where
  | off
  | boot
  | run
  | dormant
  | safe
deriving DecidableEq, Repr, Inhabited

/-- Keyring (17). -/
structure Krg where
  st : KrgState
  count : Nat
  pseq : Word
  reg : BitVec 16
  keys : Vector Half 16
  given : BitVec 16
  dup : BitVec 16
  bad : BitVec 16
  lastDup : BitVec 16
  fMiss : BitVec 16
  fBad : BitVec 16
  regLock : Bool
  clkMain : Bool
  clkFail : Bool
  rstCnt : Nat
  goodCounts : Nat
  lastKind : Nat
  wakeS : Nat
  wakeMask : BitVec 3
  wakeLeft : Nat
deriving DecidableEq, Repr, Inhabited

/-- Housekeeping converter (R121-R123): the last rounds, the published values in 1/8 degC and mV. -/
structure Hk where
  rounds : List HkIn
  ts : Vector Int 24
  tsRaw : Vector (BitVec 12) 24
  /-- a Period boundary of this start has published (R122). -/
  seen : Bool
  ntc : Vector Int 16
  volts : Vector Int 16
  checkRun : Nat
  checkBad : Bool
  hotRun : Vector Nat 24
  lastCheck : Nat
deriving DecidableEq, Repr, Inhabited

/-- A temperature sensor's judgement (R561): broken kind (none valid; 0 open, 1 short, 2 stuck, 3 disagreement,
4 self-check), raw code and published value of the
last 1,000 Periods, newest first. -/
structure TsSt where
  broken : Option Nat
  hist : List (BitVec 12 × Int)
deriving DecidableEq, Repr, Inhabited

/-- Thermal (18). -/
structure Thermal where
  level : Nat
  tj : Int
  tjPair : Nat
  pairs : Vector Int 12
  ts : Vector TsSt 24
  bothRun : Vector Nat 12
  checkRun : Nat
  coolRun : Nat
  throttleN : Nat
  ntcBad : Vector (Option Nat) 16
  ntcOkRun : Vector Nat 16
  derated : Vector Bool 4
  /-- NTCs that hold their Bank derated. -/
  derBy : Vector Bool 16
  restore : List (Fin 64)
  restoreN : Nat
  shedNext : Bool
  derateNext : Vector Bool 4
  nShed : Nat
  latch : Bool
  latchCode : Nat
  latchSrc : Nat
  latchVal : Int
  latchAt : Nat
deriving DecidableEq, Repr, Inhabited

/-- PD port states in the row order of Table 19.3. -/
inductive PdState where
  | disabled
  | unattached
  | attached
  | typecOnly
  | contract
  | transition
  | moist
  | suspended
  | fault
deriving DecidableEq, Repr, Inhabited

/-- USB PD messages that a port sends (R575, R580, R581, R583). -/
inductive PdOut where
  | sourceCap
  | sourceCapExtended
  | status
  | ppsStatus
  | accept
  | reject
  | wait
  | psRdy
  | hardReset
  | notSupported
  | discoverIdentity
deriving DecidableEq, Repr, Inhabited

/-- An advertised object (R579): PPS or fixed, its voltage or the ends of its range in 20 mV, its current in 10 mA. -/
structure Pdo where
  pps : Bool
  low : Nat
  volt : Nat
  cur : Nat
deriving DecidableEq, Repr, Inhabited

/-- Lifetime counters of a port (Table 19.5, R590): attaches, contracts, Hard Resets, MOIST entries, energy in J. -/
structure PdLife where
  attach : Nat
  contract : Nat
  hard : Nat
  moist : Nat
  energy : ℚ
deriving DecidableEq, Repr, Inhabited

/-- One USB PD port (19). -/
structure PdPort where
  st : PdState
  cable5 : Bool
  vconn : Bool
  corrosion : Bool
  cc2 : Bool
  /-- contract: object position (0 none), PPS, voltage in 20 mV, current in 10 mA. -/
  obj : Nat
  pps : Bool
  volt : Nat
  cur : Nat
  /-- accepted Request that has not reached PS_RDY, and whether tSrcTransition still runs. -/
  nextObj : Nat
  nextPps : Bool
  nextVolt : Nat
  nextCur : Nat
  srcWait : Bool
  rdGone : Bool
  /-- what was advertised last; Waits in a row; the power limit they brought, in W. -/
  pdos : List Pdo
  waits : Nat
  waitLimit : Option ℚ
  imp : Vector Nat 4
  life : PdLife
  firn : PdLife
  /-- consecutive wet tests, dry tests in MOIST, Frame of the first wet test while attached, a test by command. -/
  wetRun : Nat
  dryRun : Nat
  wetAt : Option Nat
  testNow : Bool
  regRun : Nat
  /-- whole Periods in CC, and whether the rail has left CC in the present one (R581). -/
  ccPeriods : Nat
  ccBroke : Bool
  discharge : Bool
  /-- Table 19.4: hold-up has reached the port; the row that applies (0 none, 1 5 V at 3.0 A, 2 5 V at 1.5 A,
  3 suspended). -/
  huHit : Bool
  zoneCond : Nat
  nMsgs : Nat
  lastMsg : Option PdOut
deriving DecidableEq, Repr, Inhabited

/-- Slot states (Table 20.4). -/
inductive SlotState where
  | empty
  | receiving
  | valid
  | pending
  | trial
  | active
  | failed
deriving DecidableEq, Repr, Inhabited

/-- An update slot and its flash content (R594, R596). -/
structure Slot where
  st : SlotState
  reason : Nat
  image : List Byte
deriving DecidableEq, Repr, Inhabited

/-- One of the two records of the update state in Firn (R596); valid says that its CRC holds. -/
structure UpdRec where
  valid : Bool
  seq : Nat
  stA : SlotState
  reasonA : Nat
  stB : SlotState
  reasonB : Nat
deriving DecidableEq, Repr, Inhabited

/-- A settings copy in Firn (R607, Table 1.4); valid says that its CRC-32C holds. -/
structure SetCopy where
  valid : Bool
  seq : Nat
  fmt : Nat
  fields : List (FKey × Nat)
deriving DecidableEq, Repr, Inhabited

/-- Boot and update (20): the booted slot (true for B), RECOVERY, the size that UPD_BEGIN gave, a flash write in progress,
the slot and the command of a verification, Periods of a trial since step 17, the anti-rollback shadow, the two settings
copies and whether a trial keeps the older one, events for step 6, and the bindings of Q04 and Q29 that Firn holds while
RECOVERY uses the default ones. -/
structure Upd where
  slotA : Slot
  slotB : Slot
  booted : Bool
  recovery : Bool
  size : Nat
  flashBusy : Bool
  verifying : Option (Bool × Taken)
  trialPeriods : Nat
  shadow : Nat
  rec0 : UpdRec
  rec1 : UpdRec
  set0 : SetCopy
  set1 : SetCopy
  kept : Bool
  /-- held back by a power-fail warning: what this start writes to the settings copies, what a confirmation writes (R76). -/
  setLate : Bool
  confirmLate : Bool
  postAtStart : List Event
  savedQ : Option (Queue × Queue)
deriving DecidableEq, Repr, Inhabited

/-- OTP fields (Tables 13, 14.2, 17.10, 20.1, 20.6). none or 0 is unprogrammed. -/
structure Otp where
  nodeAddr : Option Nat
  t1Master : Option Bool
  plcaId : Option Nat
  plcaCount : Option Nat
  vlan : Option Nat
  mac1 : Option (BitVec 48)
  macS : Option (BitVec 48)
  cak1 : Option (List Byte)
  cakS : Option (List Byte)
  tw0Addr : Option Nat
  tw1Addr : Option Nat
  tw0Smbus : Option Bool
  tw1Smbus : Option Bool
  tw1Clk : Option Nat
  hnEn : Option Bool
  hnAddr : Option Nat
  kper : Option Nat
  kwin : Option Nat
  kclk : Option Bool
  kstart : Option Bool
  classA : Option (BitVec 64)
  tmb : List (TmbField × Nat × Bool × Nat)
  kcred : Option (List Byte)
  pkclr : Option (List Byte)
  pkh1 : Option (List Byte)
  rev0 : Bool
  rev1 : Bool
  svnc : Nat
deriving DecidableEq, Repr, Inhabited

/-- SPI host port (13): STS of the previous frame, the words MISO carried in the last frame. -/
structure Spi where
  sts : Word
  miso : List Word
deriving DecidableEq, Repr, Inhabited

/-- A capture stream (R124-R130): st 0 IDLE, 1 ARMED, 2 TRIGGERED, 3 DONE, 4 FROZEN; words with a mark for a double-bit
error. -/
structure Stream where
  st : Nat
  configured : Bool
  src : Nat
  item : Nat
  group : Nat
  pre : Nat
  pages : Nat
  trig : Nat
  dir : Nat
  freeze : Bool
  trigParam : Word
  words : List (Nat × Bool)
  /-- words written since the start that are no longer held: the number of the oldest word held. -/
  gone : Nat
  postLeft : Nat
  trigIdx : Nat
  lastLvl : Option ℚ
deriving DecidableEq, Repr, Inhabited

/-- A wire-model snapshot (Table 5.6). -/
structure Snap where
  valid : Bool
  seq : Nat
  tc : Vector Int 64
  ti : Vector Int 64
  st : Vector ChState 64
  hot : Vector Bool 64
deriving DecidableEq, Repr, Inhabited

/-- Power, reset and start (02). -/
structure Power where
  mode : PowerMode
  logic : LogicDie
  step : Nat
  pfw : Bool
  resetNLow : Bool
  cause : Nat
  starts : Nat
  wakeSrc : Nat
  wakeLatch : Option Nat
  dormStep : Nat
  resetDue : Option Nat
  admOpen : Bool
  /-- Frame at which the present RUN began. -/
  runAt : Nat
  refState : Vector ChState 64
  headA : List (Fin 64)
  /-- FAULT_N as the keep-alive domain holds it from a loss of the logic die to the next step 6 (Table 21.10). -/
  faultHeld : Bool
  /-- the battery values that a power-fail warning writes after its flush are still to be written (R76). -/
  batDue : Bool
deriving DecidableEq, Repr, Inhabited

/-- Clocks (R52-R57). -/
structure Clk where
  rc : Bool
  relocking : Bool
  rcFailed : Bool
  suspended : Nat
deriving DecidableEq, Repr, Inhabited

/-- What S5 counts for one Channel in a Frame (R171, R231): current and output in A and V, the drop, whether TON runs,
whether the Frame can belong to a valid Creep Period, whether the set was ON above 10 % of ILIM. -/
structure S5Chan where
  i : ℚ
  v : ℚ
  drop : ℚ
  ton : Bool
  ok : Bool
  above : Bool
deriving DecidableEq, Repr, Inhabited

/-- The counting work of one Frame. -/
structure S5Work where
  frame : Nat
  ch : Vector S5Chan 64
deriving DecidableEq, Repr, Inhabited

/-- Frame bookkeeping (R40-R51). -/
structure Frm where
  count : Nat
  running : Bool
  freeze : Bool
  cleanRun : Nat
  overRun : Nat
  overNow : Bool
  s5Carry : Nat
  ceHalted : Bool
  ceFaultAt : Option Nat
  page : Bool
  maxS2 : Nat
  maxS3 : Nat
  cycS2 : Nat
  cycS3 : Nat
  /-- drive-die time in Frames, kept through logic-die resets. -/
  drive : Nat
deriving DecidableEq, Repr, Inhabited

/-- Charge pumps (R62, R63, R134, R136): Bank pumps, spares (west, east) and the Bank each spare serves. -/
structure Pumps where
  bank : Vector PumpSt 4
  spare : Vector PumpSt 2
  spareFor : Vector (Option (Fin 4)) 2
  mismatch : Vector Bool 4
  domain48 : Vector Bool 4
  supplyRun : Vector Nat 4
  supplyWarned : Vector Bool 4
  /-- Banks left without a pump, whose Channels go OFF at the next tick (R136). -/
  failNow : Vector Bool 4
  /-- Frame at which the pump that the start waits for was started (R62). -/
  startAt : Nat
deriving DecidableEq, Repr, Inhabited

/-- Memory error counters and scrub counts (R22, R23). -/
structure Mem where
  corrected : Vector Nat 9
  sramScrubs : Nat
  firnScrubs : Nat
  /-- spare Firn rows brought into service (R39). -/
  firnSpares : Nat
  lastBusError : Option Word
  /-- drive-die times of the last scrubs, and the Frames of operation since the last of Firn that earlier supplies of the
drive die add (R22). -/
  sramAt : Nat
  firnAt : Nat
  firnFor : Nat
  /-- the initiator whose transaction was aborted last (Table 1.5). -/
  aborted : Option Initiator
deriving DecidableEq, Repr, Inhabited

/-- The machine. -/
structure State where
  pw : Power
  clk : Clk
  fr : Frm
  pump : Pumps
  settings : List (FKey × Nat)
  staged : List Staged
  ch : Vector Chan 64
  adm : List AdmEntry
  grp : Vector Group 5
  g4 : Vector Code24 32
  g4Ok : Vector Bool 32
  hk : Hk
  cv : Conv
  aux : Vector Aux 4
  inj : Inject
  zone : Zone
  bat : Bat
  qs : Vector Queue 32
  qmem : List Host.Cell
  winBase : Nat
  outs : List Out
  owners : List (Nat × Option (Fin 16))
  resOwner : List (Nat × Fin 16)
  vio : List Vio
  vioOver : Nat
  hpt : BitVec 9
  /-- Frame in which each bit of HPT_FAULT was last set (R638). -/
  hptAt : Vector Nat 9
  nBeyond : Nat
  nLatMiss : Nat
  evDropped : Nat
  ccount : Nat
  ccountFirn : Nat
  ice : Ice
  net : Net
  tw : Tw
  hinge : Hinge
  tmb : Tmb
  krg : Krg
  th : Thermal
  pd : Vector PdPort 2
  upd : Upd
  otp : Otp
  spi : Spi
  cap : Vector Stream 16
  snap0 : Snap
  snap1 : Snap
  snapSrc : Option Nat
  wmTrip : Bool
  wmRecDone : Bool
  acoh : Nat
  cvMarks : List Nat
  /-- the two mailbox pages of the CE; Frm.page is the one in use (R17). -/
  mail : Vector CePage 2
  mem : Mem
  /-- words for the next tick that the drive die discarded (R11). -/
  linkLost : List DieWord
  /-- counting work of S5 that goes on in the S5 of the next Frame (R48). -/
  s5Held : List S5Work
  /-- commands that the Supervisor has taken and not executed yet: of the slot or batch that runs, and beyond 64 of a batch (R403). -/
  rest : List Taken
  /-- the last Frame in which the conditions of R409 did not hold. -/
  promLost : Option Nat
  /-- the model's own counter of free values (log 6). -/
  free : Nat
  pending : List Instr
deriving DecidableEq, Repr

/-- The default Queue map (Table 11.1): number, kind, Class, path, owner, log2 of the depth less 3. -/
def defaultQueue (n : Nat) : Queue :=
  let q (ev : Bool) (c : Cls) (p : Path) (o : Option (Fin 16)) (d : Nat) : Queue :=
    { (default : Queue) with isEvent := ev, cls := c, path := p, owner := o, dlog := d }
  if n < 4 then q false .a .network (some 0) 1
  else if n < 7 then q false .a .spi (some 0) 1
  else if n == 7 then q false .a .tw1 (some 0) 0
  else if n < 15 then q false .b .network (some 0) 3
  else if n < 17 then q false .b .spi (some 0) 3
  else if n == 17 then q false .b .tw1 (some 0) 0
  else if n < 25 then q false .c .network (some 0) 3
  else if n < 27 then q false .c .spi (some 0) 3
  else if n == 27 then q false .c .tw1 (some 0) 0
  else if n == 28 then q true .a .network (some 0) 5
  else if n == 29 then q true .a .spi (some 0) 5
  else if n == 30 then q true .a .tw1 (some 0) 3
  else q true .a .none none 5

/-- A sense Group with the defaults of group 0x05: every input in use, gain code 0, the factory filter word, no injection
(Tables 3.1, 3.8, 3.12). -/
def Group.fresh : Group :=
  { (default : Group) with
    mask := 0xFFFFFFFF, filt := Vector.replicate 32 0x13, injPeriod := 1
    flt := Vector.replicate 32 { (default : Filt) with int := [0], comb := [0] } }

/-- The machine before VIN_AUX rises (R58 OFF, Table 2.6): unpowered, nothing stored, Queues bound by default. Every counter,
code and physical value the spec gives no value here is zero, every optional item absent, every list empty (log 2). -/
def State.reset : State where
  pw := default
  clk := default
  fr := default
  pump := default
  settings := []
  staged := []
  ch := default
  adm := []
  grp := Vector.replicate 5 Group.fresh
  g4 := default
  g4Ok := default
  hk := default
  cv := default
  aux := default
  inj := { (default : Inject) with f := #v[0, 0, 0, 0, 0, 0, 31, 8, 16, 0, 0, 0] }
  zone := default
  bat := default
  qs := Vector.ofFn fun i => defaultQueue i.val
  qmem := []
  winBase := 0
  outs := []
  owners := []
  resOwner := []
  vio := []
  vioOver := 0
  hpt := default
  hptAt := default
  nBeyond := 0
  nLatMiss := 0
  evDropped := 0
  ccount := 0
  ccountFirn := 0
  ice := default
  net := default
  tw := default
  hinge := default
  tmb := default
  krg := default
  th := default
  pd := default
  upd := default
  otp := default
  spi := default
  cap := default
  snap0 := default
  snap1 := default
  snapSrc := none
  wmTrip := false
  wmRecDone := false
  acoh := 4
  cvMarks := []
  mail := default
  mem := default
  linkLost := []
  s5Held := []
  rest := []
  promLost := none
  free := 0
  pending := []

end Sys2Proof.Machine
end

