-- ==== Sys2Proof/Machine/Fields.lean ====
section
/-! DEFINITION. The configuration fields of the field tables (R435, Table 12.5): their names as (table code, ordinal),
ranges, defaults and the reading of the values in force. -/

namespace Sys2Proof.Machine

open Sys2Proof

/-- A field: table code and ordinal (R435). -/
abbrev Fld := Nat × Nat

namespace Fld
-- Table 2.7
abbrev L : Fld := (0x27, 0)
abbrev C : Fld := (0x27, 1)
abbrev F : Fld := (0x27, 2)
-- Table 4.3
abbrev CLASS : Fld := (0x43, 0)
abbrev HOLD : Fld := (0x43, 1)
abbrev SHUNT : Fld := (0x43, 2)
abbrev ILIM : Fld := (0x43, 3)
abbrev SR : Fld := (0x43, 4)
abbrev DVFLOOR : Fld := (0x43, 5)
abbrev TRAMP : Fld := (0x43, 6)
abbrev SOAE : Fld := (0x43, 7)
abbrev DISCH : Fld := (0x43, 8)
abbrev HOLDCAP : Fld := (0x43, 9)
abbrev PSET : Fld := (0x43, 10)
-- Table 5.2
abbrev R20 : Fld := (0x52, 0)
abbrev ALPHA : Fld := (0x52, 1)
abbrev CC : Fld := (0x52, 2)
abbrev CI : Fld := (0x52, 3)
abbrev RCI : Fld := (0x52, 4)
abbrev RIA : Fld := (0x52, 5)
abbrev TCMAX : Fld := (0x52, 6)
abbrev TIMAX : Fld := (0x52, 7)
abbrev HOTK : Fld := (0x52, 8)
abbrev HYST : Fld := (0x52, 9)
abbrev AMBSRC : Fld := (0x52, 10)
abbrev AMBFIX : Fld := (0x52, 11)
abbrev AMBHOST : Fld := (0x52, 12)
abbrev IWMAX : Fld := (0x52, 13)
abbrev NWMAX : Fld := (0x52, 14)
abbrev CMPCODE : Fld := (0x52, 15)
abbrev CMPHOT : Fld := (0x52, 16)
abbrev CMPF : Fld := (0x52, 17)
abbrev RMODE : Fld := (0x52, 18)
abbrev RMAX : Fld := (0x52, 19)
abbrev RINT : Fld := (0x52, 20)
abbrev RBACK : Fld := (0x52, 21)
abbrev TSTABLE : Fld := (0x52, 22)
-- Table 6.6
abbrev ARCEN : Fld := (0x66, 0)
abbrev AMODE : Fld := (0x66, 1)
abbrev NRATIO : Fld := (0x66, 2)
abbrev STEPMIN : Fld := (0x66, 3)
abbrev ATHR : Fld := (0x66, 4)
abbrev AIMIN : Fld := (0x66, 5)
-- Table 6.9
abbrev RON0 : Fld := (0x69, 0)
abbrev RSER : Fld := (0x69, 1)
abbrev TCR : Fld := (0x69, 2)
abbrev RTH0 : Fld := (0x69, 3)
abbrev FTSRC : Fld := (0x69, 4)
abbrev ZTH0 : Fld := (0x69, 5)
abbrev PRBEN : Fld := (0x69, 6)
abbrev PVDS : Fld := (0x69, 7)
abbrev PLEN : Fld := (0x69, 8)
abbrev PRINT : Fld := (0x69, 9)
abbrev KGAIN : Fld := (0x69, 10)
-- Table 12.6
abbrev DOMAIN : Fld := (0xC6, 0)
-- Table 7.3
abbrev PHMASK : Fld := (0x73, 0)
abbrev SPMASK : Fld := (0x73, 1)
abbrev TSW : Fld := (0x73, 2)
abbrev PHSHUNT : Fld := (0x73, 3)
abbrev IPH : Fld := (0x73, 4)
abbrev IADD : Fld := (0x73, 5)
abbrev ISHED : Fld := (0x73, 6)
abbrev NMIN : Fld := (0x73, 7)
abbrev SHEDT : Fld := (0x73, 8)
abbrev SHEDHOLD : Fld := (0x73, 9)
abbrev STEPI : Fld := (0x73, 10)
abbrev ISKIP : Fld := (0x73, 11)
abbrev IPKF : Fld := (0x73, 12)
abbrev IPKR : Fld := (0x73, 13)
abbrev IOUTMAX : Fld := (0x73, 14)
abbrev RPH0 : Fld := (0x73, 15)
abbrev PHNTC : Fld := (0x73, 16)
abbrev TPHMAX : Fld := (0x73, 17)
abbrev STARTMODE : Fld := (0x73, 18)
abbrev VINSTART : Fld := (0x73, 19)
abbrev SSR : Fld := (0x73, 20)
-- Table 7.8
abbrev TSWA : Fld := (0x78, 0)
abbrev SHUNTA : Fld := (0x78, 1)
abbrev VMIN : Fld := (0x78, 2)
abbrev VMAX : Fld := (0x78, 3)
abbrev ICC : Fld := (0x78, 4)
abbrev IPKA : Fld := (0x78, 5)
abbrev PAUX : Fld := (0x78, 6)
abbrev SSRA : Fld := (0x78, 7)
-- Table 8.3; the BUCK set at 0-5 and the BOOST set at 6-11
abbrev VB0 : Fld := (0x83, 0)
abbrev VB1 : Fld := (0x83, 1)
abbrev VB2 : Fld := (0x83, 2)
abbrev VA1 : Fld := (0x83, 3)
abbrev VA2 : Fld := (0x83, 4)
abbrev VKI : Fld := (0x83, 5)
abbrev IKP : Fld := (0x83, 12)
abbrev IKI : Fld := (0x83, 13)
abbrev DMIN : Fld := (0x83, 14)
abbrev DMAX : Fld := (0x83, 15)
abbrev VFFEN : Fld := (0x83, 16)
abbrev FFEN : Fld := (0x83, 17)
abbrev ACC : Fld := (0x83, 18)
abbrev JERK : Fld := (0x83, 19)
abbrev AKPV : Fld := (0x83, 20)
abbrev AKIV : Fld := (0x83, 21)
abbrev AKPC : Fld := (0x83, 22)
abbrev AKIC : Fld := (0x83, 23)
abbrev ACCA : Fld := (0x83, 24)
abbrev JERKA : Fld := (0x83, 25)
-- Table 9.1
abbrev HUEN : Fld := (0x91, 0)
abbrev VLOSS : Fld := (0x91, 1)
abbrev VREV : Fld := (0x91, 2)
abbrev VRET : Fld := (0x91, 3)
abbrev HURET : Fld := (0x91, 4)
abbrev HVSET : Fld := (0x91, 5)
abbrev VBSTOP : Fld := (0x91, 6)
abbrev HUTGT : Fld := (0x91, 7)
abbrev HUEFF : Fld := (0x91, 8)
abbrev LEAD : Fld := (0x91, 9)
abbrev CBPER : Fld := (0x91, 10)
-- Table 9.7
abbrev CAP : Fld := (0x97, 0)
abbrev CAPHYST : Fld := (0x97, 1)
abbrev CAPDWELL : Fld := (0x97, 2)
abbrev NREST : Fld := (0x97, 3)
-- Table 10.1
abbrev CHEM : Fld := (0xA1, 0)
abbrev QNOM : Fld := (0xA1, 1)
abbrev CNOM : Fld := (0xA1, 2)
abbrev BSHUNT : Fld := (0xA1, 3)
abbrev BTSRC : Fld := (0xA1, 4)
abbrev BIOFS : Fld := (0xA1, 5)
abbrev BIGAIN : Fld := (0xA1, 6)
abbrev IREST : Fld := (0xA1, 7)
abbrev TREST : Fld := (0xA1, 8)
abbrev VFULL : Fld := (0xA1, 9)
abbrev ITAPER : Fld := (0xA1, 10)
abbrev RSWAP : Fld := (0xA1, 11)
abbrev SWAP : Fld := (0xA1, 12)
-- Table 15.8
abbrev HEN : Fld := (0xF1, 0)
abbrev ROLE : Fld := (0xF1, 1)
abbrev ARBSRC : Fld := (0xF1, 2)
abbrev ARBNODE : Fld := (0xF1, 3)
abbrev REVEN : Fld := (0xF1, 4)
-- Table 19.2
abbrev PDEN : Fld := (0xF9, 0)
abbrev PMAX : Fld := (0xF9, 1)
abbrev FIXMASK : Fld := (0xF9, 2)
abbrev PPSEN : Fld := (0xF9, 3)
abbrev PCLASS : Fld := (0xF9, 4)
abbrev PCGRP : Fld := (0xF9, 5)
abbrev HUMODE : Fld := (0xF9, 6)
abbrev VCONNEN : Fld := (0xF9, 7)
abbrev MOISTEN : Fld := (0xF9, 8)
abbrev MOISTR : Fld := (0xF9, 9)
end Fld

/-- Range and default of a field in its encoding. -/
structure FSpec where
  lo : Nat
  hi : Nat
  dflt : Nat
deriving DecidableEq, Repr

/-- The tables of fields in their row order, as (lowest code, highest code, default code). -/
def fieldTable : Nat → List FSpec
  | 0x27 => [⟨0, 3, 1⟩, ⟨1, 65535, 2000⟩, ⟨1, 4095, 250⟩, ⟨0, 0, 0⟩]
  | 0x43 => [⟨1, 3, 3⟩, ⟨0, 1, 0⟩, ⟨100, 1000000, 1000⟩, ⟨10, 30000, 1000⟩, ⟨1, 4000, 100⟩, ⟨1, 2000, 10⟩,
      ⟨1, 1000, 100⟩, ⟨1, 65535, 1000⟩, ⟨0, 2, 0⟩, ⟨0, 1, 0⟩, ⟨0, 2, 0⟩]
  | 0x52 => [⟨50, 131071, 12100⟩, ⟨3000, 5000, 3930⟩, ⟨10, 65535, 518⟩, ⟨10, 65535, 400⟩, ⟨10, 16383, 300⟩,
      ⟨100, 65535, 6000⟩, ⟨60, 250, 150⟩, ⟨60, 200, 125⟩, ⟨1, 50, 10⟩, ⟨5, 100, 20⟩, ⟨0, 63, 63⟩, ⟨0, 190, 125⟩,
      ⟨0, 190, 0⟩, ⟨0, 4095, 0⟩, ⟨0, 255, 249⟩, ⟨1, 63, 63⟩, ⟨1, 63, 63⟩, ⟨0, 3, 1⟩, ⟨0, 1, 0⟩, ⟨0, 15, 3⟩,
      ⟨1, 65535, 10⟩, ⟨0, 1, 1⟩, ⟨1, 4095, 100⟩]
  | 0x66 => [⟨0, 1, 1⟩, ⟨0, 1, 0⟩, ⟨4, 63, 16⟩, ⟨1, 31, 5⟩, ⟨4, 20, 12⟩, ⟨1, 255, 5⟩]
  | 0x69 => [⟨0, 65535, 0⟩, ⟨0, 65535, 0⟩, ⟨20, 100, 50⟩, ⟨1, 8191, 2000⟩, ⟨0, 63, 63⟩, ⟨0, 65535, 0⟩, ⟨0, 1, 1⟩,
      ⟨2, 40, 10⟩, ⟨1, 12, 10⟩, ⟨10, 65535, 600⟩, ⟨0, 16, 4⟩]
  | 0xC6 => [⟨0, 1, 0⟩]
  | 0x73 => [⟨1, 65535, 0xFF⟩, ⟨0, 65535, 0⟩, ⟨1000, 5000, 2000⟩, ⟨100, 1000000, 500⟩, ⟨10, 1000, 250⟩,
      ⟨10, 1000, 200⟩, ⟨5, 800, 120⟩, ⟨0, 15, 1⟩, ⟨1, 1000, 10⟩, ⟨1, 10000, 50⟩, ⟨1, 500, 30⟩, ⟨1, 255, 20⟩,
      ⟨10, 2000, 400⟩, ⟨0, 1000, 50⟩, ⟨1, 1600, 400⟩, ⟨0, 65535, 0⟩, ⟨0, 31, 31⟩, ⟨60, 150, 120⟩, ⟨0, 1, 1⟩,
      ⟨300, 520, 360⟩, ⟨1, 1000, 100⟩]
  | 0x78 => [⟨1000, 5000, 2500⟩, ⟨1000, 1000000, 10000⟩, ⟨300, 2400, 300⟩, ⟨300, 2400, 2400⟩, ⟨5, 1000, 500⟩,
      ⟨1, 200, 80⟩, ⟨1, 250, 100⟩, ⟨1, 1000, 50⟩]
  | 0x83 => [⟨0, 0xFFFFFFFF, 0x41A00000⟩, ⟨0, 0xFFFFFFFF, 0⟩, ⟨0, 0xFFFFFFFF, 0⟩, ⟨0, 0xFFFFFFFF, 0⟩,
      ⟨0, 0xFFFFFFFF, 0⟩, ⟨0, 0xFFFFFFFF, 0x3D4CCCCD⟩, ⟨0, 0xFFFFFFFF, 0x40A00000⟩, ⟨0, 0xFFFFFFFF, 0⟩,
      ⟨0, 0xFFFFFFFF, 0⟩, ⟨0, 0xFFFFFFFF, 0⟩, ⟨0, 0xFFFFFFFF, 0⟩, ⟨0, 0xFFFFFFFF, 0x3C23D70A⟩,
      ⟨0, 0xFFFFFFFF, 0x3B03126F⟩, ⟨0, 0xFFFFFFFF, 0x3951B717⟩, ⟨0, 100, 20⟩, ⟨500, 1000, 950⟩, ⟨0, 1, 1⟩,
      ⟨0, 1, 1⟩, ⟨1, 65535, 100⟩, ⟨1, 65535, 250⟩, ⟨0, 0xFFFFFFFF, 0x3C23D70A⟩, ⟨0, 0xFFFFFFFF, 0x3A83126F⟩,
      ⟨0, 0xFFFFFFFF, 0x3CA3D70A⟩, ⟨0, 0xFFFFFFFF, 0x3B03126F⟩, ⟨1, 65535, 50⟩, ⟨1, 65535, 100⟩]
  | 0x87 => [⟨0, 4, 0⟩, ⟨0, 15, 0⟩, ⟨0, 1, 0⟩, ⟨0, 0xFFFFFFFF, 0⟩, ⟨171799, 1073741824, 0⟩, ⟨171799, 1073741824, 0⟩,
      ⟨0, 255, 31⟩, ⟨1, 255, 8⟩, ⟨1, 255, 16⟩, ⟨0, 15, 0⟩, ⟨0, 15, 0⟩, ⟨0, 0xFFFFFFFF, 0⟩]
  | 0x91 => [⟨0, 1, 1⟩, ⟨240, 440, 360⟩, ⟨5, 100, 20⟩, ⟨260, 520, 400⟩, ⟨10, 10000, 100⟩, ⟨360, 520, 460⟩,
      ⟨80, 115, 90⟩, ⟨1, 65535, 600⟩, ⟨0, 200, 140⟩, ⟨5, 500, 5⟩, ⟨1, 100, 10⟩]
  | 0x97 => [⟨0, 65535, 0⟩, ⟨1, 50, 10⟩, ⟨1, 1000, 100⟩, ⟨0, 15, 3⟩]
  | 0xA1 => [⟨0, 2, 0⟩, ⟨20, 600, 200⟩, ⟨10, 65535, 1000⟩, ⟨100, 1000000, 500⟩, ⟨0, 63, 63⟩, ⟨0, 255, 5⟩, ⟨0, 50, 5⟩,
      ⟨1, 500, 20⟩, ⟨1, 240, 30⟩, ⟨200, 500, 420⟩, ⟨1, 255, 10⟩, ⟨10, 100, 30⟩, ⟨0, 1, 0⟩]
  | 0xF1 => [⟨0, 1, 0⟩, ⟨0, 1, 0⟩, ⟨0, 1, 0⟩, ⟨0, 0x3FE, 0⟩, ⟨0, 1, 1⟩]
  | 0xF9 => [⟨0, 1, 0⟩, ⟨15, 100, 60⟩, ⟨0, 7, 7⟩, ⟨0, 1, 1⟩, ⟨2, 3, 3⟩, ⟨0, 3, 0⟩, ⟨0, 1, 0⟩, ⟨0, 1, 1⟩, ⟨0, 1, 1⟩,
      ⟨10, 200, 50⟩]
  | _ => []

/-- Range and default of a field; none where its table has no such ordinal. -/
def fieldSpec (f : Fld) : Option FSpec := (fieldTable f.1)[f.2]?

/-- A field that its table marks as computed: Q of Table 2.7 (R435). -/
def fieldComputed (f : Fld) : Bool := f == (0x27, 3)

/-- The number of values INDEX may take for a field with per-resource values; 1 where it must be 0 (Table 12.4). -/
def fieldCount (f : Fld) : Nat :=
  if f == Fld.L then 4 else if f == Fld.PHNTC then 16 else if f == Fld.LEAD then 4
  else if f.1 == 0x83 && f.2 ≥ 20 then 4 else 1

/-- The value of an IEEE 754 single; none for an infinity or a NaN. -/
def singleVal (w : Nat) : Option ℚ :=
  let e : Nat := w / 2 ^ 23 % 256
  let m : Nat := w % 2 ^ 23
  let a : ℚ := if e == 0 then (m : ℚ) / 2 ^ 149
    else if e < 150 then ((2 ^ 23 + m : Nat) : ℚ) / 2 ^ (150 - e) else ((2 ^ 23 + m : Nat) : ℚ) * 2 ^ (e - 150)
  if e == 255 then none else some (if w / 2 ^ 31 % 2 == 1 then -a else a)

/-- The range of a single-precision field (Tables 8.3, 8.7); the exact rule of AMP is R317 and of VA1, VA2 R304. -/
def singleRange (f : Fld) : Option (ℚ × ℚ) :=
  if f.1 == 0x87 then (if f.2 == 3 then some (0, 2 ^ 128) else none)
  else if f.1 == 0x83 then
    if f.2 % 6 ≤ 2 && f.2 < 12 then some (-1000000, 1000000)
    else if f.2 % 6 ≤ 4 && f.2 < 12 then some (-2, 2)
    else if f.2 < 12 then some (0, 1000)
    else if f == Fld.IKP then some (0, 1) else if f == Fld.IKI then some (0, 1 / 10)
    else if f == Fld.AKPV || f == Fld.AKPC then some (0, 10)
    else if f == Fld.AKIV || f == Fld.AKIC then some (0, 1) else none
  else none

/-- A code of Table 5.2 for a temperature source: NTC 0-15, sensors 16-39. -/
def tempSrcOk (v : Nat) : Bool := v < 40

/-- The field's own range rule (the Range column), apart from the rules that combine fields. -/
def fieldInRange (f : Fld) (v : Nat) : Bool :=
  match fieldSpec f with
  | none => false
  | some p =>
    p.lo ≤ v && v ≤ p.hi &&
    (match singleRange f with
      | none => true
      | some (lo, hi) => match singleVal v with
        | none => false
        | some x => lo ≤ x && x ≤ hi) &&
    (if f == Fld.AMBSRC || f == Fld.FTSRC then tempSrcOk v || v == 62 || v == 63
      else if f == Fld.BTSRC then tempSrcOk v || v == 63
      else if f == Fld.PHNTC then v < 16 || v == 31
      else if f == Fld.RON0 then v == 0 || 10 ≤ v
      else if f == (0x87, 3) then v != 0 && v / 2 ^ 31 == 0
      else true)

/-- The stored value of a key, if one was written. -/
def lookupSet (k : FKey) : List (FKey × Nat) → Option Nat
  | [] => none
  | (k', v) :: r => if k == k' then some v else lookupSet k r

/-- Writes a value for a key, replacing an earlier one. -/
def storeSet (k : FKey) (v : Nat) : List (FKey × Nat) → List (FKey × Nat)
  | [] => [(k, v)]
  | (k', w) :: r => if k == k' then (k, v) :: r else (k', w) :: storeSet k v r

/-- The default of a field, with the defaults that depend on the Class or the chemistry (Tables 6.9, 10.1). -/
def fieldDefault (f : Fld) (classA : Bool) (chem : Nat) : Nat :=
  if f == Fld.PRBEN then (if classA then 0 else 1)
  else if f == Fld.VFULL && chem == 1 then 245
  else match fieldSpec f with
    | some p => p.dflt
    | none => 0

/-- The value of a field in force. -/
def State.fld (s : State) (f : Fld) (res : Nat) (idx : Nat := 0) : Nat :=
  match lookupSet ⟨f.1, res, f.2, idx⟩ s.settings with
  | some v => v
  | none =>
    let chem := (lookupSet ⟨0xA1, 0x130, 0, 0⟩ s.settings).getD 0
    let classA := if h : res < 64 then (s.ch[res]).tmb.classA else false
    fieldDefault f classA chem

/-- Resource numbers (Table 12.1). -/
abbrev rConv : Nat := 0x100
abbrev rAux (r : Nat) : Nat := 0x110 + r
abbrev rPd (p : Nat) : Nat := 0x120 + p
abbrev rZone : Nat := 0x130
abbrev rPhase (p : Nat) : Nat := 0x140 + p
abbrev rGroup (g : Nat) : Nat := 0x150 + g
abbrev rQueue (q : Nat) : Nat := 0x160 + q
abbrev rStream (c : Nat) : Nat := 0x180 + c
abbrev rDevice : Nat := 0xFFFF

/-- The place of the converter's BUCK target in the settings (R643); no field record names it. -/
abbrev kBuckTarget : FKey := ⟨0xFF, rConv, 0, 0⟩

/-- A field of a Channel, of the leader where the Channel is a follower is chosen by the caller. -/
abbrev State.chf (s : State) (n : Fin 64) (f : Fld) : Nat := s.fld f n.val
/-- A converter or law field. -/
abbrev State.cvf (s : State) (f : Fld) (idx : Nat := 0) : Nat := s.fld f rConv idx
/-- A field of the zone tables. -/
abbrev State.znf (s : State) (f : Fld) (idx : Nat := 0) : Nat := s.fld f rZone idx
/-- An AUX rail field. -/
abbrev State.axf (s : State) (r : Fin 4) (f : Fld) : Nat := s.fld f (rAux r)
/-- A PD port field. -/
abbrev State.pdf (s : State) (p : Fin 2) (f : Fld) : Nat := s.fld f (rPd p)
/-- A Hinge field. -/
abbrev State.hgf (s : State) (f : Fld) : Nat := s.fld f rDevice
/-- A single-precision field as a number. -/
def State.cvq (s : State) (f : Fld) (idx : Nat := 0) : ℚ := (singleVal (s.cvf f idx)).getD 0

/-- The Channels. -/
def allCh : List (Fin 64) := List.finRange 64

/-- The leader's number of a Channel that is in a parallel set, and the set's size (R166). -/
def State.leaderOf (s : State) (n : Fin 64) : Fin 64 × Nat :=
  let quad : Fin 64 := ⟨n.val / 4 * 4, by omega⟩
  let pair : Fin 64 := ⟨n.val / 2 * 2, by omega⟩
  if s.chf quad Fld.PSET == 2 then (quad, 4) else if s.chf pair Fld.PSET == 1 then (pair, 2) else (n, 1)

def State.leader (s : State) (n : Fin 64) : Fin 64 := (s.leaderOf n).1
def State.setSize (s : State) (n : Fin 64) : Nat := (s.leaderOf n).2
def State.isFollower (s : State) (n : Fin 64) : Bool := s.leader n != n

/-- Members of the set of a Channel, the leader first. -/
def State.members (s : State) (n : Fin 64) : List (Fin 64) :=
  let p := s.leaderOf n
  allCh.filter fun m => p.1.val ≤ m.val && m.val < p.1.val + p.2

/-- A parameter of a Channel: the leader's applies to every member (R166). -/
def State.lf (s : State) (n : Fin 64) (f : Fld) : Nat := s.chf (s.leader n) f

/-- Class of a Channel (R24): Class A of its OTP, else its CLASS, which a follower takes from its leader (R166). -/
def State.chClass (s : State) (n : Fin 64) : Cls :=
  if (s.ch[n]).tmb.classA then .a else if s.lf n Fld.CLASS == 2 then .b else .c

/-- Codes of a Class in events and queue bindings. -/
def clsCode : Cls → Nat
  | .a => 1
  | .b => 2
  | .c => 3

end Sys2Proof.Machine
end

