-- ==== Sys2Proof/Machine/Ops.lean ====
section
/-! DEFINITION. The shared operations: bytes and CRCs, queue memory, owners, Icecore records, events, the violation log
and completions (files 11, 12, 13, 14, 16, 22). -/

namespace Sys2Proof.Machine

open Sys2Proof

/-! ### Bytes -/

/-- The k low bytes of a number, little-endian (R3). -/
def le : Nat → Nat → List Byte
  | 0, _ => []
  | k + 1, n => BitVec.ofNat 8 n :: le k (n / 256)

/-- The number that bytes spell, little-endian (R3). -/
def ofLe : List Byte → Nat
  | [] => 0
  | b :: r => b.toNat + 256 * ofLe r

/-- The little-endian number at bytes off to off + n - 1; absent bytes count as 0. -/
def getLe (l : List Byte) (off n : Nat) : Nat := ofLe ((l.drop off).take n)

/-- Exactly n bytes: cut or filled with 0. -/
def fitTo (n : Nat) (l : List Byte) : List Byte := (l ++ List.replicate n 0).take n

/-- A signed number as an n-byte two's complement number. -/
def twos (n : Nat) (x : Int) : Nat := (x % (256 ^ n : Nat)).toNat

/-- A signed number limited to the range of n bytes. -/
def satS (n : Nat) (x : Int) : Nat :=
  twos n (max (-(256 ^ n / 2 : Nat) : Int) (min x ((256 ^ n / 2 : Nat) - 1 : Int)))

/-- An unsigned number limited to n bytes. -/
def satU (n : Nat) (x : Int) : Nat := (max 0 (min x ((256 ^ n : Nat) - 1 : Int))).toNat

def crc8Byte (poly c b : Byte) : Byte :=
  (List.range 8).foldl (fun c _ => if c.msb then (c <<< 1) ^^^ poly else c <<< 1) (c ^^^ b)

/-- CRC-8 of the SPI host port (R472). -/
def crc8Spi (bs : List Byte) : Byte := bs.foldl (crc8Byte 0x2F) 0xFF ^^^ 0xFF

/-- CRC-8 of SMBus (Table 14.1). -/
def crc8Smb (bs : List Byte) : Byte := bs.foldl (crc8Byte 0x07) 0

def crc32cByte (c : Word) (b : Byte) : Word :=
  (List.range 8).foldl (fun c _ => if c.getLsbD 0 then (c >>> 1) ^^^ 0x82F63B78#32 else c >>> 1) (c ^^^ b.setWidth 32)

/-- CRC-32C, whose polynomial, reflection and inversions are the ones its name stands for (log 12). -/
def crc32c (bs : List Byte) : Word := bs.foldl crc32cByte 0xFFFFFFFF ^^^ 0xFFFFFFFF

/-! ### Queue memory -/

/-- What the byte at an address reads as; an address not listed reads 0 (log 13). -/
def memRead : List Host.Cell → Nat → Byte
  | [], _ => 0
  | (x, c) :: r, a => if a == x then c else memRead r a

/-- One byte written, keeping the canonical form. -/
def memWrite : List Host.Cell → Nat → Byte → List Host.Cell
  | [], a, b => if b == 0 then [] else [(a, b)]
  | (x, c) :: r, a, b =>
    if a < x then (if b == 0 then (x, c) :: r else (a, b) :: (x, c) :: r)
    else if a == x then (if b == 0 then r else (a, b) :: r)
    else (x, c) :: memWrite r a b

/-- Addresses at or above a bound, strictly rising, and no entry that equals what an unlisted address reads as. -/
def memWfFrom : Nat → List Host.Cell → Bool
  | _, [] => true
  | n, (x, c) :: r => n ≤ x && c != 0 && memWfFrom (x + 1) r

/-- The canonical form of a memory. -/
def memWf (m : List Host.Cell) : Bool := memWfFrom 0 m

def memReadN (m : List Host.Cell) (a : Nat) : Nat → List Byte
  | 0 => []
  | k + 1 => memRead m a :: memReadN m (a + 1) k

def memWriteL : List Host.Cell → Nat → List Byte → List Host.Cell
  | m, _, [] => m
  | m, a, b :: r => memWriteL (memWrite m a b) (a + 1) r

/-- Queue-memory offsets of Table 11.2. -/
def sqBase (q : Fin 32) : Nat := q.val * 0x6000
def cqBase (q : Fin 32) : Nat := q.val * 0x6000 + 0x4000
def winAddr (q : Fin 32) : Nat := 0xC0000 + q.val * 0x2000

/-! ### Small state updates -/

def State.updCh (s : State) (n : Fin 64) (f : Chan → Chan) : State := { s with ch := s.ch.set n.val (f s.ch[n]) }
def State.mapCh (s : State) (f : Fin 64 → Chan → Chan) : State := { s with ch := Vector.ofFn fun i => f i s.ch[i] }
def State.updQ (s : State) (q : Fin 32) (f : Queue → Queue) : State := { s with qs := s.qs.set q.val (f s.qs[q]) }
def State.updGrp (s : State) (g : Fin 5) (f : Group → Group) : State := { s with grp := s.grp.set g.val (f s.grp[g]) }
def State.updAux (s : State) (r : Fin 4) (f : Aux → Aux) : State := { s with aux := s.aux.set r.val (f s.aux[r]) }
def State.updPd (s : State) (p : Fin 2) (f : PdPort → PdPort) : State := { s with pd := s.pd.set p.val (f s.pd[p]) }
def State.updPh (s : State) (p : Fin 16) (f : Phase → Phase) : State :=
  { s with cv := { s.cv with ph := s.cv.ph.set p.val (f s.cv.ph[p]) } }
def State.updCap (s : State) (c : Fin 16) (f : Stream → Stream) : State := { s with cap := s.cap.set c.val (f s.cap[c]) }

def allQ : List (Fin 32) := List.finRange 32
def allPh : List (Fin 16) := List.finRange 16

/-- An operation done for each item of a list in order. -/
def overL {α : Type} (l : List α) (f : α → State → State) (s : State) : State := l.foldl (fun s x => f x s) s

/-! ### The settings copies (R607, Table 1.4) -/

/-- Whether copy 1 is the valid copy with the higher sequence. -/
def Upd.newest1 (u : Upd) : Bool := u.set1.valid && (!u.set0.valid || u.set0.seq < u.set1.seq)
def Upd.setCopy (u : Upd) (b : Bool) : SetCopy := if b then u.set1 else u.set0
def Upd.putCopy (u : Upd) (b : Bool) (c : SetCopy) : Upd := if b then { u with set1 := c } else { u with set0 := c }
def Upd.newest (u : Upd) : SetCopy := u.setCopy u.newest1

/-- Settings are written to the copy that is not in force, or over the one in force while a trial keeps the other. -/
def Upd.storeSet (u : Upd) (l : List (FKey × Nat)) : Upd :=
  let c := u.newest
  u.putCopy (if c.valid then u.newest1 == u.kept else false) ⟨true, c.seq + 1, c.fmt, l⟩

/-- Settings that have changed are stored in Firn, never after a power-fail warning (R76). -/
def State.storeSettings (s : State) : State :=
  if s.pw.pfw || (s.upd.newest.valid && s.upd.newest.fields == s.settings) then s
  else { s with upd := s.upd.storeSet s.settings }

/-- An operation done where a condition holds. -/
def when (b : Bool) (f : State → State) (s : State) : State := if b then f s else s

/-- The Frame count as a 32-bit field; all ones in RECOVERY (R599). -/
def State.now32 (s : State) : Nat := if s.upd.recovery then 2 ^ 32 - 1 else s.fr.count % 2 ^ 32

/-- From step 6 of Table 2.6 until the logic die is reset or switched off. -/
def State.live (s : State) : Bool := s.pw.logic == .running && s.fr.running

/-- The chip acts on its outputs: SOLO, or the driving chip of a pair (R495, R499). -/
def State.drives (s : State) : Bool := s.hinge.st == .solo || s.hinge.driving

/-- A bit of HPT_FAULT is set by its source (R638). -/
def State.setFault (s : State) (b : Fin 9) : State :=
  { s with hpt := s.hpt ||| (1#9 <<< b.val), hptAt := s.hptAt.set b.val s.fr.count }

/-- FAULT_N is asserted while any bit of HPT_FAULT is set (R638). -/
def State.faultN (s : State) : Bool := s.hpt != 0

def State.bank (n : Fin 64) : Fin 4 := ⟨n.val / 16, by omega⟩

/-! ### Owners -/

/-- The owner to which a command source maps: a node, 0x400 the SPI host port, 0x401 TW1 (R380). -/
def State.srcOwner (s : State) (src : Nat) : Option (Fin 16) :=
  match s.owners.find? (fun p => p.1 == src) with
  | some p => p.2
  | none => if src == 0 || src == 0x400 || src == 0x401 then some 0 else none

/-- Owner of a resource of R29; owner 0 by default (R381). -/
def ownerIn (l : List (Nat × Fin 16)) (r : Nat) : Fin 16 :=
  match l.find? (fun p => p.1 == r) with
  | some p => p.2
  | none => 0
def State.ownerOf (s : State) (r : Nat) : Fin 16 := ownerIn s.resOwner r

/-- Whether an owner owns a resource of Table 12.1 (R429). -/
def ownsIn (l : List (Nat × Fin 16)) (o : Fin 16) (r : Nat) : Bool :=
  if 0x40 ≤ r && r < 0x44 then (List.range 16).all (fun k => ownerIn l ((r - 0x40) * 16 + k) == o)
  else if 0x140 ≤ r && r < 0x150 then ownerIn l rConv == o
  else ownerIn l r == o

/-- Owner of an event source: a Queue has its own; Groups, streams and the device belong to owner 0 (R421, log 14). -/
def State.eventOwner (s : State) (src : Nat) : Option (Fin 16) :=
  if h : 0x160 ≤ src ∧ src < 0x180 then (s.qs[src - 0x160]'(by omega)).owner
  else if 0x140 ≤ src && src < 0x150 then some (s.ownerOf rConv)
  else if 0x40 ≤ src && src < 0x44 then some (s.ownerOf ((src - 0x40) * 16))
  else if src < 0x140 then some (s.ownerOf src)
  else some 0

/-- CLASS of an event source: that of a Channel or a Queue, else 0 (Table 11.11, log 14). -/
def State.srcClass (s : State) (src : Nat) : Nat :=
  if h : src < 64 then clsCode (s.chClass ⟨src, h⟩)
  else if h : 0x160 ≤ src ∧ src < 0x180 then clsCode (s.qs[src - 0x160]'(by omega)).cls
  else if src == rPd 0 || src == rPd 1 then s.fld Fld.PCLASS src
  else 0

/-! ### Icecore -/

/-- The 32 bytes of a record (Table 16.1). -/
def IceRec.bytes (r : IceRec) : List Byte :=
  let tail := le 2 r.code ++ le 2 r.source ++ le 2 r.flags ++ fitTo 16 r.payload
  le 4 r.seq ++ le 2 r.rep ++ tail ++ le 4 (crc32c (le 4 r.seq ++ tail)).toNat

/-- The newest record, in the buffer or in the ring. -/
def Ice.newest (i : Ice) : Option IceRec :=
  match i.buf.getLast? with
  | some r => some r
  | none => i.ring.getLast?

/-- RSV in a reservation word: none where its halves are not complements (R523). -/
def rsvOf (w : BitVec 64) : Option Nat :=
  if w.extractLsb' 32 32 == ~~~(w.extractLsb' 0 32) then some (w.extractLsb' 0 32).toNat else none

/-- The word that holds an RSV. -/
def rsvWord (v : Nat) : BitVec 64 := (~~~(BitVec.ofNat 32 v)) ++ BitVec.ofNat 32 v

/-- Whether word 1 holds the greater valid RSV, modulo 2^32. -/
def Ice.newer1 (i : Ice) : Bool :=
  match rsvOf i.rsv0, rsvOf i.rsv1 with
  | some a, some b => decide ((b + 2 ^ 32 - a) % 2 ^ 32 < 2 ^ 31)
  | none, some _ => true
  | _, none => false

/-- RSV: the greater valid one (R523); with neither word valid no sequence is reserved. -/
def Ice.rsv (i : Ice) : Nat := (if i.newer1 then rsvOf i.rsv1 else rsvOf i.rsv0).getD i.next

/-- RSV + 2,048 goes to the older word. -/
def Ice.reserve (i : Ice) : Ice :=
  let v := (i.rsv + 2048) % 2 ^ 32
  if i.newer1 then { i with rsv0 := rsvWord v } else { i with rsv1 := rsvWord v }

/-- Sequence numbers that may be issued below RSV, modulo 2^32 (R523). -/
def Ice.room (i : Ice) : Nat := (i.rsv + 2 ^ 32 - i.next) % 2 ^ 32

/-- An occurrence that cannot be held (R528). -/
def State.iceLose (s : State) : State :=
  { s with ice := { s.ice with lost := s.ice.lost + 1, lostPend := s.ice.lostPend + 1 } }

/-- A new record in the buffer; it starts a flush where R529 says so, but not after the flush of a power-fail warning (R531). -/
def State.iceOpen (s : State) (code source flags : Nat) (payload : List Byte) : State :=
  let i0 := s.ice
  let i := if i0.room ≤ 512 && !s.pw.pfw then i0.reserve else i0
  if i.buf.length ≥ 1024 || i.room == 0 then ({ s with ice := i }).iceLose
  else
    let buf := i.buf ++ [⟨i.next, 0, code, source, flags, fitTo 16 payload⟩]
    { s with ice := { i with
      next := (i.next + 1) % 2 ^ 32, issued := i.issued + 1, buf := buf
      flushing := i.flushing || (buf.length ≥ 768 && !s.pw.pfw)
      flushDue := i.flushDue || flags % 4 == 2 } }

/-- The GAP record of lost occurrences, once it can be held (R528). -/
def State.iceGap (s : State) : State :=
  if s.ice.lostPend != 0 && s.ice.buf.length < 1024 && (s.ice.room != 0 || !s.pw.pfw) then
    let n := s.ice.lostPend
    ({ s with ice := { s.ice with lostPend := 0 } }).iceOpen 0x0003 rDevice ((if s.pw.pfw then 16 else 0) + 1) (le 4 n)
  else s

/-- An occurrence handed to Icecore (R527, R528): folded into the newest record or opened, after a GAP record where
occurrences were lost. -/
def State.iceRecord (s : State) (code source sev : Nat) (payload : List Byte) : State :=
  if !s.live then s
  else
    let flags := (if s.pw.pfw then 16 else 0) + 4 * s.srcClass source + sev
    let pl := fitTo 16 payload
    let same (r : IceRec) : Bool :=
      r.code == code && r.source == source && r.flags == flags && r.payload == pl
    match s.ice.buf.getLast?, s.ice.ring.getLast? with
    | some r, _ =>
      if same r && r.rep < 65535 then
        { s with ice := { s.ice with buf := s.ice.buf.dropLast ++ [{ r with rep := r.rep + 1 }] } }
      else opened flags pl
    | none, some r =>
      if same r && r.rep + s.ice.foldPend < 65535 then
        { s with ice := { s.ice with foldPend := s.ice.foldPend + 1 } }
      else opened flags pl
    | none, none => opened flags pl
where
  opened (flags : Nat) (pl : List Byte) : State := s.iceGap.iceOpen code source flags pl

/-- SEQ of the newest record. -/
def State.iceSeq (s : State) : Nat :=
  match s.ice.newest with
  | some r => r.seq
  | none => (s.ice.next + 2 ^ 32 - 1) % 2 ^ 32

/-- The kinds of event of which the keep-alive domain holds up to 16: wake source, comparator trips of HELD Channels and
HINGE_GNT changes (R526). -/
def keptLimited (code : Nat) : Bool := code == 0x0723 || code == 0x0101 || code == 0x0801

/-- A record of an event that the keep-alive domain holds (R526). -/
def State.keepEvent (s : State) (code source : Nat) (payload : List Byte) : State :=
  if !keptLimited code || (s.ice.kept.filter fun e => keptLimited e.1).length < 16 then { s with ice := { s.ice with kept := s.ice.kept ++ [(code, source, payload)] } }
  else { s with ice := { s.ice with keptLost := s.ice.keptLost + 1 } }

/-! ### Rings -/

def Queue.depth (q : Queue) : Nat := 2 ^ (q.dlog + 3)
/-- Unconsumed entries of the completion or event ring. -/
def Queue.held (q : Queue) : Nat := (q.cqTail + q.depth - q.cqHead) % q.depth
/-- Untaken descriptors. -/
def Queue.untaken (q : Queue) : Nat := (q.sqTail + q.depth - q.sqHead) % q.depth
/-- Whether a completion entry can be reserved beside those of the commands already taken (R396). -/
def Queue.canReserve (q : Queue) : Bool := q.held + q.nTaken < q.depth - 1
/-- Reset of a Queue's rings (R400). -/
def Queue.resetRings (q : Queue) : Queue :=
  { q with sqHead := 0, sqTail := 0, cqHead := 0, cqTail := 0, phase := true, cseq := 0, eseq := 0, lost := 0,
           coal := [], vis := [] }

/-- The 32 bytes written at CQTAIL, the tail and the phase moved on (R391). -/
def State.ringWrite (s : State) (q : Fin 32) (bytes : List Byte) : State :=
  let k := s.qs[q]
  let wrap := k.cqTail + 1 ≥ k.depth
  { (s.updQ q fun k => { k with cqTail := if wrap then 0 else k.cqTail + 1, phase := if wrap then !k.phase else k.phase })
    with qmem := memWriteL s.qmem (cqBase q + 32 * k.cqTail) bytes }

/-! ### Messages of the network path -/

/-- The 16-byte Euvos header with MSEQ 0; the MSEQ is written at the hand-over (Table 13.4). -/
def euvosHeader (typ dst src queue cls len : Nat) (mseq : Nat := 0) : List Byte :=
  [0x10#8] ++ le 1 typ ++ le 2 dst ++ le 2 src ++ le 1 queue ++ le 1 cls ++ le 4 mseq ++ le 2 len ++ le 2 0

/-- The links on which a message to a node is sent (R455). -/
def State.linksTo (s : State) (dst : Nat) : List Link :=
  if dst == 0x3FF then (if s.net.up1 then [Link.t1] else []) ++ (if s.net.upS then [Link.t1s] else [])
  else match s.net.nodes.find? (fun e => e.node == dst) with
    | some e => [e.link]
    | none => if dst == 0 then [Link.t1] else [Link.t1s]

/-- The messages of a lane. -/
def Net.lane (n : Net) : Cls → List TxMsg
  | .a => n.txA
  | .b => n.txB
  | .c => n.txC

def Net.setLane (n : Net) (lane : Cls) (l : List TxMsg) : Net :=
  match lane with
  | .a => { n with txA := l }
  | .b => { n with txB := l }
  | .c => { n with txC := l }

/-- A message put behind the others of its lane; the EVENT of a Class A source goes ahead of other EVENTs of its Queue
(R422). -/
def laneInsert (m : TxMsg) : List TxMsg → List TxMsg
  | [] => [m]
  | x :: r =>
    if m.evA && !x.evA && x.bytes[1]? == some 3#8 && x.bytes[6]? == m.bytes[6]? then m :: x :: r
    else x :: laneInsert m r

/-- Queues a message for its links (R455, R467). -/
def State.sendMsg (s : State) (lane : Cls) (typ dst queue cls : Nat) (payload : List Byte)
    (frees : Option (Fin 32 × Option Nat) := none) (evA : Bool := false) (mseq : Option Nat := none)
    (lat : Option (Nat × Option Word) := none) : State :=
  let bytes := euvosHeader typ dst (s.otp.nodeAddr.getD 0) queue cls payload.length (mseq.getD 0) ++ payload
  overL (s.linksTo dst) (fun l s =>
    let m : TxMsg := ⟨l, lane, typ == 5, dst, frees, evA, mseq.isSome, lat, bytes, none⟩
    { s with net := s.net.setLane lane (laneInsert m (s.net.lane lane)) }) s

/-! ### The response list of TW1 -/

/-- An entry joins the TW1 response list; R487 asks for a Host Notify when the list was empty or the entry is of a
Class A Queue. -/
def State.twAdd (s : State) (e : TwEnt) (clsA : Bool) : State :=
  let n := s.otp.hnEn.getD true && s.otp.tw1Addr.isSome && (s.tw.resp.isEmpty || clsA)
  { s with tw := { s.tw with
      resp := s.tw.resp.takeWhile (fun x => x.part ≤ e.part) ++ [e] ++ s.tw.resp.dropWhile (fun x => x.part ≤ e.part)
      notify := s.tw.notify || n
      lastNotify := if s.tw.resp.isEmpty then some s.fr.count else s.tw.lastNotify } }

/-! ### Events -/

/-- The entry bytes of an event (Table 11.11). -/
def eventBytes (eseq : Nat) (phase : Bool) (e : Event) : List Byte :=
  le 4 eseq ++ le 2 e.code ++ le 2 e.source ++ le 2 e.rep ++ [if phase then 1#8 else 0] ++ le 1 e.cls ++ le 4 e.frame ++
    fitTo 16 e.payload

/-- An event written into a free ring entry and passed to the Queue's path. -/
def State.eventPut (s : State) (q : Fin 32) (e : Event) : State :=
  let k := s.qs[q]
  let bytes := eventBytes k.eseq k.phase e
  let s1 := (s.ringWrite q bytes).updQ q fun k => { k with eseq := (k.eseq + 1) % 2 ^ 32 }
  match k.path with
  | .network => s1.sendMsg .a 3 k.dest q.val (clsCode k.cls) bytes (some (q, none)) (e.cls == 1)
  | .tw1 => s1.twAdd ⟨1, 2, q, bytes, some none⟩ true
  | _ => s1

/-- An event that finds its Queue full (R423). -/
def coalesce (e : Event) : List Event → Option (List Event)
  | [] => none
  | x :: r =>
    if x.code == e.code && x.source == e.source then
      some ({ x with rep := min 65535 (x.rep + 1), frame := e.frame, payload := e.payload } :: r)
    else (coalesce e r).map (x :: ·)

/-- One event for one event Queue. -/
def State.eventTo (s : State) (e : Event) (q : Fin 32) : State :=
  let k := s.qs[q]
  if k.held + 1 < k.depth && k.coal.isEmpty && k.lost == 0 then s.eventPut q e
  else match coalesce e k.coal with
    | some l => s.updQ q fun k => { k with coal := l }
    | none =>
      if k.coal.length < 32 then s.updQ q fun k => { k with coal := k.coal ++ [e] }
      else s.updQ q fun k => { k with lost := k.lost + 1 }

/-- One coalesced item written where the ring has a free entry: EVT_LOST, then held entries of Class A sources, then the
others (R423). -/
def State.drainOne (s : State) (q : Fin 32) : State :=
  let k := s.qs[q]
  if !k.isEvent || k.held + 1 ≥ k.depth then s
  else if k.lost != 0 then
    (s.eventPut q ⟨0x0705, rQueue q, clsCode k.cls, s.now32, 0, le 4 k.lost⟩).updQ q fun k => { k with lost := 0 }
  else
    let pick := match k.coal.find? (fun e => e.cls == 1) with
      | some e => some e
      | none => k.coal.head?
    match pick with
    | none => s
    | some e => (s.eventPut q e).updQ q fun k => { k with coal := k.coal.erase e }

/-- Coalesced items are written until the ring is full or none is left. -/
def State.drain (s : State) (q : Fin 32) : State := overL (List.range 34) (fun _ s => s.drainOne q) s

/-- The event Queues in RUN of the owner of a source; the device's are those of owner 0 (R421). -/
def State.eventQueues (s : State) (src : Nat) : List (Fin 32) :=
  allQ.filter fun q => let k := s.qs[q]; k.isEvent && k.st == .run && !k.disabling && k.owner == s.eventOwner src

/-- An event posted to the event Queues, or dropped and counted (R421). -/
def State.postOnly (s : State) (code src : Nat) (payload : List Byte) : State :=
  let e : Event := ⟨code, src, s.srcClass src, s.now32, 0, fitTo 16 payload⟩
  match s.eventQueues src with
  | [] => { s with evDropped := s.evDropped + 1 }
  | qs => overL qs (fun q s => s.eventTo e q) s

/-- Severity of an event record (R525). -/
def eventSev (code : Nat) (payload : List Byte) : Nat :=
  let b := getLe payload 0 1
  if (code == 0x0101 && b == 6) || code == 0x0203 || code == 0x0706 || (code == 0x0301 && (b == 1 || b == 3)) then 2 else 1

/-- An event with its Icecore record of the same CODE, SOURCE and payload (R524). -/
def State.postRec (s : State) (code src : Nat) (payload : List Byte) : State :=
  (s.iceRecord code src (eventSev code payload) payload).postOnly code src payload

/-! ### Violations -/

/-- A violation logged and recorded (R427). Owner and Queue are 0xFF where there is none. -/
def State.violation (s : State) (kind path : Nat) (owner : Option (Fin 16)) (queue : Option (Fin 32)) (addr : Nat) :
    State :=
  let o := match owner with | some o => o.val | none => 0xFF
  let qn := match queue with | some q => q.val | none => 0xFF
  let src := match queue with | some q => rQueue q | none => rDevice
  let s1 := s.iceRecord 0x0720 src 1 (le 1 kind ++ le 1 path ++ le 1 o ++ le 1 qn ++ le 4 addr)
  if s1.vio.length < 32 then
    { s1 with vio := s1.vio ++ [⟨s1.now32, kind, path, o, qn, BitVec.ofNat 32 addr, s1.iceSeq⟩] }
  else { s1 with vioOver := min 65535 (s1.vioOver + 1) }

/-! ### Completions -/

/-- Code of a path in the violation log (Table 11.14) and in QM_QCFG. -/
def pathCode : Path → Nat
  | .network => 0
  | .spi => 1
  | .tw1 => 2
  | .none => 3

/-- The completion entry (Table 11.4). -/
def cplBytes (t : Taken) (k : Queue) (status frame : Nat) (result : List Byte) (evt : Bool) (hasData trunc : Bool)
    (rdoff rdlen lat : Nat) : List Byte :=
  le 4 t.d.tag.toNat ++ le 2 t.op.toNat ++ le 1 status ++
    le 1 ((if k.phase then 1 else 0) + (if hasData then 2 else 0) + (if evt then 4 else 0) + (if trunc then 8 else 0)) ++
    le 2 k.sqHead ++ le 2 k.cseq ++ le 4 frame ++ fitTo 8 result ++ le 2 rdoff ++ le 2 rdlen ++ le 2 lat ++ le 2 0

/-- A FENCE of Table 11.9: its scope includes a Class B or Class C Queue. -/
def State.wideFence (s : State) (t : Taken) : Bool :=
  t.op == 0x0701 && allQ.any fun q => q != t.q && getLe t.d.param 0 4 / 2 ^ q.val % 2 == 1 && (s.qs[q]).cls != .a

/-- The supplies are within Table 21.2, as published last (R616). -/
def State.supplyOk (s : State) : Bool :=
  let v (k : Fin 16) (lo hi : Int) : Bool := lo ≤ s.hk.volts[k] && s.hk.volts[k] ≤ hi
  let bank (b : Fin 4) : Bool :=
    if s.pump.domain48[b] then v ⟨4 + b.val, by omega⟩ 24000 60000 else v ⟨4 + b.val, by omega⟩ 6000 20000
  s.hk.seen && v 0 6000 18000 && v 1 776 824 && v 2 1710 1890 && v 3 3135 3465 && bank 0 && bank 1 && bank 2 && bank 3

/-- The conditions of R409 that do not name a command. -/
def State.promiseNow (s : State) : Bool :=
  s.supplyOk && !s.pw.pfw && s.pw.admOpen && s.th.tj ≤ 1200 && (s.hinge.st == .solo || s.hinge.st == .active)

/-- They hold, and have held since a Frame (log 15). -/
def State.promiseSince (s : State) (since : Nat) : Bool :=
  s.promiseNow && (match s.promLost with
    | some f => f < since
    | none => true)

/-- Whether the bound of R409 is asked of a command: Class A, no ninth, none of those that R410, R411 and R466 take out. -/
def State.bounded (s : State) (t : Taken) : Bool :=
  (s.qs[t.q]).cls == .a && !t.vis.ninth && !t.vis.exempt && !s.wideFence t

/-- Whether the promise of R409 covers a command that completes now, or whose effect starts now (R410, log 15). -/
def State.promised (s : State) (t : Taken) : Bool := s.bounded t && s.promiseSince t.vis.frame

/-- A DISABLED state that a running command kept back is reached (Table 11.8). -/
def Queue.settle (k : Queue) : Queue :=
  if k.disabling && k.nTaken == 0 then { k with st := .disabled, disabling := false } else k

/-- LAT: the time since a Frame in which a command became visible, in whole µs; the place of both moments in their Frames is free.
Without Frames (RECOVERY) all of it is (R390, log 200). -/
def State.latOf (s : State) (since : Nat) : Nat :=
  let x := (Config.latUs s.free).toNat
  if s.fr.running then min 65535 (4 * (s.fr.count - since) + x % 8 - 4) else x

/-- LAT_MISS where the bound of 100 Frames is broken by a command that it is asked of (R413). -/
def State.latMiss (s : State) (q : Fin 32) (tag : Word) (since lat : Nat) : State :=
  if s.promiseSince since && s.fr.count > since + 100 then
    { (s.postRec 0x0706 (rQueue q) (le 4 tag.toNat ++ le 2 lat)) with nLatMiss := min 65535 (s.nLatMiss + 1) }
  else s

def State.latNote (s : State) (t : Taken) (lat : Nat) : State :=
  if s.bounded t then s.latMiss t.q t.d.tag t.vis.frame lat else s

/-- A command that R409 does not cover (R411). -/
def Taken.exempted (t : Taken) : Taken := { t with vis := { t.vis with exempt := true } }

/-- The effect of a command has started: the bound of one of Table 11.9 has been judged there (R410). -/
def Taken.startBound (t : Taken) : Bool := t.op == 0x0201 || t.op == 0x0305
def Taken.begun (t : Taken) : Taken := if t.startBound then t.exempted else t

/-- A FENCE that waits for a command. -/
def State.fencedFor (s : State) (q : Fin 32) (id : Nat) : Bool :=
  s.outs.any fun o => match o.wait with
    | .fence es _ => es.contains (q, id)
    | _ => false

/-- The completion entry of a taken command is written, or discarded and counted (R390, Table 11.8). On the network path the command
completes at the hand-over of its message, where LAT and the bound are settled (R408, R464). -/
def State.writeCpl (s : State) (t : Taken) (status : Nat) (frame : Option Nat) (result : List Byte := [])
    (data : List Byte := []) (evt : Bool := false) : State :=
  let k := s.qs[t.q]
  if t.dead || k.st == .stopped then
    s.updQ t.q fun k => ({ k with
      discarded := k.discarded + 1, nTaken := k.nTaken - 1, areas := k.areas.filter fun a => a.1 != t.vis.id } : Queue).settle
  else
    let room := min t.d.dlen.toNat (t.vis.rlen.getD t.d.dlen.toNat)
    let out := data.take room
    let asked := t.d.flags.getLsbD 0 && !data.isEmpty
    let hasData := asked && !out.isEmpty
    let trunc := asked && data.length > room
    let fr := match frame with | some f => if s.upd.recovery then 0xFFFFFFFF else f % 2 ^ 32 | none => 0xFFFFFFFF
    let lat := s.latOf t.vis.frame
    let ent (rdoff : Nat) := cplBytes t k status fr result evt hasData trunc rdoff
      (if hasData then out.length else 0) lat
    let msg := ent 0 ++ (if hasData then out else [])
    let s1 := if hasData then
        { s with qmem := memWriteL s.qmem (winAddr t.q + 16 * t.d.doff.toNat) out } else s
    let keep (r : Recent) : Recent := if k.path != .network && r.id == t.vis.id then { r with cpl := some msg } else r
    let s2 := (s1.ringWrite t.q (ent (if hasData then t.d.doff.toNat else 0))).updQ t.q fun k =>
      ({ k with
        cseq := (k.cseq + 1) % 65536, nTaken := k.nTaken - 1, recent := k.recent.map keep
        doneAt := if s.fencedFor t.q t.vis.id then k.doneAt ++ [(t.vis.id, s.fr.count)] else k.doneAt } : Queue).settle
    let s3 := { s2 with free := s2.free + 1 }
    match k.path with
    | .network => s3.sendMsg k.cls 2 t.vis.src t.q.val (clsCode k.cls) msg (some (t.q, some t.vis.id)) false none
        (some (t.vis.frame, if s.bounded t then some t.d.tag else none))
    | .tw1 => (s3.twAdd ⟨if k.cls == .a then 0 else if k.cls == .b then 2 else 3, 1, t.q, msg, some (some t.vis.id)⟩
        (k.cls == .a)).latNote t lat
    | _ => s3.latNote t lat

/-- Payload of CMD_START and the head of CMD_DONE (Table 12.10). -/
def cmdHead (t : Taken) : List Byte := le 4 t.d.tag.toNat ++ le 2 t.op.toNat

/-- CMD_START at the tick at which the effect starts, to which the bound applies (R432, R410). -/
def State.cmdStart (s : State) (t : Taken) : State :=
  let s1 := ({ s with free := s.free + 1 } : State).postOnly 0x0701 (rQueue t.q) (cmdHead t)
  if t.startBound then s1.latNote t (s.latOf t.vis.frame) else s1

/-- The outstanding commands of a kind start their effect. -/
def State.startOuts (s : State) (p : Out → Bool) : State :=
  overL (s.outs.filter p) (fun o s => s.cmdStart o.cmd)
    { s with outs := s.outs.map fun o => if p o then { o with cmd := o.cmd.begun } else o }

/-- CMD_DONE (Table 12.10). -/
def State.cmdDone (s : State) (t : Taken) (status : Nat) (result : List Byte := []) : State :=
  s.postOnly 0x0702 (rQueue t.q) (cmdHead t ++ le 1 status ++ le 1 0 ++ fitTo 8 result)

/-- Outstanding commands of a kind leave the list. -/
def State.dropOuts (s : State) (p : Out → Bool) : State := { s with outs := s.outs.filter (fun o => !p o) }

/-- A command that waits for its completion. -/
def State.await (s : State) (t : Taken) (w : Wait) : State :=
  { s with outs := s.outs ++ [⟨t, s.outs.length, w⟩] }

/-- An earlier command of the Queue has not completed and holds the completion back (R392). -/
def State.behind (s : State) (t : Taken) : Bool :=
  !t.dead && s.outs.any fun o => o.cmd.q == t.q && o.cmd.vis.id < t.vis.id && !o.cmd.dead && o.wait.holds

/-- A completion entry, and CMD_DONE with it for a deferred command (R432). -/
def State.writeOut (s : State) (t : Taken) (status : Nat) (frame : Option Nat) (result data : List Byte)
    (evt told : Bool) : State :=
  let s1 := s.writeCpl t status frame result data evt
  if told then s1.cmdDone t status result else s1

/-- The entry of a finished command of the Queue that no earlier command holds back any more. -/
def State.flushOne (s : State) (q : Fin 32) : State :=
  match s.outs.find? fun o => o.cmd.q == q && o.wait.isDone && !s.behind o.cmd with
  | some ⟨t, n, .done st fr res data evt told⟩ =>
    (s.dropOuts (· == ⟨t, n, .done st fr res data evt told⟩)).writeOut t st fr res data evt told
  | _ => s

/-- A command has finished: its entry is written, or waits for those of the earlier commands of its Queue (R392). -/
def State.close (s : State) (t : Taken) (status : Nat) (frame : Option Nat) (result data : List Byte)
    (evt told : Bool) : State :=
  if s.behind t then s.await t (.done status frame result data evt told)
  else
    overL (List.range (s.outs.filter fun o => o.wait.isDone).length) (fun _ s => s.flushOne t.q)
      (s.writeOut t status frame result data evt told)

/-- A taken command completes (R390, R392). frame none stands for 0xFFFF_FFFF. data is the result data. -/
def State.complete (s : State) (t : Taken) (status : Nat) (frame : Option Nat) (result : List Byte := [])
    (data : List Byte := []) (evt : Bool := false) : State :=
  s.close t status frame result data evt false

/-- Final completion of a deferred command, with its CMD_DONE (R432). -/
def State.finish (s : State) (t : Taken) (status : Nat) (frame : Option Nat) (result : List Byte := []) : State :=
  s.close t status frame result [] false true

/-- The commands of the deferred kind of Table 12.2: CV_SET, HU_TEST and DORMANT. CMD_DONE comes with each of their
completion entries but a 0x30 (R432, R441). -/
def deferredOp (op : Half) : Bool := op == 0x0201 || op == 0x0305 || op == 0x0703

/-- A command that had no effect completes with a status and no Frame (R390). -/
def State.refuse (s : State) (t : Taken) (status : Nat) (result : List Byte := []) : State :=
  s.close t status none result [] false (deferredOp t.op)

/-- The outstanding commands that satisfy a condition, each taken out of the list and completed, in their order. -/
def State.completeOuts (s : State) (p : Out → Bool) (f : Out → State → State) : State :=
  overL (s.outs.filter p) (fun o s => if s.outs.contains o then f o (s.dropOuts (· == o)) else s) s

end Sys2Proof.Machine
end

