-- ==== Sys2Proof/Machine/Operands.lean ====
section
/-! DEFINITION. The operand forms: descriptors, sensed codes as volts and amperes, roundings, temperature sources
(files 03, 05, 08, 11). -/

namespace Sys2Proof.Machine

open Sys2Proof

/-! ### Roundings -/

/-- A whole number next to a value where the spec names no rounding: the value itself, or either neighbour, freely
(log 5). -/
def rnd (x : ℚ) : Int := if Config.roundsUp x then Rat.ceil x else Rat.floor x

/-- An unsigned report of n bytes. -/
def repU (n : Nat) (x : ℚ) : List Byte := le n (satU n (rnd x))
/-- A signed report of n bytes. -/
def repS (n : Nat) (x : ℚ) : List Byte := le n (satS n (rnd x))

/-- 2^e. -/
def pow2 (e : Int) : ℚ := if 0 ≤ e then ((2 ^ e.toNat : Nat) : ℚ) else 1 / ((2 ^ (-e).toNat : Nat) : ℚ)

/-- The exponent e with 2^e ≤ |x| < 2^(e+1), for x not 0. -/
def expOf (x : ℚ) : Int :=
  let e : Int := (Nat.log2 x.num.natAbs : Int) - (Nat.log2 x.den : Int)
  let p : ℚ := pow2 e
  if |x| < p then e - 1 else if 2 * p ≤ |x| then e + 1 else e

/-- A result of the CE's single-precision arithmetic: the value itself where it is a single, else one of its two
neighbours, freely (log 5). -/
def single (x : ℚ) : ℚ :=
  if x == 0 then 0
  else
    let u : ℚ := pow2 (max (expOf x - 23) (-149))
    (rnd (x / u) : ℚ) * u

/-- The 32 bits of a single. -/
def singleBits (x : ℚ) : Nat :=
  if x == 0 then 0
  else
    let e := max (expOf x) (-126)
    let m := (rnd (|x| / pow2 (e - 23))).toNat
    (if x < 0 then 2 ^ 31 else 0) + (if m < 2 ^ 23 then m else (e + 126).toNat * 2 ^ 23 + m)

/-- A square root to 1 part in 10^9 of its argument's scale, where the spec states a root and no precision; either
neighbour (log 5). -/
def root (x : ℚ) : ℚ :=
  if x ≤ 0 then 0
  else
    let n : Nat := (Rat.floor (x * 1000000000000000000)).toNat
    let r := Nat.sqrt n
    ((if Config.sqrtUp x then r + 1 else r : Nat) : ℚ) / 1000000000

/-! ### Descriptors -/

/-- The opcode and the other bytes of a 64-byte submission descriptor (Table 11.3). -/
def parseDesc (b : List Byte) : Half × CmdArgs :=
  (BitVec.ofNat 16 (getLe b 0 2),
    { flags := BitVec.ofNat 16 (getLe b 2 2), tag := BitVec.ofNat 32 (getLe b 4 4)
      target := BitVec.ofNat 16 (getLe b 8 2), rsv := BitVec.ofNat 16 (getLe b 10 2)
      doff := BitVec.ofNat 16 (getLe b 12 2), dlen := BitVec.ofNat 16 (getLe b 14 2)
      param := fitTo 48 (b.drop 16) })

/-- The bytes of a descriptor. -/
def descBytes (op : Half) (d : CmdArgs) : List Byte :=
  le 2 op.toNat ++ le 2 d.flags.toNat ++ le 4 d.tag.toNat ++ le 2 d.target.toNat ++ le 2 d.rsv.toNat ++
    le 2 d.doff.toNat ++ le 2 d.dlen.toNat ++ fitTo 48 d.param

/-- n bytes of PARAM from descriptor byte off (16-63). -/
def cmdP (d : CmdArgs) (off n : Nat) : Nat := getLe d.param (off - 16) n
def Taken.p (t : Taken) (off n : Nat) : Nat := cmdP t.d off n
def Taken.target (t : Taken) : Nat := t.d.target.toNat
/-- FLAGS of Table 11.3. -/
def Taken.hasArea (t : Taken) : Bool := t.d.flags.getLsbD 0
def Taken.hasCred (t : Taken) : Bool := t.d.flags.getLsbD 1
/-- The input area without its credential block. -/
def Taken.body (t : Taken) : List Byte := if t.hasCred then t.input.drop 64 else t.input

/-- The nearest whole number; of two equally near ones, either (log 5). -/
def nearestI (x : ℚ) : Int :=
  let f := Rat.floor x
  if x - f == 1 / 2 then rnd x else if x - f < 1 / 2 then f else f + 1

/-! ### Sines and second-order sections -/

/-- The sine of a part of a quarter turn, by its series to the 17th power, whose error is below 10^-13 (log 9). -/
def sineQuarter (t : ℚ) : ℚ :=
  let x := t * (3141592653589793238 / 2000000000000000000)
  let y := x * x
  let p := [(17 : ℚ), 15, 13, 11, 9, 7, 5, 3].foldl (fun a k => 1 - y / (k * (k - 1)) * a) 1
  if t == 1 then 1 else max 0 (min 1 (x * p))

/-- The sine of a 32-bit fraction of a turn (R320). -/
def sineTurn (w : Word) : ℚ :=
  let r : ℚ := (w.toNat % 2 ^ 30 : Nat) / 2 ^ 30
  match w.toNat / 2 ^ 30 with
  | 0 => sineQuarter r
  | 1 => sineQuarter (1 - r)
  | 2 => -sineQuarter r
  | _ => -sineQuarter (1 - r)
def cosTurn (w : Word) : ℚ := sineTurn (w + 0x40000000#32)

/-- The square of |c0 + c1 z + c2 z²| at a frequency given as a 32-bit fraction of the sample rate. -/
def polyPower (c0 c1 c2 : ℚ) (w : Word) : ℚ :=
  let re := c0 + c1 * cosTurn w + c2 * cosTurn (w + w)
  let im := c1 * sineTurn w + c2 * sineTurn (w + w)
  re * re + im * im

/-- The power gain of a section b0, b1, b2, a1, a2 at a frequency. -/
def sectionPower (k : ℚ × ℚ × ℚ × ℚ × ℚ) (w : Word) : ℚ :=
  polyPower k.1 k.2.1 k.2.2.1 w / polyPower 1 k.2.2.2.1 k.2.2.2.2 w

/-! ### Filters (R115-R120) -/

/-- A value as a 24-bit code, limited to its range. -/
def code24 (x : ℚ) : Code24 := BitVec.ofInt 24 (max (-8388608) (min 8388607 (rnd x)))

/-- SAMPLE of a corrected result given in 1/16 LSB: rounded to 14 bits, and kept within them where the rounding or a correction
leads beyond full scale (R95, log 187). -/
def sample14 (v : Int) : Int := max (-8192) (min 8191 (nearestI ((v : ℚ) / 16)))

/-- A raw word (Table 3.4) of a corrected result. -/
def rawWord (v : Int) (tag : Nat) : Half := BitVec.ofInt 16 (sample14 v * 4 + tag)
def rawSample (w : Half) : Int := (w.toInt - w.toNat % 4) / 4
def rawTag (w : Half) : Nat := w.toNat % 4

/-- Order, decimation and notch of a filter word (Table 3.10). -/
def filtOrder (w : Word) : Nat := w.toNat / 256 % 4 + 1
def filtDec (w : Word) : Nat := w.toNat % 256 + 1

/-- A chain with its state cleared (R103, R120). The input's previous value, which a TAG 01 word repeats, is the input's
(Table 3.4). -/
def Filt.clear (f : Filt) (w : Word) : Filt :=
  { (default : Filt) with prev := f.prev, int := List.replicate (filtOrder w) 0, comb := List.replicate (filtOrder w) 0 }

/-- A sample through the integrators, one into the other. -/
def integrate (v : Int) : List Int → List Int
  | [] => []
  | y :: r => (y + v) :: integrate (y + v) r

/-- A decimated value through the combs: the output, and the values they keep. -/
def combOut (u : Int) : List Int → Int × List Int
  | [] => (u, [])
  | c :: r => let o := combOut (u - c) r; (o.1, u :: o.2)

/-- The section of a notch by its zero coefficient c and pole coefficients a1, a2: its gain at DC is 1. -/
def notchSection (z : ℚ × ℚ × ℚ) : ℚ × ℚ × ℚ × ℚ × ℚ :=
  let g := (1 + z.2.1 + z.2.2) / (2 + z.1)
  (g, g * z.1, g, z.2.1, z.2.2)

/-- Whether a notch has what R119 asks: 40 dB at f0 = F0CODE / 65,536 of the output rate, and poles whose envelope has fallen to 1 %
after 1.46 × Q / f0. -/
def notchMeets (f0 qcode : Nat) (z : ℚ × ℚ × ℚ) : Bool :=
  let q : ℚ := if qcode % 2 == 0 then pow2 ((qcode : Int) / 2 - 1) else pow2 (((qcode : Int) - 1) / 2 - 1) * root 2
  let n := (Rat.ceil (146 / 100 * q * 65536 / f0)).toNat
  10000 * sectionPower (notchSection z) (BitVec.ofNat 32 (f0 * 65536)) ≤ 1 && z.2.1 * z.2.1 ≤ 4 * z.2.2 && 10000 * z.2.2 ^ n ≤ 104 / 100

/-- The coefficients of a notch: the device's where they have what R119 asks, else zeros at f0 and poles at rest (log 142). -/
def notchCoefs (f0 qcode : Nat) : ℚ × ℚ × ℚ :=
  let z := Config.notchCoef f0 qcode
  if notchMeets f0 qcode z then z else (-2 * cosTurn (BitVec.ofNat 32 (f0 * 65536)), 0, 0)

/-- The notch: a second-order section whose gain at DC is 1 (R119, log 142). -/
def Filt.notch (f : Filt) (w : Word) (x : ℚ) : ℚ :=
  let k := notchSection (notchCoefs (w.toNat / 2 ^ 11 % 2 ^ 16) (w.toNat / 2 ^ 27 % 16))
  k.1 * x + k.2.1 * f.nIn.1 + k.2.2.1 * f.nIn.2 - k.2.2.2.1 * f.nOut.1 - k.2.2.2.2 * f.nOut.2

/-- One corrected sample, the m-th since Frame count 0, through a chain, and whether it gives an output (R115-R117): the output
phase counts from Frame count 0. -/
def Filt.step (f : Filt) (w : Word) (m : Nat) (v : Int) : Filt × Bool :=
  let ys := integrate v f.int
  let f1 := { f with prev := v, int := ys }
  if (m + 1) % filtDec w == 0 then
    let (u, cs) := combOut (ys.getLastD v) f.comb
    let cic := code24 ((u : ℚ) * 64 / (filtDec w : ℚ) ^ filtOrder w)
    let y := if w.getLsbD 31 then f.notch w (cic.toInt : ℚ) else (cic.toInt : ℚ)
    ({ f1 with comb := cs, cic := cic, nIn := ((cic.toInt : ℚ), f.nIn.1), nOut := (y, f.nOut.1), out := code24 y }, true)
  else (f1, false)

/-! ### Sensed codes (Tables 3.1, 3.2) -/

/-- A 24-bit code as a fraction of full scale (R115). -/
def fracOf (c : Code24) : ℚ := (c.toInt : ℚ) / 8388608

/-- Group and input number of a Channel's current and voltage inputs (R89). -/
def chGroup (n : Fin 64) : Fin 5 := ⟨n.val / 16, by omega⟩
def chInI (n : Fin 64) : Fin 32 := ⟨n.val % 16, by omega⟩
def chInV (n : Fin 64) : Fin 32 := ⟨n.val % 16 + 16, by omega⟩

/-- Frames after Frame count 0 at which a Group is started (steps 7-11 of Table 2.6). -/
def grpOffset (g : Fin 5) : Nat :=
  if g == 4 then 0 else if g == 0 then 13 else if g == 1 then 25 else if g == 2 then 38 else 50

/-- The valid entries of a sequence (Table 3.9). -/
def Group.entries (g : Group) : List Half := g.seq.toList.takeWhile (fun e => e.getLsbD 15)
def seqInput (e : Half) : Nat := e.toNat % 32
def seqGain (e : Half) : Nat := e.toNat / 4096 % 4

/-- Whether an input is in use: its scan mask bit, or an entry of the sequence (R103, R114). -/
def Group.enabled (g : Group) (i : Fin 32) : Bool :=
  if g.seqMode then g.entries.any (fun e => seqInput e == i.val) else g.mask.getLsbD i.val

/-- PGA gain of an input: its own, or its entry's in sequence mode (R91, R114). -/
def Group.pga (g : Group) (i : Fin 32) : Nat :=
  if g.seqMode then
    match g.entries.find? (fun e => seqInput e == i.val) with
    | some e => 2 ^ seqGain e
    | none => 2 ^ (g.gain[i]).toNat
  else 2 ^ (g.gain[i]).toNat

/-- Full scale of a shunt input in A: ±125 mV ÷ gain across a shunt of so many micro-ohms. -/
def shuntFs (gain shuntU : Nat) : ℚ := 125000 / ((gain * shuntU : Nat) : ℚ)

/-- Channel current in A and output voltage in V from their codes (R89, R90). -/
def State.chAmp (s : State) (n : Fin 64) (c : Code24) : ℚ :=
  fracOf c * shuntFs ((s.grp[chGroup n]).pga (chInI n)) (s.lf n Fld.SHUNT)
def State.chVolt (s : State) (n : Fin 64) (c : Code24) : ℚ :=
  fracOf c * (if s.pump.domain48[State.bank n] then 80 else 20)

/-- Saturation level of a Channel's current input in A. -/
def State.chFs (s : State) (n : Fin 64) : ℚ := shuntFs ((s.grp[chGroup n]).pga (chInI n)) (s.lf n Fld.SHUNT)

/-- Full scale of a G4 input in its unit (Tables 3.1, 3.2). -/
def State.g4Fs (s : State) (i : Fin 32) : ℚ :=
  let g := (s.grp[(4 : Fin 5)]).pga i
  if i.val < 16 then shuntFs g (s.cvf Fld.PHSHUNT)
  else if i.val < 18 then 80
  else if i.val < 20 then 20
  else if i.val == 20 then shuntFs g (s.znf Fld.BSHUNT)
  else if i.val < 25 then 40
  else if h : i.val < 29 then shuntFs g (s.axf ⟨(i.val - 25) % 4, by omega⟩ Fld.SHUNTA)
  else if i.val < 31 then 40
  else 1

/-- Latched value of a G4 input. -/
def State.g4v (s : State) (i : Fin 32) : ℚ := fracOf s.g4[i] * s.g4Fs i

abbrev State.v48In (s : State) : ℚ := s.g4v 16
abbrev State.v48Zone (s : State) : ℚ := s.g4v 17
abbrev State.v12Bus (s : State) : ℚ := s.g4v 18
abbrev State.vBatt (s : State) : ℚ := s.g4v 19
abbrev State.iBatt (s : State) : ℚ := s.g4v 20
def State.vAux (s : State) (r : Fin 4) : ℚ := s.g4v ⟨21 + r.val, by omega⟩
def State.iAux (s : State) (r : Fin 4) : ℚ := s.g4v ⟨25 + r.val, by omega⟩
def State.vBus (s : State) (p : Fin 2) : ℚ := s.g4v ⟨29 + p.val, by omega⟩
def State.iPh (s : State) (p : Fin 16) : ℚ := s.g4v ⟨p.val, by omega⟩

/-- Vsup of a Bank and of a Channel (R133). -/
def State.bankSup (s : State) (b : Fin 4) : ℚ := if s.pump.domain48[b] then s.v48Zone else s.v12Bus
def State.vsup (s : State) (n : Fin 64) : ℚ := s.bankSup (State.bank n)
/-- The latch of Vsup is valid. -/
def State.vsupOk (s : State) (n : Fin 64) : Bool :=
  if s.pump.domain48[State.bank n] then s.g4Ok[(17 : Fin 32)] else s.g4Ok[(18 : Fin 32)]

/-! ### Temperatures -/

/-- A published temperature by the code of Table 5.2: NTC 0-15, sensors 16-39, in degC; none where the reading is
broken. -/
def State.tempSrc (s : State) (v : Nat) : Option ℚ :=
  if h : v < 16 then
    (if (s.th.ntcBad[v]).isSome then none else some ((s.hk.ntc[v] : ℚ) / 8))
  else if h : v < 40 then
    (if (s.th.ts[v - 16]'(by omega)).broken.isSome then none else some ((s.hk.ts[v - 16]'(by omega) : ℚ) / 8))
  else none

end Sys2Proof.Machine
end

