-- ==== Sys2Proof/Machine/Flags.lean ====
section
/-! DEFINITION. The status words and flags that are computed from the state: HPT_STAT, the Queue and Icecore registers,
the pins FAULT_N and HSPI_IRQ_N, Tumbler and Keyring readback (files 11, 13, 16, 17, 22). -/

namespace Sys2Proof.Machine

open Sys2Proof

def bit (b : Bool) : Nat := if b then 1 else 0

/-- Code of a Hinge state (Table 15.2). -/
def hingeCode : HingeState → Nat
  | .solo => 0
  | .active => 1
  | .standby => 2
  | .handing => 3
  | .taking => 4
  | .out => 5

/-- Code of a hold-up state (Table 9.4). -/
def huCode : HuState → Nat
  | .normal => 0
  | .holdup => 1
  | .ret => 2
  | .spent => 3

/-- Code of a Channel state (Table 12.10). -/
def chStCode : ChState → Nat
  | .off => 0
  | .ramp => 1
  | .on => 2
  | .tripped => 3
  | .lockout => 4
  | .held => 5
  | .fetFault => 6

/-- Code of a cause (Table 4.6). -/
def causeCode : Cause → Nat
  | .none => 0
  | .tumblerRamp => 1
  | .comparator => 2
  | .shortRamp => 3
  | .rampTimeout => 4
  | .wireModel => 5
  | .arc => 6
  | .setMember => 7
  | .gateFail => 8
  | .fetShort => 9
  | .thermal => 10
  | .holdupShed => 11
  | .capShed => 12
  | .pumpFail => 13
  | .senseFail => 14
  | .reset => 15
  | .command => 16
  | .admitted => 17

def cvModeCode : CvMode → Nat
  | .idle => 0
  | .buck => 1
  | .boost => 2

def auxCode : AuxState → Nat
  | .off => 0
  | .start => 1
  | .on => 2
  | .cc => 3
  | .fault => 4

/-- HSPI_IRQ_N is low while an SPI-path Queue with IE set holds an unconsumed entry (R398). -/
def State.irqLow (s : State) : Bool := s.qs.toList.any (fun k => k.path == .spi && k.ie && k.held != 0)

/-- RDY: the port carries queue and register traffic (R475). -/
def State.rdy (s : State) : Bool := s.live && !s.upd.recovery

/-- MODE of HPT_STAT: RUN once admission has opened (Table 2.5). -/
def State.inRun (s : State) : Bool := s.pw.mode == .run

/-- HPT_STAT (Table 22.4). -/
def State.hptStat (s : State) : Nat :=
  (if s.inRun then 2 else 1) * 2 ^ 30 + bit s.rdy * 2 ^ 29 + bit s.upd.recovery * 2 ^ 28 + bit s.upd.booted * 2 ^ 27 +
    bit s.pw.pfw * 2 ^ 26 + bit s.clk.rc * 2 ^ 25 + bit s.faultN * 2 ^ 24 + hingeCode s.hinge.st * 2 ^ 21 +
    s.th.level % 4 * 2 ^ 19 + bit s.zone.iso * 2 ^ 18 + huCode s.zone.hu * 2 ^ 16 +
    bit (s.net.mkaS == 2) * 8 + bit s.net.upS * 4 + bit (s.net.mka1 == 2) * 2 + bit s.net.up1

/-- HPT_RESET (Table 22.2). -/
def State.hptReset (s : State) : Nat := s.pw.wakeSrc % 256 * 256 + s.pw.cause % 256

/-- HPT_ID (Table 22.3). -/
def State.hptId (_s : State) : Nat := 0xB264 * 65536 + Config.stepping.toNat

/-- HPT_CLASSA (Table 22.2). -/
def State.hptClassA (s : State) : Nat := min 65535 s.nBeyond * 65536 + min 65535 s.nLatMiss

/-- SNS_HEALTH (Table 22.2). -/
def State.snsHealth (s : State) : Nat :=
  ((List.finRange 5).map fun (g : Fin 5) =>
    s.grp[g].health % 4 * 4 ^ g.val + bit (s.grp[g].slices.toList.any (fun x => x.slow)) * 2 ^ (16 + g.val)).sum

/-- CE_CYC (Table 22.2). -/
def State.ceCyc (s : State) : Nat := s.fr.cycS3 % 65536 * 65536 + s.fr.cycS2 % 65536

/-- QM_QCFGn (Table 11.6). -/
def Queue.cfgWord (k : Queue) : Nat :=
  pathCode k.path * 2 ^ 27 + clsCode k.cls * 2 ^ 25 + bit k.isEvent * 2 ^ 24 +
    (match k.owner with | some o => o.val | none => 0) * 2 ^ 20 + k.dlog % 8 * 2 ^ 8

/-- QM_QCTLn (Table 11.7). -/
def Queue.ctlWord (k : Queue) : Nat :=
  k.sqHead % 256 * 2 ^ 16 + k.cqTail % 256 * 2 ^ 8 +
    (match k.st with | .disabled => 0 | .run => 1 | .stopped => 2) * 2 ^ 6 + bit k.ie * 4 +
    bit (k.st != .disabled && !k.disabling)

/-- The oldest record held (R532): the latest, in issue order, of 0, head - 32,767 and the newest CLEARED plus 1. -/
def Ice.oldest (i : Ice) : Nat :=
  let head := (i.next + 2 ^ 32 - 1) % 2 ^ 32
  let a := if i.issued ≥ 32768 then (head + 2 ^ 32 - 32767) % 2 ^ 32 else 0
  match i.clearedHead with
  | none => a
  | some h =>
    let c := (h + 1) % 2 ^ 32
    -- the later of the two in issue order is the nearer to the head
    if (head + 2 ^ 32 - c) % 2 ^ 32 ≤ (head + 2 ^ 32 - a) % 2 ^ 32 then c else a

/-- ICE_HEAD, ICE_OLDEST and ICE_STAT (Tables 16.4-16.6). -/
def State.iceHeadReg (s : State) : Nat := s.iceSeq
def State.iceStatReg (s : State) : Nat :=
  bit s.ice.clearing.isSome * 2 ^ 26 + bit s.ice.flushing * 2 ^ 25 + min 255 s.ice.lost * 2 ^ 16 + s.ice.buf.length

/-- VIO_STAT (Table 22.7). -/
def State.vioStat (s : State) : Nat := s.vioOver * 65536 + s.vio.length

/-- Word w of entry e of the violation log (R635). -/
def State.vioWord (s : State) (e w : Nat) : Nat :=
  match s.vio[e]? with
  | none => 0
  | some v =>
    if w == 0 then v.frame
    else if w == 1 then v.kind + v.path * 2 ^ 8 + v.owner * 2 ^ 16 + v.queue * 2 ^ 24
    else if w == 2 then v.addr.toNat
    else v.iceSeq

end Sys2Proof.Machine
end

