-- ==== Sys2Proof/Machine/Queues.lean ====
section
/-! DEFINITION. Taking and checking commands, staged effects, the Queues' states, doorbells and FENCE (files 11, 12). -/

namespace Sys2Proof.Machine

open Sys2Proof

/-! ### The opcode table (Table 12.2) and the parameter bytes (Table 12.7) -/

/-- What TARGET of an opcode must name (Tables 12.1, 12.2). -/
inductive TKind where
  | channel
  | channelOrBank
  | conv
  | convAux
  | aux
  | zone
  | group
  | none
  | stream
  | resource
  | queue
  | pd
deriving DecidableEq, Repr

/-- The Owner column of Table 12.2. -/
inductive OKind where
  | res
  | zone
  | zero
  | any
deriving DecidableEq, Repr

/-- A row of Table 12.2 with the PARAM bytes its command uses, and whether it calls for an area (R438). -/
structure OpRow where
  op : Nat
  tk : TKind
  clsA : Bool
  clsB : Bool
  clsC : Bool
  own : OKind
  cfg : Bool
  used : List (Nat × Nat)
  area : Bool
deriving DecidableEq, Repr

def opTable : List OpRow := [
  ⟨0x0101, .channel, true, true, true, .res, false, [], false⟩,
  ⟨0x0102, .channel, true, true, true, .res, false, [], false⟩,
  ⟨0x0103, .channelOrBank, true, true, false, .res, true, [], false⟩,
  ⟨0x0104, .channel, true, true, true, .res, false, [], false⟩,
  ⟨0x0105, .channel, true, true, true, .res, false, [], false⟩,
  ⟨0x0201, .convAux, true, true, false, .res, false, [(16, 1), (18, 2)], false⟩,
  ⟨0x0202, .conv, true, true, false, .res, true, [], false⟩,
  ⟨0x0203, .aux, true, true, false, .res, true, [], false⟩,
  ⟨0x0204, .conv, true, true, false, .res, true, [], false⟩,
  ⟨0x0205, .conv, true, true, true, .res, false, [(16, 1)], false⟩,
  ⟨0x0301, .zone, true, true, false, .zone, true, [], false⟩,
  ⟨0x0302, .zone, true, true, false, .zone, true, [], false⟩,
  ⟨0x0303, .zone, true, true, false, .zone, false, [(16, 2), (24, 40)], false⟩,
  ⟨0x0304, .zone, true, true, true, .zone, false, [], false⟩,
  ⟨0x0305, .zone, true, true, false, .zone, false, [(16, 2)], false⟩,
  ⟨0x0306, .zone, true, true, false, .zone, true, [], false⟩,
  ⟨0x0401, .zone, true, true, false, .zone, true, [], false⟩,
  ⟨0x0402, .zone, true, true, true, .zone, false, [], false⟩,
  ⟨0x0501, .group, true, true, false, .zero, false, [(16, 5), (24, 32)], false⟩,
  ⟨0x0502, .group, true, true, false, .zero, false, [(16, 5)], false⟩,
  ⟨0x0503, .group, true, true, false, .zero, false, [(16, 8)], false⟩,
  ⟨0x0504, .group, true, true, false, .zero, false, [(16, 2), (24, 32)], false⟩,
  ⟨0x0505, .none, true, true, false, .zero, false, [(16, 1)], false⟩,
  ⟨0x0506, .group, true, true, true, .any, false, [], false⟩] ++ [
  ⟨0x0510, .stream, false, true, true, .zero, false, [(16, 12)], false⟩,
  ⟨0x0511, .stream, false, true, true, .zero, false, [], false⟩,
  ⟨0x0512, .stream, false, true, true, .zero, false, [], false⟩,
  ⟨0x0513, .stream, false, true, true, .zero, false, [], false⟩,
  ⟨0x0514, .stream, false, true, true, .zero, false, [(16, 4)], true⟩,
  ⟨0x0515, .stream, false, false, true, .zero, false, [(16, 1), (18, 2)], false⟩,
  ⟨0x0601, .none, true, true, true, .any, false, [(16, 6)], true⟩,
  ⟨0x0602, .none, false, true, true, .any, false, [], false⟩,
  ⟨0x0603, .none, false, true, true, .any, false, [], true⟩,
  ⟨0x0701, .none, true, true, true, .any, false, [(16, 4)], false⟩,
  ⟨0x0702, .none, true, true, false, .zero, false, [], false⟩,
  ⟨0x0703, .none, true, true, false, .zero, false, [], false⟩,
  ⟨0x0704, .none, true, true, false, .zero, false, [(16, 3)], false⟩,
  ⟨0x0705, .none, true, true, false, .zero, false, [(16, 3)], false⟩,
  ⟨0x0706, .resource, true, true, false, .zero, false, [(16, 1)], false⟩,
  ⟨0x0707, .queue, true, true, false, .zero, false, [(16, 5), (22, 2)], false⟩,
  ⟨0x0708, .queue, true, true, false, .zero, false, [(16, 1)], false⟩,
  ⟨0x0709, .none, true, true, false, .zero, false, [], false⟩,
  ⟨0x070A, .none, true, true, true, .any, false, [], true⟩] ++ [
  ⟨0x0801, .none, true, true, false, .zero, true, [], false⟩,
  ⟨0x0802, .none, true, true, false, .zero, false, [(16, 1)], false⟩,
  ⟨0x0803, .none, true, true, true, .any, false, [], false⟩,
  ⟨0x0901, .pd, false, true, true, .res, true, [], false⟩,
  ⟨0x0902, .pd, false, true, true, .res, false, [(16, 1)], false⟩,
  ⟨0x0903, .pd, true, true, true, .res, false, [], false⟩,
  ⟨0x0A01, .none, true, true, true, .zero, false, [(16, 1), (20, 4)], false⟩,
  ⟨0x0A02, .none, true, true, true, .zero, false, [(16, 4)], true⟩,
  ⟨0x0A03, .none, true, true, true, .zero, false, [], false⟩,
  ⟨0x0A04, .none, true, true, true, .zero, false, [(16, 2)], false⟩,
  ⟨0x0A05, .none, true, true, true, .any, false, [], false⟩,
  ⟨0x0B01, .convAux, false, true, true, .res, true, [], false⟩,
  ⟨0x0B02, .convAux, false, true, true, .res, false, [], false⟩,
  ⟨0x0B03, .convAux, true, true, true, .res, false, [(16, 4)], true⟩,
  ⟨0x0B04, .none, true, true, true, .any, false, [], false⟩]

def opRow (op : Nat) : Option OpRow := opTable.find? (fun r => r.op == op)

/-- Whether TARGET names a resource of the kind. CH_CFG names a Bank with BANK set in CFLAGS (Table 12.3). -/
def targetOk (k : TKind) (t : Taken) : Bool :=
  let r := t.target
  match k with
  | .channel => r < 64
  | .channelOrBank => if t.p 18 2 % 2 == 1 then 0x40 ≤ r && r < 0x44 else r < 64
  | .conv => r == 0x100
  | .convAux => r == 0x100 || (0x110 ≤ r && r < 0x114)
  | .aux => 0x110 ≤ r && r < 0x114
  | .zone => r == 0x130
  | .group => 0x150 ≤ r && r < 0x155
  | .none => r == 0xFFFF
  | .stream => 0x180 ≤ r && r < 0x190
  | .resource => r < 0x44 || r == 0x100 || (0x110 ≤ r && r < 0x114) || (0x120 ≤ r && r < 0x122) || r == 0x130
  | .queue => 0x160 ≤ r && r < 0x180
  | .pd => 0x120 ≤ r && r < 0x122

/-- Every PARAM byte outside the listed (offset, length) pairs is 0 (R438). -/
def paramClear (used : List (Nat × Nat)) (t : Taken) : Bool :=
  (List.range 48).all fun k =>
    used.any (fun u => u.1 ≤ k + 16 && k + 16 < u.1 + u.2) || t.p (k + 16) 1 == 0

/-- The opcodes that only read, for R433. -/
def isReadOp (op : Nat) : Bool :=
  op == 0x0104 || op == 0x0205 || op == 0x0304 || op == 0x0402 || op == 0x0903 || op == 0x0B03 || op == 0x0B04

/-- The states of a Hinge in which commands are NOT_ACTIVE (R433). -/
def State.notActive (s : State) : Bool :=
  s.hinge.st == .standby || s.hinge.st == .handing || s.hinge.st == .taking || s.hinge.st == .out

/-- The opcodes that R433 covers: groups 0x01-0x04, 0x09 and 0x0B other than reads. -/
def activeOnly (op : Nat) : Bool :=
  let g := op / 256
  ((1 ≤ g && g ≤ 4) || g == 9 || g == 0x0B) && !isReadOp op

/-- The order in which statuses apply (R406). -/
def statusOrder : List Nat := [0x20, 0x41, 0x21, 0x22, 0x40, 0x10, 0x12, 0x11]

/-- The first status that applies among conditional ones. -/
def firstStatus (cs : List (Nat × Bool)) : Option Nat :=
  statusOrder.find? (fun c => cs.any (fun p => p.1 == c && p.2))

def clsOf (r : OpRow) : Cls → Bool
  | .a => r.clsA
  | .b => r.clsB
  | .c => r.clsC

/-- The ownership check of a command (R431), by the owners at its taking (R381). -/
def ownerFails (r : OpRow) (t : Taken) : Bool :=
  match t.owner with
  | none => r.own != .any
  | some o =>
    match r.own with
    | .any => false
    | .zero => o != 0
    | .zone => !ownsIn t.res o rZone
    | .res => targetOk r.tk t && !ownsIn t.res o t.target

/-- The opcodes that Q04 accepts in RECOVERY (R598). -/
def recoveryOp (op : Nat) : Bool := (0x0A01 ≤ op && op ≤ 0x0A05) || op == 0x070A

/-- The checks that every command has (R7, R77, R84, R381, R387, R388, R430, R431, R433, R438). -/
def baseChecks (r : OpRow) (t : Taken) (s : State) : List (Nat × Bool) :=
  let k := s.qs[t.q]
  let area := t.d.doff.toNat * 16 + t.d.dlen.toNat
  [ (0x20, ownerFails r t || (r.own == .zero && k.cls == .c && !clsOf r .c)),
    (0x41, s.pw.pfw && k.cls != .a),
    (0x21, !clsOf r k.cls || (s.upd.recovery && !recoveryOp r.op)),
    (0x22, area > 8192 || (!t.hasArea && (t.d.doff != 0 || t.d.dlen != 0)) || (t.hasCred && !t.hasArea)),
    (0x22, t.d.rsv != 0 || t.d.flags >>> 2 != 0),
    (0x22, !targetOk r.tk t),
    (0x22, (!r.cfg && !paramClear r.used t) || (r.area && !t.hasArea)),
    (0x40, s.notActive && activeOnly r.op),
    (0x12, s.pw.dormStep != 0 && r.op != 0x0704) ]

/-- A violating command is logged and completes with 0x20 (R426). -/
def State.violate (s : State) (t : Taken) (kind : Nat) : State :=
  let k := s.qs[t.q]
  (s.violation kind (pathCode k.path) t.owner (some t.q) (t.op.toNat * 65536 + t.target)).refuse t 0x20

/-- An opcode that the table does not have: 0x21, behind the 0x41 of a power-fail warning (R77, R406). -/
def State.unknownOp (s : State) (t : Taken) : State := s.refuse t (if s.pw.pfw && (s.qs[t.q]).cls != .a then 0x41 else 0x21)

/-- A command with its checks: the first status that applies completes it, else its effect takes place. -/
def State.guarded (s : State) (t : Taken) (extra : List (Nat × Bool)) (eff : State → State) : State :=
  match opRow t.op.toNat with
  | none => s.unknownOp t
  | some r =>
    match firstStatus (baseChecks r t s ++ extra) with
    | none => eff s
    | some c => if c == 0x20 then s.violate t 4 else s.refuse t c

/-! ### Credentials (R442-R444) -/

/-- Whether the credential block of a command verifies. -/
def State.credOk (s : State) (t : Taken) : Bool :=
  let b := t.input.take 64
  t.hasCred && b.length == 64 && getLe b 0 2 == 1 && getLe b 8 8 == Config.devId.toNat &&
    getLe b 16 2 == t.op.toNat && getLe b 18 2 == t.target && getLe b 20 4 == (crc32c (fitTo 48 t.d.param)).toNat &&
    getLe b 4 4 > s.ccount &&
    (match s.otp.kcred with | none => false | some k => b.drop 32 == Config.hmacSha256 k (b.take 32))

/-- CCOUNT stored as the last count accepted (R444). -/
def State.takeCount (s : State) (t : Taken) : State :=
  let c := getLe t.input 4 4
  { s with ccount := c, ccountFirn := if s.pw.pfw then s.ccountFirn else c }

/-- A guarded command that needs a credential when a condition holds. The count is stored where the credential verifies
and no status that ranks before 0x10 applies. -/
def State.guardedCred (s : State) (t : Taken) (need : Bool) (extra : List (Nat × Bool)) (eff : State → State) :
    State :=
  let ok := s.credOk t
  let early := match opRow t.op.toNat with
    | none => true
    | some r => match firstStatus (baseChecks r t s ++ extra) with
      | none => false
      | some c => c == 0x20 || c == 0x41 || c == 0x21 || c == 0x22 || c == 0x40
  let s1 := if need && ok && !early then s.takeCount t else s
  s1.guarded t ((0x10, need && !ok) :: extra) eff

/-! ### Staged effects -/

/-- Keys of effects other than fields, staged as writes beside them. Table codes end below 0x100. -/
abbrev kOwnerMap : Nat := 0x100
abbrev kOwnerRes : Nat := 0x101
abbrev kQCfg : Nat := 0x102
abbrev kQCtl : Nat := 0x103
abbrev kVioClear : Nat := 0x104
abbrev kMask : Nat := 0x110
abbrev kGain : Nat := 0x111
abbrev kFilter : Nat := 0x112
abbrev kInj : Nat := 0x113
abbrev kAcoh : Nat := 0x114
abbrev kWake : Nat := 0x115
abbrev kCap : Nat := 0x116
abbrev kOrder : Nat := 0x117
abbrev kHinge : Nat := 0x118
abbrev kPd : Nat := 0x119
abbrev kRebase : Nat := 0x11C
abbrev kSwap : Nat := 0x11D

/-- Writes staged for the next tick, block or Period, and the command that completes there. -/
def State.stage (s : State) (t : Taken) (due : DueAt) (writes : List (FKey × Nat)) (result : List Byte := []) : State :=
  let w := match due with
    | .tick => Wait.tick 0 result
    | .block => Wait.block 0 result
    | .period => Wait.period 0 result
  ({ s with staged := s.staged ++ [(⟨due, writes⟩ : Staged)] }).await t w

/-- The value a field will have when the accepted writes have applied (R437). -/
def State.pendFld (s : State) (f : Fld) (res : Nat) (idx : Nat := 0) : Nat :=
  let k : FKey := ⟨f.1, res, f.2, idx⟩
  match lookupSet k ((s.staged.flatMap (fun x => x.writes)).reverse) with
  | some v => v
  | none => s.fld f res idx

/-! ### Queue states (Table 11.8) -/

/-- The descriptor numbers of a Queue's commands that have not completed. -/
def State.openIds (s : State) (q : Fin 32) : List (Nat × Nat) :=
  ((s.qs[q]).vis.map fun v => (v.id, v.frame)) ++ ((s.qs[q]).waiting.map fun t => (t.vis.id, t.vis.frame)) ++
    ((s.rest.filter fun t => t.q == q).map fun t => (t.vis.id, t.vis.frame)) ++ ((s.outs.filter fun o => o.cmd.q == q).map fun o => (o.cmd.vis.id, o.cmd.vis.frame))

/-- The commands behind a FENCE of Table 11.9 in its Queue have been outside the bound (R411). -/
def Queue.fenceOver (k : Queue) : Queue :=
  { k with vis := k.vis.map fun v => { v with exempt := true }, waiting := k.waiting.map Taken.exempted }

/-- FENCEs whose scoped Queue q leaves RUN with an earlier command open complete with 0x31 (R419). -/
def State.abortFences (s : State) (q : Fin 32) : State :=
  let openQ := (s.openIds q).map (·.1)
  s.completeOuts
    (fun o => match o.wait with
      | .fence es _ => es.any fun e => e.1 == q && openQ.contains e.2
      | _ => false)
    (fun o s => (s.refuse o.cmd 0x31).updQ o.cmd.q fun k => { (if s.wideFence o.cmd then k.fenceOver else k) with fenceAt := none })

/-- Untaken descriptors are discarded. -/
def Queue.discard (k : Queue) : Queue :=
  { k with sqHead := k.sqTail, vis := [], areas := k.areas.filter fun a => !(k.vis.any fun v => v.id == a.1) }

/-- The taken commands of a Queue are marked: their completions are discarded from here on (Table 11.8). -/
def State.markDead (s : State) (q : Fin 32) : State :=
  { (s.updQ q fun k => { k with waiting := k.waiting.map fun t => { t with dead := true } }) with
    outs := s.outs.map fun o => if o.cmd.q == q then { o with cmd := { o.cmd with dead := true } } else o
    rest := s.rest.map fun t => if t.q == q then { t with dead := true } else t }

/-- The rings of a Queue are reset: what is on its way out of them has no entry to free any more (Table 11.8, R464). -/
def State.freshRings (s : State) (q : Fin 32) : State :=
  let cut (m : TxMsg) : TxMsg := match m.frees with
    | some (p, _) => if p == q then { m with frees := none } else m
    | none => m
  let gone : List Nat := (s.net.txA ++ s.net.txB ++ s.net.txC).filterMap fun m => match m.frees with
    | some (p, some id) => if p == q then some id else none
    | _ => none
  let resp (e : TwEnt) : TwEnt := if e.q == q then { e with frees := none } else e
  let s1 := s.updQ q fun k => { k.resetRings with areas := k.areas.filter fun a => !gone.contains a.1 }
  { s1 with
    net := { s1.net with txA := s1.net.txA.map cut, txB := s1.net.txB.map cut, txC := s1.net.txC.map cut }
    tw := { s1.tw with resp := s1.tw.resp.map resp } }

/-- EN set to 1, or enable by command. -/
def State.queueEnable (s : State) (q : Fin 32) : State :=
  if (s.qs[q]).st == .disabled then (s.freshRings q).updQ q fun k => { k with st := .run } else s

/-- EN set to 0, or disable by command. -/
def State.queueDisable (s : State) (q : Fin 32) : State :=
  match (s.qs[q]).st with
  | .disabled => s
  | .run =>
    -- its taken commands finish before STATE leaves RUN, and the others are discarded, so no FENCE is aborted (R419)
    (s.updQ q fun k => { k.discard with disabling := true }).updQ q Queue.settle
  | .stopped => ((s.markDead q).updQ q fun k => { k.discard with disabling := true }).updQ q Queue.settle

/-- A double-bit error in the rings or the data window (Table 1.5). -/
def State.queueStop (s : State) (q : Fin 32) : State :=
  if (s.qs[q]).st == .run then
    (((s.updQ q fun k => { k with st := .stopped, discarded := 0 }).abortFences q).markDead q).postOnly 0x0703
      (rQueue q) []
  else s

/-- RESTART, or restart by command; nothing for a Queue that is not STOPPED (R399). -/
def State.queueRestart (s : State) (q : Fin 32) : State :=
  if (s.qs[q]).st == .stopped then
    let n := (s.qs[q]).discarded
    (((s.updQ q Queue.discard).freshRings q).updQ q fun k => { k with st := .run, disabling := false }).postOnly 0x0704 (rQueue q) (le 2 (min 65535 n))
  else s

/-! ### Writes that apply -/

def finOf (n x : Nat) (h : 0 < n) : Fin n := ⟨x % n, Nat.mod_lt x h⟩

/-- The binding fields that Q_CFG writes (R382). -/
def Queue.bind (k : Queue) (ord v : Nat) : Queue :=
  if ord == 0 then { k with isEvent := v == 1 }
  else if ord == 1 then { k with cls := if v == 1 then .a else if v == 2 then .b else .c }
  else if ord == 2 then
    { k with path := if v == 0 then .network else if v == 1 then .spi else if v == 2 then .tw1 else .none }
  else if ord == 3 then { k with owner := some (finOf 16 v (by decide)) }
  else if ord == 4 then { k with dlog := v }
  else { k with dest := v }

/-- An entry of the owner map or of the resource owners replaced. -/
def setAssoc {α : Type} (l : List (Nat × α)) (k : Nat) (v : α) : List (Nat × α) :=
  (k, v) :: l.filter (fun p => p.1 != k)

/-- Resources whose owner a resource number stands for: a Bank stands for its 16 Channels. -/
def ownedUnits (r : Nat) : List Nat :=
  if 0x40 ≤ r && r < 0x44 then (List.range 16).map (fun k => (r - 0x40) * 16 + k) else [r]

/-- Frames for which the latch of an input stays invalid after a new filter word (R120): CIC settling, and 1.46 Q/f0
for the notch, rounded up to whole Frames. -/
def filterFrames (w : Word) : Nat :=
  let n : Nat := w.toNat / 256 % 4 + 1
  let d : Nat := w.toNat % 256 + 1
  let cic : Nat := n * (d - 1) + 1
  if w.getLsbD 31 then
    let qcode : Nat := w.toNat / 2 ^ 27 % 16
    let f0 : Nat := w.toNat / 2 ^ 11 % 2 ^ 16
    -- (1.46 Q / f0) / 4 us with f0 = F0CODE * (5 MHz / D) / 65,536 and Q = 2^((QCODE - 2)/2)
    let q : ℚ := if qcode % 2 == 0 then (2 : ℚ) ^ ((qcode : Int) / 2 - 1)
      else (2 : ℚ) ^ (((qcode : Int) - 1) / 2 - 1) * root 2
    let fr : ℚ := if f0 == 0 then 0 else 146 / 100 * q * 65536 * d / (f0 * 5000000) * 250000
    (Rat.ceil ((cic : ℚ) / 20 + fr)).toNat
  else (cic + 19) / 20

/-- The inputs that a new mask, mode or sequence brings into use start with their filters cleared (R103). -/
def Group.bring (old new : Group) : Group :=
  { new with
    inval := Vector.ofFn fun i => if new.enabled i && !old.enabled i then filterFrames new.filt[i] else new.inval[i]
    flt := Vector.ofFn fun i => if new.enabled i && !old.enabled i then (new.flt[i]).clear new.filt[i] else new.flt[i] }

/-- What a whole SNS_MASK brings into use, its mask, mode and sequence taken together (R103). -/
def State.bringUp (s old : State) : State := { s with grp := Vector.ofFn fun g => (old.grp[g]).bring s.grp[g] }

/-- The result slot with the higher sequence (R245). -/
def CreepSt.newest (k : CreepSt) : Option CrSlot :=
  match k.slot0, k.slot1 with
  | some a, some b => if b.seq > a.seq then some b else some a
  | some a, none => some a
  | none, b => b

/-- A ratio as the Firn records hold it: 16 bits of 1/4,096 (Table 6.7). -/
def ratio16 (x : ℚ) : ℚ := (satU 2 (rnd (x * 4096)) : ℚ) / 4096

/-- The bytes of a result slot (Table 6.7). -/
def CrSlot.bytes (x : CrSlot) : List Byte :=
  let body := le 4 x.seq ++ repU 2 (x.rho * 4096) ++ repU 2 (x.zratio * 4096) ++ le 2 x.fsoa ++ le 1 x.creepk ++ le 1 x.red ++
    le 4 x.lifeRon ++ le 4 x.lifeZth ++ List.replicate 8 0
  body ++ le 4 (crc32c body).toNat

/-- The bytes of the baseline block (Table 6.7). -/
def CreepSt.baseBytes (k : CreepSt) : List Byte :=
  let body := le 4 k.baseSeq ++ le 2 Config.formatVersion.toNat ++ le 2 (bit k.ronLearned + 2 * bit k.zthLearned) ++
    repU 4 (k.ron0 * 1000000000) ++ repU 4 (k.zth0 * 1000000) ++ le 1 k.basePlen ++ List.replicate 11 0
  body ++ le 4 (crc32c body).toNat

/-- The applied results written to the alternate slot, with a sequence one higher (R241, R246). -/
def CreepSt.store (k : CreepSt) : CreepSt :=
  let seq := match k.newest with | some x => x.seq + 1 | none => 0
  let x : CrSlot := ⟨seq, ratio16 k.rho, ratio16 k.zratio, k.fsoa, k.creepk, k.red, k.lifeRon, k.lifeZth⟩
  let second : Bool := match k.slot0, k.slot1 with
    | some a, some b => a.seq > b.seq
    | some _, none => true
    | none, _ => false
  if second then { k with slot1 := some x } else { k with slot0 := some x }

/-- Results go to Firn unless a power-fail warning stands (R76). -/
def CreepSt.storeUnless (pfw : Bool) (k : CreepSt) : CreepSt := if pfw then k else k.store

/-- A Creep rebase: applied values 1.000, 0 K and 0, windows and history empty, learned baselines learned again
(R247). -/
def CreepSt.rebase (c : CreepSt) : CreepSt :=
  { c with fsoa := 1000, creepk := 0, red := 0, winRon := [], winZth := [], hist := [], ronLearned := false
           zthLearned := false, ron0 := 0, zth0 := 0, rho := 1, zratio := 1, isNew := false, baseSeq := c.baseSeq + 1
           histRho := 0, probe := none, probeCut := false }

/-- A RETIRED Phase returns to its configured role with its baseline and capability history cleared (R256). -/
def Phase.rebase (role : PhState) (p : Phase) : Phase :=
  if p.st == .retired then { p with st := role, rph := [], rph0 := 0, krLow := 0 } else p

/-- The configured role of a Phase by PHMASK and SPMASK (R257). -/
def State.phRole (s : State) (i : Fin 16) : PhState :=
  if s.cvf Fld.PHMASK / 2 ^ i.val % 2 == 0 then .none
  else if s.cvf Fld.SPMASK / 2 ^ i.val % 2 == 1 then .spare else .shed

/-- One staged write applied. SNS_INJ puts new definitions in place of the old ones, so the lost counters start again
(log 143). -/
def State.applyWrite (s : State) (w : FKey × Nat) : State :=
  let k := w.1
  let v := w.2
  let g : Fin 5 := finOf 5 (k.res - 0x150) (by decide)
  let q : Fin 32 := finOf 32 (k.res - 0x160) (by decide)
  if k.code == 0x52 && k.ord == 12 then
    s.updCh (finOf 64 k.res (by decide)) fun c => { c with ambHost := some v, ambHostAt := s.fr.count, ambFb := false }
  else if k.code == 0x52 && k.ord == 10 && k.res < 64 then
    -- another ambient source: its fallback is a new one (R182)
    let n : Fin 64 := finOf 64 k.res (by decide)
    let s1 := if s.lf n Fld.AMBSRC == v then s else s.updCh n fun c => { c with ambFb := false }
    { s1 with settings := storeSet k v s1.settings }
  else if k.code < 0x100 then { s with settings := storeSet k v s.settings }
  else if k.code == kOwnerMap then
    { s with owners := setAssoc s.owners k.res (if v < 16 then some (finOf 16 v (by decide)) else none) }
  else if k.code == kOwnerRes then
    { s with resOwner := (ownedUnits k.res).foldl (fun l r => setAssoc l r (finOf 16 v (by decide))) s.resOwner }
  else if k.code == kQCfg then s.updQ q fun x => x.bind k.ord v
  else if k.code == kQCtl then
    (if v == 0 then s.queueDisable q else if v == 1 then s.queueEnable q else s.queueRestart q)
  else if k.code == kVioClear then { s with vio := [], vioOver := 0 }
  else if k.code == kMask then
    s.updGrp g fun x =>
      if k.ord == 0 then { x with mask := BitVec.ofNat 32 v }
      else if k.ord == 1 then { x with seqMode := v == 1 }
      else { x with seq := x.seq.set (k.idx % 16) (BitVec.ofNat 16 v) (Nat.mod_lt _ (by decide)) }
  else if k.code == kGain then
    s.updGrp g fun x => { x with gain := x.gain.set (k.idx % 32) (BitVec.ofNat 2 v) (Nat.mod_lt _ (by decide)) }
  else if k.code == kFilter then
    s.updGrp g fun x => { x with
      filt := x.filt.set (k.idx % 32) (BitVec.ofNat 32 v) (Nat.mod_lt _ (by decide))
      inval := x.inval.set (k.idx % 32) (filterFrames (BitVec.ofNat 32 v)) (Nat.mod_lt _ (by decide))
      flt := x.flt.set (k.idx % 32) ((x.flt[k.idx % 32]'(Nat.mod_lt _ (by decide))).clear (BitVec.ofNat 32 v)) (Nat.mod_lt _ (by decide)) }
  else if k.code == kInj then
    s.updGrp g fun x =>
      if k.ord == 0 then { x with injPeriod := v, injFrom := s.fr.count, injLost := Vector.replicate 8 0 }
      else { x with inj := x.inj.set (k.idx % 8) (BitVec.ofNat 32 v) (Nat.mod_lt _ (by decide)) }
  else if k.code == kAcoh then { s with acoh := v }
  else if k.code == kWake then
    (if k.ord == 0 then { s with krg := { s.krg with wakeS := v } }
     else { s with krg := { s.krg with wakeMask := BitVec.ofNat 3 v } })
  else if k.code == kSwap then { s with bat := { s.bat with swapPend := true } }
  else if k.code == kRebase && k.res < 64 then
    -- a change of applied values: the next result slot and its record (R241)
    let n : Fin 64 := finOf 64 k.res (by decide)
    (s.updCh n fun c => { c with creep := c.creep.rebase.storeUnless s.pw.pfw }).iceRecord 0x0123 n.val 0
      (le 2 1000 ++ le 1 0 ++ le 1 0)
  else if k.code == kRebase then
    { s with cv := { s.cv with ph := Vector.ofFn fun i =>
        if v / 2 ^ i.val % 2 == 1 then (s.cv.ph[i]).rebase (s.phRole i) else s.cv.ph[i] } }
  else if k.code == kOrder then
    { s with zone := { s.zone with order := if k.idx == 0 then [BitVec.ofNat 32 v] else
        s.zone.order ++ [BitVec.ofNat 32 v] } }
  else s

def State.applyWrites (s : State) (l : List (FKey × Nat)) : State := overL l (fun w s => s.applyWrite w) s

/-- The state that the accepted writes will leave, against which a later command is checked before they apply (R405,
R437). -/
def State.pended (s : State) : State := s.applyWrites (s.staged.flatMap fun x => x.writes)

/-- The staged writes that are due apply in their order. -/
def State.applyStaged (s : State) (due : DueAt) : State :=
  overL (s.staged.filter fun x => x.due == due) (fun x s => (s.applyWrites x.writes).bringUp s)
    { s with staged := s.staged.filter fun x => x.due != due }

/-! ### Taking commands -/

/-- The input bytes of a descriptor's area (R389). -/
def State.areaBytes (s : State) (q : Fin 32) (d : CmdArgs) : List Byte :=
  if d.flags.getLsbD 0 && d.doff.toNat * 16 + d.dlen.toNat ≤ 8192 then
    memReadN s.qmem (winAddr q + 16 * d.doff.toNat) d.dlen.toNat
  else []

/-- Class A commands outstanding across all Class A Queues: visible and not complete, on the network path until the hand-over
(R408, R409). -/
def State.outstandingA (s : State) : Nat :=
  ((allQ.filter fun q => (s.qs[q]).cls == .a && !(s.qs[q]).isEvent).map fun q =>
    (s.qs[q]).vis.length + (s.qs[q]).nTaken).sum + (s.net.txA.filter fun m => m.lat.isSome).length

/-- What is kept of a descriptor that becomes visible now in a Queue. -/
def State.newVis (s : State) (q : Fin 32) (src : Nat) (mseq : Word) (exempt : Bool) (rlen : Option Nat := none) : Vis :=
  ⟨s.fr.count, src, mseq, (s.qs[q]).nIn, (s.qs[q]).cls == .a && s.outstandingA ≥ 8, exempt, rlen⟩

/-- A Queue from which a command can be taken. -/
def State.takeable (s : State) (q : Fin 32) : Bool :=
  let k := s.qs[q]
  (s.live || (s.upd.recovery && q == 4)) && !k.isEvent && k.st == .run && !k.disabling && k.canReserve

/-- A FENCE of a Queue that has not completed holds the commands behind it (R417). -/
def State.fenced (s : State) (q : Fin 32) : Bool :=
  s.outs.any fun o => o.cmd.q == q && o.cmd.op == 0x0701

/-- A command is taken: it reserves its completion entry, and the R412 count is kept here. -/
def State.took (s : State) (t : Taken) : State :=
  let s1 := s.updQ t.q fun k => { k with nTaken := k.nTaken + 1 }
  if t.vis.ninth then { s1 with nBeyond := min 65535 (s1.nBeyond + 1) } else s1

/-- A taken command is executed, or waits behind a FENCE of its Queue (R417). -/
def State.begin (s : State) (t : Taken) (f : Taken → State → State) : State :=
  if s.fenced t.q || !(s.qs[t.q]).waiting.isEmpty then s.updQ t.q fun k => { k with waiting := k.waiting ++ [t] }
  else f t s

/-- A command is taken and executed. -/
def State.start (s : State) (t : Taken) (f : Taken → State → State) : State := (s.took t).begin t f

/-- The Supervisor executes a descriptor of Queue q that is given with the command: a descriptor that cannot be taken
(no Frames, Queue not in RUN, completion ring full) has no effect (log 17). -/
def State.rowCmd (s : State) (f : Taken → State → State) (op : Nat) (q : Fin 32) (d : CmdArgs) : State :=
  if s.takeable q then
    let k := s.qs[q]
    let v := s.newVis q 0 0 false
    let t : Taken := ⟨q, BitVec.ofNat 16 op, d, s.areaBytes q d, k.owner, s.resOwner, v, false⟩
    (s.updQ q fun k => { k with nIn := k.nIn + 1 }).start t f
  else s

/-- A descriptor with its sub-action byte 16 as the row of the table names it. -/
def withAction (d : CmdArgs) (a : Nat) : CmdArgs := { d with param := BitVec.ofNat 8 a :: d.param.drop 1 }

/-- The next descriptor of a Queue's ring, taken from it. -/
def State.takeRing (s : State) (q : Fin 32) : Option (Taken × State) :=
  let k := s.qs[q]
  match k.vis with
  | [] => none
  | v :: rest =>
    if s.takeable q then
      let b := memReadN s.qmem (sqBase q + 64 * k.sqHead) 64
      let (op, d) := parseDesc b
      some (⟨q, op, d, s.areaBytes q d, k.owner, s.resOwner, v, false⟩,
        s.updQ q fun k => { k with sqHead := (k.sqHead + 1) % k.depth, vis := rest })
    else none

/-! ### Doorbells (R393-R398) -/

/-- The Queue is on the SPI path and bound to the owner to which the SPI host port maps. -/
def State.spiOwns (s : State) (q : Fin 32) : Bool :=
  (s.qs[q]).path == .spi && (s.upd.recovery || ((s.qs[q]).owner == s.srcOwner 0x400 && (s.srcOwner 0x400).isSome))

/-- A violation by the SPI host at a register or queue-memory address; VIO of its frame's STS is set (R471). -/
def State.spiViolation (s : State) (kind : Nat) (q : Option (Fin 32)) (addr : Nat) : State :=
  let s1 := s.violation kind 1 (s.srcOwner 0x400) q addr
  { s1 with spi := { s1.spi with sts := s1.spi.sts ||| 0x80000000#32 } }

/-- n descriptors become visible in a Queue. -/
def State.addVis (s : State) (q : Fin 32) (n : Nat) : State :=
  overL (List.range n) (fun _ s =>
    let v := s.newVis q 0 0 false
    s.updQ q fun k => { k with vis := k.vis ++ [v], nIn := k.nIn + 1 }) s

/-- A write of QM_SQDBn over the SPI host port; reserved bits are not looked at (log 150). -/
def State.sqdb (s : State) (q : Fin 32) (w : Word) : State :=
  let k := s.qs[q]
  let i := w.toNat % 256
  if i ≥ k.depth || !s.spiOwns q || k.isEvent then s.spiViolation 3 (some q) (0x0100 + 8 * q.val)
  else
    let n := (i + k.depth - k.sqTail) % k.depth
    (s.updQ q fun k => { k with sqTail := i }).addVis q n

/-- Descriptors that waited for a free completion entry become visible as entries are freed (R407). -/
def visFreed (now free0 free1 : Nat) (l : List Vis) : List Vis :=
  l.zipIdx.map fun (v, i) => if free0 ≤ i && i < free1 then { v with frame := now } else v

/-- Entries of a Queue freed up to a new completion head. -/
def State.freeTo (s : State) (q : Fin 32) (i : Nat) : State :=
  let k := s.qs[q]
  let free0 := k.depth - 1 - k.held - k.nTaken
  let freed := (i + k.depth - k.cqHead) % k.depth
  (s.updQ q fun k => { k with cqHead := i, vis := visFreed s.fr.count free0 (free0 + freed) k.vis }).drain q

/-- A write of QM_CQDBn over the SPI host port; reserved bits are not looked at (log 150). -/
def State.cqdb (s : State) (q : Fin 32) (w : Word) : State :=
  let k := s.qs[q]
  let i := w.toNat % 256
  if i ≥ k.depth || !s.spiOwns q || (i + k.depth - k.cqHead) % k.depth > k.held then
    s.spiViolation 3 (some q) (0x0104 + 8 * q.val)
  else s.freeTo q i

/-- A write of QM_QCTLn over the SPI host port (R399, Table 11.7); reserved bits are not looked at (log 150). -/
def State.qctl (s : State) (q : Fin 32) (w : Word) : State :=
  if !s.spiOwns q then s.spiViolation 8 (some q) (0x0204 + 8 * q.val)
  else
    let s1 := s.updQ q fun k => { k with ie := w.getLsbD 2 }
    let s2 := if w.getLsbD 1 then s1.queueRestart q else s1
    if w.getLsbD 0 then s2.queueEnable q else s2.queueDisable q

/-- A write of QM_WINBASE (R385). Reserved bits of a written word are not looked at, here and in the other registers (log 150). -/
def State.setWinbase (s : State) (w : Word) : State :=
  let b := w.toNat % 256
  if b > 248 then s.spiViolation 2 none 0x0300 else { s with winBase := b }

/-! ### Meanings: Queue, owner and FENCE commands of group 0x07 -/

/-- The checks of cmdFence beside the ones that every command has (R433). -/
def chkFence (t : Taken) (s : State) : List (Nat × Bool) :=
  let scope := t.p 16 4
  [(0x22, scope / 2 ^ 28 != 0)]

/-- FENCE (R415-R419). A Queue whose taken commands keep it in RUN counts (Table 11.8). What became visible in the FENCE's own Frame counts as earlier (log 166). -/
def cmdFence (t : Taken) (s : State) : State :=
  let scope := t.p 16 4
  s.guarded t (chkFence t s) fun s =>
    let qs := allQ.filter fun q =>
      scope / 2 ^ q.val % 2 == 1 && q != t.q && (s.qs[q]).st == .run
    if qs.isEmpty then s.complete t 0 none
    else
      let es := qs.flatMap fun q =>
        ((s.openIds q).filter fun v => v.2 ≤ t.vis.frame).map fun v => (q, v.1)
      s.await t (.fence es s.fr.count)

/-- The checks of cmdOwnerMap beside the ones that every command has (R433). -/
def chkOwnerMap (t : Taken) (s : State) : List (Nat × Bool) :=
  let src := t.p 16 2
  let o := t.p 18 1
  let after := setAssoc s.pended.owners src (if o < 16 then some (finOf 16 o (by decide)) else none)
  let some0 := [0, 0x400, 0x401].any (fun k =>
      match after.find? (fun p => p.1 == k) with | some p => p.2 == some 0 | none => true) ||
    after.any (fun p => p.2 == some 0)
  [(0x22, !(src ≤ 0x3FE || src == 0x400 || src == 0x401) || (o ≥ 16 && o != 0xFF)), (0x12, !some0)]

/-- OWNER_MAP (R380, R381): a change that leaves owner 0 with no mapped source is refused. -/
def cmdOwnerMap (t : Taken) (s : State) : State :=
  let src := t.p 16 2
  let o := t.p 18 1
  s.guarded t (chkOwnerMap t s) fun s => s.stage t .tick [(⟨kOwnerMap, src, 0, 0⟩, o)]

/-- The checks of cmdOwnerRes beside the ones that every command has (R433). -/
def chkOwnerRes (t : Taken) (s : State) : List (Nat × Bool) :=
  let o := t.p 16 1
  [(0x22, o ≥ 16)]

/-- OWNER_RES (R381, R443): moving a Class A Channel takes a credential. -/
def cmdOwnerRes (t : Taken) (s : State) : State :=
  let o := t.p 16 1
  let movesA := (ownedUnits t.target).any fun r =>
    if h : r < 64 then (s.ch[r]).tmb.classA && (s.ownerOf r).val != o else false
  s.guardedCred t movesA (chkOwnerRes t s) fun s => s.stage t .tick [(⟨kOwnerRes, t.target, 0, 0⟩, o)]

/-- The checks of cmdQCfg beside the ones that every command has (R433). -/
def chkQCfg (t : Taken) (s : State) : List (Nat × Bool) :=
  let q : Fin 32 := finOf 32 (t.target - 0x160) (by decide)
  let bad := t.p 16 1 > 1 || t.p 17 1 == 0 || t.p 17 1 > 3 || t.p 18 1 > 3 || t.p 19 1 > 15 || t.p 20 1 > 5 ||
    t.p 22 2 > 0x3FE || (t.p 16 1 == 1 && t.p 17 1 != 1)
  [(0x22, bad), (0x12, (s.pended.qs[q]).st != .disabled)]

/-- Q_CFG (R382): only of a DISABLED Queue; every event Queue is Class A. -/
def cmdQCfg (t : Taken) (s : State) : State :=
  s.guarded t (chkQCfg t s) fun s =>
    s.stage t .tick ([(0, t.p 16 1), (1, t.p 17 1), (2, t.p 18 1), (3, t.p 19 1), (4, t.p 20 1), (5, t.p 22 2)].map
      fun p => (⟨kQCfg, t.target, p.1, 0⟩, p.2))

/-- The checks of cmdQCtl beside the ones that every command has (R433). -/
def chkQCtl (t : Taken) (s : State) : List (Nat × Bool) :=
  [(0x22, t.p 16 1 > 2)]

/-- Q_CTL for one of its three actions (R399). The owner of the Queue acted on is not checked: the command is owner
0's. -/
def cmdQCtl (t : Taken) (s : State) : State :=
  s.guarded t (chkQCtl t s) fun s => s.stage t .tick [(⟨kQCtl, t.target, 0, 0⟩, t.p 16 1)]

/-- VIO_CLEAR (R428). -/
def cmdVioClear (t : Taken) (s : State) : State :=
  s.guarded t [] fun s => s.stage t .tick [(⟨kVioClear, 0, 0, 0⟩, 0)]

def execFence (q : Fin 32) (d : CmdArgs) (s : State) : Host.Outcome State Fault Refusal :=
  .next (s.rowCmd cmdFence 0x0701 q d)
def execOwnerMap (q : Fin 32) (d : CmdArgs) (s : State) : Host.Outcome State Fault Refusal :=
  .next (s.rowCmd cmdOwnerMap 0x0705 q d)
def execOwnerRes (q : Fin 32) (d : CmdArgs) (s : State) : Host.Outcome State Fault Refusal :=
  .next (s.rowCmd cmdOwnerRes 0x0706 q d)
def execQCfg (q : Fin 32) (d : CmdArgs) (s : State) : Host.Outcome State Fault Refusal :=
  .next (s.rowCmd cmdQCfg 0x0707 q d)
def execQCtlDisable (q : Fin 32) (d : CmdArgs) (s : State) : Host.Outcome State Fault Refusal :=
  .next (s.rowCmd cmdQCtl 0x0708 q (withAction d 0))
def execQCtlEnable (q : Fin 32) (d : CmdArgs) (s : State) : Host.Outcome State Fault Refusal :=
  .next (s.rowCmd cmdQCtl 0x0708 q (withAction d 1))
def execQCtlRestart (q : Fin 32) (d : CmdArgs) (s : State) : Host.Outcome State Fault Refusal :=
  .next (s.rowCmd cmdQCtl 0x0708 q (withAction d 2))
def execVioClear (q : Fin 32) (d : CmdArgs) (s : State) : Host.Outcome State Fault Refusal :=
  .next (s.rowCmd cmdVioClear 0x0709 q d)

end Sys2Proof.Machine
end

