-- ==== Sys2Proof/Machine/Capture.lean ====
section
/-! DEFINITION. The capture engine: streams, triggers and the capture commands of group 0x05 (R124-R130, R325, R468). -/

namespace Sys2Proof.Machine

open Sys2Proof

/-- Source 0 raw, 1 filter output, 2 injection results, 3 CE variable (Tables 3.13, 12.7). -/
def capWide (src : Nat) : Bool := src == 1 || src == 3
def capWordsPerPage (src : Nat) : Nat := if capWide src then 1024 else 2048
/-- Length of a stream in words, and its pre-trigger share (R126). -/
def Stream.size (c : Stream) : Nat := c.pages * capWordsPerPage c.src
def Stream.preWords (c : Stream) : Nat := c.size * c.pre / 16

/-- What a word or a level stands for: SAMPLE of a 16-bit word, a filter output, the single of a CE variable. -/
def capLevel (src w : Nat) : ℚ :=
  if src == 3 then (singleVal w).getD 0
  else if src == 1 then (((BitVec.ofNat 24 w).toInt : Int) : ℚ)
  else (((BitVec.ofNat 14 (w / 4)).toInt : Int) : ℚ)

/-- The level of the trigger parameter: in the scale of capLevel, given as SAMPLE counts for 16-bit words (log 19). -/
def capThreshold (c : Stream) : ℚ :=
  if c.src == 3 then (singleVal c.trigParam.toNat).getD 0
  else if c.src == 1 then (((BitVec.ofNat 24 c.trigParam.toNat).toInt : Int) : ℚ)
  else (((BitVec.ofNat 14 c.trigParam.toNat).toInt : Int) : ℚ)

/-- A level crossing between two consecutive words, by direction 0 rising, 1 falling, 2 either. -/
def capCrosses (dir : Nat) (level prev cur : ℚ) : Bool :=
  let up := prev < level && level ≤ cur
  let down := level < prev && cur ≤ level
  (dir == 0 && up) || (dir == 1 && down) || (dir == 2 && (up || down))

/-- The trigger moves an ARMED stream to TRIGGERED with the words it holds of its pre-trigger share (R125, R126). -/
def Stream.fire (c : Stream) : Stream :=
  if c.st == 1 then
    let held := c.words.drop (c.words.length - c.preWords)
    { c with st := 2, words := held, gone := c.gone + (c.words.length - held.length), trigIdx := held.length, postLeft := c.size - c.preWords }
  else c

/-- One word written into a stream: while ARMED the pages are a ring; the word that crosses the level is itself the
trigger word. -/
def Stream.feed (c : Stream) (w : Nat) : Stream :=
  if c.st == 1 then
    let v := capLevel c.src w
    let hit := c.trig == 1 && (match c.lastLvl with
      | some p => capCrosses c.dir (capThreshold c) p v
      | none => false)
    let c1 := { c with lastLvl := some v }
    if hit then
      let c2 := c1.fire
      if c2.postLeft == 0 then c2 else { c2 with words := c2.words ++ [(w, false)], postLeft := c2.postLeft - 1 }
    else
      let l := c1.words ++ [(w, false)]
      { c1 with words := l.drop (l.length - c.size), gone := c1.gone + (l.length - c.size) }
  else if c.st == 2 && c.postLeft != 0 then
    { c with words := c.words ++ [(w, false)], postLeft := c.postLeft - 1 }
  else c

/-- The stream whose trigger a stream uses: its own, or that of the stream it is linked to, link by link (Table 3.14). -/
def capRoot (cap : Vector Stream 16) : Nat → Fin 16 → Fin 16
  | 0, i => i
  | k + 1, i =>
    if (cap[i]).trig == 6 then capRoot cap k (finOf 16 (cap[i]).trigParam.toNat (by decide)) else i

/-- Whether a stream uses the trigger of stream i, itself or through links. -/
def capUses (cap : Vector Stream 16) (i : Fin 16) : Nat → Fin 16 → Bool
  | 0, j => j == i
  | k + 1, j =>
    j == i || ((cap[j]).trig == 6 && capUses cap i k (finOf 16 (cap[j]).trigParam.toNat (by decide)))

/-- The ARMED streams linked to stream i trigger with it, at the same tick (R127). -/
def State.fireLinked (s : State) (i : Fin 16) : State :=
  { s with cap := Vector.ofFn fun j => if j != i && capUses s.cap i 16 j then (s.cap[j]).fire else s.cap[j] }

/-- A stream is triggered, and with it those linked to it. -/
def State.fireStream (s : State) (i : Fin 16) : State :=
  if (s.cap[i]).st == 1 then (s.updCap i Stream.fire).fireLinked i else s

/-- Every ARMED stream whose trigger, its own or the one it is linked to, satisfies a condition is triggered. -/
def State.fireWhere (s : State) (p : Stream → Bool) : State :=
  { s with cap := Vector.ofFn fun j => if p s.cap[capRoot s.cap 16 j] then (s.cap[j]).fire else s.cap[j] }

/-- The Frame-count trigger, at the tick of its 32-bit count. -/
def State.fireCount (s : State) : State :=
  s.fireWhere fun c => c.trig == 5 && c.trigParam.toNat == s.fr.count % 2 ^ 32

/-- The Channel-event trigger: Channel in [5:0]; [8] any trip, [9] SHORT_RAMP, [10] FET_SHORT, [11] arc decision,
[12] any state change (Table 12.7). -/
def State.capChannel (s : State) (n : Fin 64) (tripped : Bool) (cause : Cause) : State :=
  s.fireWhere fun c =>
    c.trig == 2 && c.trigParam.toNat % 64 == n.val &&
      ((c.trigParam.getLsbD 8 && tripped) || (c.trigParam.getLsbD 9 && cause == .shortRamp) ||
        (c.trigParam.getLsbD 10 && cause == .fetShort) || (c.trigParam.getLsbD 11 && cause == .arc) ||
        c.trigParam.getLsbD 12)

/-- Words go to the streams; a level that one of them crosses triggers the streams linked to it at the tick (R127). In THROTTLE the
engine writes no words (R566). -/
def State.feedStreams (s : State) (words : Stream → List Nat) : State :=
  if s.th.level ≥ 2 then s
  else
    let cap := s.cap.map fun c => (words c).foldl Stream.feed c
    let hit := (List.finRange 16).filter fun k => (s.cap[k]).st == 1 && (cap[k]).st == 2
    overL hit (fun k s => s.fireLinked k) { s with cap := cap }

/-- The trigger of a fault-class record: it acts at the tick of the Frame in which the record entered the buffer, before that Frame's
words (R127). -/
def State.fireRecord (s : State) : State := if s.ice.flushDue then s.fireWhere fun c => c.trig == 4 else s

/-- Every stream to IDLE with its content discarded (R130). -/
def Stream.clear (c : Stream) : Stream :=
  { c with st := 0, words := [], gone := c.gone + c.words.length, postLeft := 0, trigIdx := 0, lastLvl := none }

/-! ### Commands -/

def streamIx (t : Taken) : Fin 16 := finOf 16 (t.target - 0x180) (by decide)

/-- The CE variables of Table 8.9. -/
def ceVarOk (c : Nat) : Bool := c ≤ 0x0B || (0x10 ≤ c && c < 0x38)

/-- The staged actions on a stream: CAP_CFG fields 0-7, 8 arm, 9 trigger, 10 release. CAP_ARM acts on an IDLE
stream alone: for one that is ARMED or TRIGGERED it is accepted and has no effect (R125, log 185). -/
def Stream.write (c : Stream) (o v : Nat) : Stream :=
  if o == 0 then { c with configured := true, src := v }
  else if o == 1 then { c with item := v }
  else if o == 2 then { c with group := v }
  else if o == 3 then { c with pre := v }
  else if o == 4 then { c with pages := v }
  else if o == 5 then { c with trig := v }
  else if o == 6 then { c with dir := v % 4, freeze := v / 4 % 2 == 1 }
  else if o == 7 then { c with trigParam := BitVec.ofNat 32 v }
  else if o == 8 then (if c.st == 0 then { c.clear with st := 1 } else c)
  else if o == 10 then c.clear
  else c

/-- A stream as accepted commands leave it (R437). -/
def State.capPended (s : State) (i : Fin 16) : Stream :=
  ((s.staged.flatMap fun x => x.writes).filter fun w => w.1.code == kCap && w.1.res == i.val).foldl (fun c w => c.write w.1.ord w.2) s.cap[i]

/-- The checks of cmdCapCfg beside the ones that every command has (R433). -/
def chkCapCfg (t : Taken) (s : State) : List (Nat × Bool) :=
  let i := streamIx t
  let src := t.p 16 1
  let item := t.p 17 1
  let trig := t.p 22 1
  let fl := t.p 23 1
  let others := ((List.finRange 16).map fun j => if j == i then 0 else (s.capPended j).pages).sum
  let prm := t.p 24 4
  let bad := src > 3 || (src ≤ 1 && item ≥ 32) || (src == 2 && item ≥ 8) || (src == 3 && !ceVarOk item) ||
    t.p 18 1 > 4 || t.p 19 1 > 16 || t.p 20 2 == 0 || t.p 20 2 > 512 || others + t.p 20 2 > 512 || trig > 6 ||
    fl / 8 != 0 || fl % 4 == 3 || (trig == 6 && (prm ≥ 16 || prm == i.val)) ||
    (trig == 2 && prm / 2 ^ 13 != 0) || (trig == 2 && prm / 64 % 4 != 0)
  [(0x22, bad), (0x12, (s.capPended i).st != 0)]

/-- CAP_CFG: the stream's fields and the page limits (R124). -/
def cmdCapCfg (t : Taken) (s : State) : State :=
  let i := streamIx t
  let src := t.p 16 1
  let item := t.p 17 1
  let trig := t.p 22 1
  let fl := t.p 23 1
  let prm := t.p 24 4
  s.guarded t (chkCapCfg t s) fun s =>
    s.stage t .tick (([src, item, t.p 18 1, t.p 19 1, t.p 20 2, trig, fl, prm].zipIdx).map
      fun (v, o) => (⟨kCap, i.val, o, 0⟩, v))

/-- The checks of cmdCapArm beside the ones that every command has (R433). -/
def chkCapArm (t : Taken) (s : State) : List (Nat × Bool) :=
  let c := s.capPended (streamIx t)
  [(0x12, c.st == 3 || c.st == 4 || !c.configured)]

/-- CAP_ARM moves an IDLE stream to ARMED; in DONE or FROZEN it is refused (R125). A stream that was never configured
owns no page and is refused too (log 20). -/
def cmdCapArm (t : Taken) (s : State) : State :=
  s.guarded t (chkCapArm t s) fun s =>
    s.stage t .tick [(⟨kCap, (streamIx t).val, 8, 0⟩, 0)]

/-- CAP_TRIG acts as the Command trigger. -/
def cmdCapTrig (t : Taken) (s : State) : State :=
  s.guarded t [] fun s => s.stage t .tick [(⟨kCap, (streamIx t).val, 9, 0⟩, 0)]

def cmdCapRelease (t : Taken) (s : State) : State :=
  s.guarded t [] fun s => s.stage t .tick [(⟨kCap, (streamIx t).val, 10, 0⟩, 0)]

/-- The bytes of captured words; a word with a double-bit error carries TAG 11, or [31] = 0 (R128). -/
def capBytes (src : Nat) (ws : List (Nat × Bool)) : List Byte :=
  ws.flatMap fun (w, bad) =>
    if capWide src then le 4 (if bad then w % 2 ^ 31 else w) else le 2 (if bad then w / 4 * 4 + 3 else w)

/-- The checks of cmdCapRead beside the ones that every command has (R433). -/
def chkCapRead (t : Taken) (s : State) : List (Nat × Bool) :=
  let c := s.cap[streamIx t]
  [(0x12, c.st != 3 && c.st != 4)]

/-- CAP_READ of a stream in DONE or FROZEN (R125). -/
def cmdCapRead (t : Taken) (s : State) : State :=
  let c := s.cap[streamIx t]
  s.guarded t (chkCapRead t s) fun s =>
    s.complete t 0 (some s.fr.count) (le 4 c.words.length ++ le 4 c.trigIdx)
      (capBytes c.src (c.words.drop (t.p 16 4)))

/-- The checks of cmdCapNet beside the ones that every command has (R433). -/
def chkCapNet (t : Taken) (s : State) : List (Nat × Bool) :=
  let dst := t.p 18 2
  let start := t.p 16 1 == 1
  let onT1 := s.net.nodes.any fun e => e.node == dst && e.link == .t1
  [(0x22, t.p 16 1 > 1 || (start && dst > 0x3FE)), (0x12, start && !onT1)]

/-- CAP_NET start: the destination must be a node that the node table places on 1000BASE-T1 (R468). -/
def cmdCapNet (t : Taken) (s : State) : State :=
  let i := streamIx t
  let dst := t.p 18 2
  let start := t.p 16 1 == 1
  s.guarded t (chkCapNet t s) fun s =>
    let rest := s.net.capNet.filter fun x => x.1 != i
    ({ s with net := { s.net with capNet := if start then rest ++ [(i, dst, (s.cap[i]).gone)] else rest } }).stage t .tick []

def execCapCfg (q : Fin 32) (d : CmdArgs) (s : State) : Host.Outcome State Fault Refusal :=
  .next (s.rowCmd cmdCapCfg 0x0510 q d)
def execCapArm (q : Fin 32) (d : CmdArgs) (s : State) : Host.Outcome State Fault Refusal :=
  .next (s.rowCmd cmdCapArm 0x0511 q d)
def execCapTrig (q : Fin 32) (d : CmdArgs) (s : State) : Host.Outcome State Fault Refusal :=
  .next (s.rowCmd cmdCapTrig 0x0512 q d)
def execCapRelease (q : Fin 32) (d : CmdArgs) (s : State) : Host.Outcome State Fault Refusal :=
  .next (s.rowCmd cmdCapRelease 0x0513 q d)
def execCapRead (q : Fin 32) (d : CmdArgs) (s : State) : Host.Outcome State Fault Refusal :=
  .next (s.rowCmd cmdCapRead 0x0514 q d)
def execCapNetStart (q : Fin 32) (d : CmdArgs) (s : State) : Host.Outcome State Fault Refusal :=
  .next (s.rowCmd cmdCapNet 0x0515 q (withAction d 1))
def execCapNetStop (q : Fin 32) (d : CmdArgs) (s : State) : Host.Outcome State Fault Refusal :=
  .next (s.rowCmd cmdCapNet 0x0515 q (withAction d 0))

/-- The post-trigger words of a stream are written: DONE, or FROZEN with its freeze attribute (R125). -/
def execCaptureDone (i : Fin 16) (s : State) : Host.Outcome State Fault Refusal :=
  .next (if (s.cap[i]).st == 2 && (s.cap[i]).postLeft == 0 then
    s.updCap i fun c => { c with st := if c.freeze then 4 else 3 } else s)

end Sys2Proof.Machine
end

