-- ==== Sys2Proof/Machine/Cfg.lean ====
section
/-! DEFINITION. Configuration commands: field records, their checks and their staging (R434-R437), and the commands
CH_CFG, CV_CFG, AUX_CFG, LAW_CFG, CAP_SET, HU_CFG, STAG_CFG, BAT_CFG, HINGE_CFG and PD_CFG. -/

namespace Sys2Proof.Machine

open Sys2Proof

/-- A field record (Table 12.4). -/
structure FRec where
  fld : Fld
  idx : Nat
  val : Nat
deriving DecidableEq, Repr

def parseRec (b : List Byte) : FRec := ⟨(getLe b 1 1, getLe b 0 1), getLe b 2 2, getLe b 4 4⟩

/-- n records from bytes. -/
def parseRecs : Nat → List Byte → List FRec
  | 0, _ => []
  | n + 1, b => parseRec (b.take 8) :: parseRecs n (b.drop 8)

def cfgNrec (t : Taken) : Nat := t.p 16 2
def cfgBank (t : Taken) : Bool := t.p 18 2 % 2 == 1
def cfgRebase (t : Taken) : Bool := t.p 18 2 / 2 % 2 == 1

/-- The records of a command: inline at bytes 24-63, or in the area behind the credential block (R434). -/
def cfgRecs (t : Taken) : List FRec := parseRecs (cfgNrec t) (if t.hasArea then t.body else t.d.param.drop 8)

/-- The form of the PARAM breaks R434 or Table 12.3. rebase says whether the opcode has a REBASE flag, bank whether it
has BANK, carg whether CARG is used with REBASE. Record bytes beyond NREC must be 0 (log 149). -/
def cfgFormBad (t : Taken) (rebase bank carg : Bool) : Bool :=
  let n := cfgNrec t
  let area := t.d.dlen.toNat - (if t.hasCred then 64 else 0)
  t.p 18 2 / 4 != 0 || (cfgBank t && !bank) || (cfgRebase t && !rebase) || (cfgBank t && cfgRebase t) ||
    (t.p 20 4 != 0 && !(carg && cfgRebase t && t.p 20 4 < 65536)) ||
    (n == 0 && !cfgRebase t) ||
    (if t.hasArea then n > 1024 || area != 8 * n || (t.hasCred && t.d.dlen.toNat < 64) || !paramClear [(16, 8)] t
     else n > 5 || !paramClear [(16, 8 + 8 * n)] t)

/-- A rule over the values the command would leave in force: the fields it speaks of, its status, whether it fails. -/
structure CRule where
  flds : List Fld
  status : Nat
  fails : Bool
deriving DecidableEq, Repr

/-- The value a field would have: the command's, else the present one combined with accepted writes (R437). -/
def State.newVal (s : State) (rs : List FRec) (res : Nat) (f : Fld) (idx : Nat := 0) : Nat :=
  match rs.find? (fun r => r.fld == f && r.idx == idx) with
  | some r => r.val
  | none => s.pendFld f res idx

/-- Failures of record i under R436, its field's range and the rules of its field. -/
def recFails (rs : List FRec) (codes : List Nat) (rules : List CRule) (i : Nat) (r : FRec) : List (Nat × Nat) :=
  let form := !codes.contains r.fld.1 || (fieldSpec r.fld).isNone || fieldComputed r.fld ||
    r.idx ≥ fieldCount r.fld || (rs.take i).any (fun x => x.fld == r.fld && x.idx == r.idx)
  if form || !fieldInRange r.fld r.val then [(0x22, i)]
  else (rules.filter fun c => c.flds.contains r.fld && c.fails).map fun c => (c.status, i)

/-- What one configuration command configures: the table codes of its fields, the resource, the rules between its
fields, when its writes take effect, writes beside the records, checks on the command as a whole, the CARG bits that it
has, and whether it takes a credential. -/
structure CfgSpec where
  codes : List Nat
  res : Nat
  rules : List FRec → List CRule
  due : List FRec → DueAt := fun _ => .tick
  extra : List FRec → List (FKey × Nat) := fun _ => []
  whole : List FRec → List (Nat × Bool) := fun _ => []
  rebase : Bool := false
  bank : Bool := false
  carg : Bool := false
  needCred : Bool := false

/-- The failures of the records, as status and record index. -/
def CfgSpec.fails (c : CfgSpec) (t : Taken) : List (Nat × Nat) :=
  if cfgFormBad t c.rebase c.bank c.carg then []
  else (cfgRecs t).zipIdx.flatMap fun (r, i) => recFails (cfgRecs t) c.codes (c.rules (cfgRecs t)) i r

/-- The checks of a configuration command beside the ones that every command has (R433, R436). -/
def State.cfgChecks (s : State) (t : Taken) (c : CfgSpec) : List (Nat × Bool) :=
  (0x10, c.needCred && !s.credOk t) :: (0x22, cfgFormBad t c.rebase c.bank c.carg) ::
    (c.whole (cfgRecs t) ++ (c.fails t).map fun p => (p.1, true))

/-- The writes that an accepted configuration command stages. -/
def CfgSpec.writes (c : CfgSpec) (t : Taken) : List (FKey × Nat) :=
  ((cfgRecs t).map fun r => ((⟨r.fld.1, c.res, r.fld.2, r.idx⟩ : FKey), r.val)) ++ c.extra (cfgRecs t)

/-- The RESULT of a configuration command whose records all pass: no failing record, and NREC (R437). -/
def cfgPassed (t : Taken) : List Byte := le 2 0xFFFF ++ le 2 (cfgNrec t)

/-- A configuration command: checks of the command, of its form and of every record; then its effect, or the first failure completes
it, with the first record that failed so (R437). -/
def State.cfgThen (s : State) (t : Taken) (c : CfgSpec) (eff : State → State) : State :=
  match opRow t.op.toNat with
  | none => s.unknownOp t
  | some row =>
    let st := firstStatus (baseChecks row t s ++ s.cfgChecks t c)
    let early := match st with
      | some c => c == 0x20 || c == 0x41 || c == 0x21 || c == 0x22 || c == 0x40
      | none => false
    let s1 := if c.needCred && s.credOk t && !early then s.takeCount t else s
    match st with
    | some x =>
      if x == 0x20 then s1.violate t 4
      else match (c.fails t).find? (fun p => p.1 == x) with
        | some p => s1.refuse t x (le 2 p.2)
        | none => s1.refuse t x
    | none => eff s1

/-- The configuration commands of the field tables in settings: every record is staged for the latest of the points that its fields
name. -/
def State.cfg (s : State) (t : Taken) (c : CfgSpec) : State :=
  s.cfgThen t c fun s => s.stage t (c.due (cfgRecs t)) (c.writes t) (cfgPassed t)

/-! ### Rules shared with SNS_GAIN -/

/-- R138 for a current limit, a shunt, a gain and CMPHOT: both bounds hold. -/
def ilimOk (ilim shunt gain cmphot : Nat) : Bool :=
  ilim * shunt * gain ≤ 11250000 && ilim * shunt * gain < cmphot * 200000

/-- IPKF × PHSHUNT and IPKA × SHUNTA within 0.9 × 125 mV ÷ gain (R255, R288). -/
def peakOk (ipk shunt gain : Nat) : Bool := ipk * shunt * gain ≤ 1125000

/-- Predicted charge Q of a ramp in mA·s (Table 2.7). -/
def rampQ (ilim tramp : Nat) : Nat := (rnd ((ilim * tramp : Nat) / 1000 : ℚ)).toNat

/-! ### CH_CFG (R24, R25, R73, R137-R140, R166, R178, R179, R247, R248) -/

def chCfgRules (s : State) (n : Fin 64) (rebase : Bool) (rs : List FRec) : List CRule :=
  let v := fun f => s.newVal rs n.val f
  let c := s.ch[n]
  let p := s.pended
  let gain := fun (m : Fin 64) => (p.grp[chGroup m]).pga (chInI m)
  let isA := c.tmb.classA
  -- the set that the command leaves n with: a follower counts on its own
  let size := if p.isFollower n then 1 else if v Fld.PSET == 1 then 2 else if v Fld.PSET == 2 then 4 else 1
  let mem := allCh.filter fun m => n.val ≤ m.val && m.val < n.val + size
  let clsNew := fun (m : Fin 64) =>
    if (s.ch[m]).tmb.classA then 1 else if p.leader m == n then v Fld.CLASS else s.pendFld Fld.CLASS (p.leader m).val
  [ ⟨[Fld.CLASS], 0x22, (v Fld.CLASS == 1) != isA⟩,
    -- R138, with the gain of every member's input, since the leader's parameters apply to each (R166)
    ⟨[Fld.ILIM, Fld.SHUNT, Fld.CMPHOT, Fld.PSET], 0x22,
      mem.any fun m => !ilimOk (v Fld.ILIM) (v Fld.SHUNT) (gain m) (v Fld.CMPHOT)⟩,
    ⟨[Fld.SR, Fld.DVFLOOR], 0x22, v Fld.DVFLOOR * 2 ≥ v Fld.SR⟩,
    ⟨[Fld.ILIM, Fld.TRAMP, Fld.CLASS], 0x22,
      !isA && !p.isFollower n && rampQ (v Fld.ILIM) (v Fld.TRAMP) > s.pendFld Fld.C rZone⟩,
    -- a Channel that a smaller set leaves on its own counts with its own Q (R73)
    ⟨[Fld.PSET], 0x22, (allCh.filter fun m => p.leader m == n && n.val + size ≤ m.val).any fun m =>
      !(s.ch[m]).tmb.classA && rampQ (s.pendFld Fld.ILIM m.val) (s.pendFld Fld.TRAMP m.val) > s.pendFld Fld.C rZone⟩,
    ⟨[Fld.TRAMP], 0x10, v Fld.TRAMP > c.tmb.tInrush⟩,
    ⟨[Fld.SOAE], 0x10, v Fld.SOAE > c.tmb.soaCeil⟩,
    ⟨[Fld.PSET], 0x22, n.val % (if v Fld.PSET == 1 then 2 else if v Fld.PSET == 2 then 4 else 1) != 0 ||
      p.isFollower n || mem.any (fun m => clsNew m != clsNew n)⟩,
    ⟨[Fld.PSET], 0x12, (mem ++ p.members n).any fun m => (s.ch[m]).st != .off⟩,
    ⟨[Fld.HYST, Fld.HOTK], 0x22, v Fld.HYST < v Fld.HOTK⟩,
    ⟨[Fld.CMPHOT, Fld.CMPCODE], 0x22, v Fld.CMPHOT > v Fld.CMPCODE⟩,
    ⟨[Fld.TCMAX], 0x10, v Fld.TCMAX > c.tmb.tcCeil⟩,
    ⟨[Fld.TIMAX], 0x10, v Fld.TIMAX > c.tmb.tiCeil⟩,
    ⟨[Fld.CMPCODE], 0x10, v Fld.CMPCODE > c.tmb.maxCode⟩,
    ⟨[Fld.CMPHOT], 0x10, v Fld.CMPHOT > c.tmb.maxCode⟩,
    ⟨[Fld.RINT], 0x10, v Fld.RINT < c.tmb.retryMin⟩,
    ⟨[Fld.RON0], 0x12, !rebase && v Fld.RON0 != s.pendFld Fld.RON0 n.val⟩,
    ⟨[Fld.ZTH0], 0x12, !rebase && v Fld.ZTH0 != s.pendFld Fld.ZTH0 n.val⟩,
    ⟨[Fld.PLEN], 0x12, !rebase && v Fld.PLEN != s.pendFld Fld.PLEN n.val⟩ ] ++
  -- R140: a change, so a record that repeats the value in force is accepted in any state
  [Fld.SHUNT, Fld.ILIM, Fld.SR, Fld.DVFLOOR, Fld.TRAMP, Fld.SOAE].map fun f =>
    ⟨[f], 0x12, c.st != .off && v f != s.pendFld f n.val⟩

/-- The latest point that the fields name: tick, arc block (R228), Period (R248). -/
def chCfgDue (rs : List FRec) : DueAt :=
  if rs.any (fun r => r.fld.1 == 0x69) then .period else if rs.any (fun r => r.fld.1 == 0x66) then .block else .tick

/-- CH_CFG with BANK: the domain of a Bank, while every Channel of it is OFF (R132). -/
def bankCfgRules (s : State) (b : Nat) (rs : List FRec) : List CRule :=
  [⟨[Fld.DOMAIN], 0x12, s.newVal rs (0x40 + b) Fld.DOMAIN != s.pendFld Fld.DOMAIN (0x40 + b) &&
    allCh.any (fun m => m.val / 16 == b && (s.ch[m]).st != .off)⟩]

def cfgChCfg (t : Taken) (s : State) : CfgSpec :=
  if cfgBank t then
    { codes := [0xC6], res := t.target, rules := bankCfgRules s (t.target - 0x40), rebase := true, bank := true }
  else
    let n : Fin 64 := finOf 64 t.target (by decide)
    let rb := cfgRebase t
    { codes := [0x43, 0x52, 0x66, 0x69], res := n.val, rules := chCfgRules s n rb, due := chCfgDue
      extra := fun _ => if rb then [(⟨kRebase, n.val, 0, 0⟩, 0)] else []
      whole := fun _ => [(0x12, rb && (s.ch[n]).st != .off)], rebase := true, bank := true
      needCred := rb && (s.ch[n]).tmb.classA && targetOk .channel t }

def cmdChCfg (t : Taken) (s : State) : State := s.cfg t (cfgChCfg t s)

/-! ### CV_CFG, AUX_CFG, LAW_CFG -/

def popCount (n w : Nat) : Nat := ((List.range n).map fun i => w / 2 ^ i % 2).sum

/-- Bits of a that are also set in b. -/
def maskAnd (n a b : Nat) : Nat := ((List.range n).map fun i => (a / 2 ^ i % 2) * (b / 2 ^ i % 2) * 2 ^ i).sum

def cvCfgRules (s : State) (rs : List FRec) : List CRule :=
  let v := fun f => s.newVal rs rConv f
  let sp := v Fld.SPMASK
  let pm := v Fld.PHMASK
  let changed := fun f => v f != s.pendFld f rConv
  let idle := s.cv.mode == .idle
  [ ⟨[Fld.PHMASK, Fld.SPMASK, Fld.NMIN], 0x22, maskAnd 16 sp pm != sp || popCount 16 sp > 4 ||
      popCount 16 pm - popCount 16 sp < v Fld.NMIN + 1⟩,
    ⟨[Fld.IADD, Fld.IPH], 0x22, v Fld.IADD > v Fld.IPH⟩,
    ⟨[Fld.ISHED, Fld.IADD], 0x22, v Fld.ISHED * 10 > v Fld.IADD * 8⟩,
    ⟨[Fld.IPKF, Fld.PHSHUNT, Fld.PHMASK], 0x22, allPh.any fun p => pm / 2 ^ p.val % 2 == 1 &&
      !peakOk (v Fld.IPKF) (v Fld.PHSHUNT) ((s.pended.grp[(4 : Fin 5)]).pga ⟨p.val, by omega⟩)⟩,
    ⟨[Fld.NMIN], 0x10, v Fld.NMIN + 1 > s.tmb.zone.nphMax⟩,
    ⟨[Fld.SSR], 0x10, v Fld.SSR > s.tmb.zone.slewCap⟩,
    ⟨[Fld.PHMASK], 0x12, changed Fld.PHMASK && !idle⟩,
    ⟨[Fld.SPMASK], 0x12, changed Fld.SPMASK && !idle⟩,
    ⟨[Fld.TSW], 0x12, changed Fld.TSW && !idle⟩,
    ⟨[Fld.PHSHUNT], 0x12, changed Fld.PHSHUNT && !idle⟩ ]

def cfgCvCfg (t : Taken) (s : State) : CfgSpec :=
  let rb := cfgRebase t
  { codes := [0x73], res := rConv, rules := cvCfgRules s
    extra := fun _ => if rb then [(⟨kRebase, rConv, 0, 0⟩, t.p 20 4)] else []
    whole := fun _ => [(0x12, rb && s.cv.mode != .idle)], rebase := true, carg := true }

def cmdCvCfg (t : Taken) (s : State) : State := s.cfg t (cfgCvCfg t s)

def auxCfgRules (s : State) (r : Fin 4) (rs : List FRec) : List CRule :=
  let v := fun f => s.newVal rs (rAux r) f
  let changed := fun f => v f != s.pendFld f (rAux r)
  let off := (s.aux[r]).st == .off
  [ ⟨[Fld.VMIN, Fld.VMAX], 0x22, v Fld.VMIN > v Fld.VMAX⟩,
    ⟨[Fld.IPKA, Fld.SHUNTA], 0x22,
      !peakOk (v Fld.IPKA) (v Fld.SHUNTA) ((s.pended.grp[(4 : Fin 5)]).pga ⟨25 + r.val, by omega⟩)⟩,
    ⟨[Fld.TSWA], 0x12, changed Fld.TSWA && !off⟩,
    ⟨[Fld.SHUNTA], 0x12, changed Fld.SHUNTA && !off⟩ ]

def auxIx (t : Taken) : Fin 4 := finOf 4 (t.target - 0x110) (by decide)

def cfgAuxCfg (t : Taken) (s : State) : CfgSpec :=
  let r := auxIx t
  { codes := [0x78], res := rAux r, rules := auxCfgRules s r, whole := fun _ => [(0x12, (s.aux[r]).pdOwned)] }

def cmdAuxCfg (t : Taken) (s : State) : State := s.cfg t (cfgAuxCfg t s)

/-- Poles of a set inside the unit circle (R304). -/
def polesOk (a1 a2 : ℚ) : Bool := |a2| < 1 && |a1| < 1 + a2

def lawCfgRules (s : State) (rs : List FRec) : List CRule :=
  let v := fun f => (singleVal (s.newVal rs rConv f)).getD 0
  [ ⟨[Fld.VA1, Fld.VA2], 0x22, !polesOk (v Fld.VA1) (v Fld.VA2)⟩,
    ⟨[(0x83, 9), (0x83, 10)], 0x22, !polesOk (v (0x83, 9)) (v (0x83, 10))⟩,
    ⟨[Fld.DMIN, Fld.DMAX], 0x22, s.newVal rs rConv Fld.DMIN ≥ s.newVal rs rConv Fld.DMAX⟩ ]

/-- LAW_CFG: the AUX rails that its records name have its owner too (R431). -/
def cfgLawCfg (t : Taken) (s : State) : CfgSpec :=
  { codes := [0x83], res := rConv, rules := lawCfgRules s
    whole := fun rs => [(0x20, rs.any fun r => r.fld.1 == 0x83 && 1 < fieldCount r.fld && r.idx < 4 && !(match t.owner with
      | none => false
      | some o => ownsIn t.res o (rAux r.idx)))] }

def cmdLawCfg (t : Taken) (s : State) : State := s.cfg t (cfgLawCfg t s)

/-! ### Zone commands -/

def State.huActive (s : State) : Bool := s.zone.hu != .normal

def stagRules (s : State) (rs : List FRec) : List CRule :=
  let c := s.newVal rs rZone Fld.C
  [⟨[Fld.C], 0x22, allCh.any fun n => !(s.ch[n]).tmb.classA && !s.pended.isFollower n &&
    rampQ (s.pendFld Fld.ILIM n.val) (s.pendFld Fld.TRAMP n.val) > c⟩]

def cfgStagCfg (_ : Taken) (s : State) : CfgSpec := { codes := [0x27], res := rZone, rules := stagRules s }

def cmdStagCfg (t : Taken) (s : State) : State := s.cfg t (cfgStagCfg t s)

def capRules (s : State) (rs : List FRec) : List CRule :=
  [⟨[Fld.CAP], 0x10, s.newVal rs rZone Fld.CAP > s.tmb.zone.hCap⟩]

def cfgCapSet (_ : Taken) (s : State) : CfgSpec :=
  { codes := [0x97], res := rZone, rules := capRules s, due := fun _ => .period }

def cmdCapSet (t : Taken) (s : State) : State := s.cfg t (cfgCapSet t s)

/-- Units: VRET, VLOSS, HVSET 0.1 V; the BOOST window 10 mV (R332). -/
def huRules (s : State) (rs : List FRec) : List CRule :=
  let v := fun f => s.newVal rs rZone f
  [ ⟨[Fld.VRET, Fld.VLOSS], 0x22, v Fld.VRET < v Fld.VLOSS + 20⟩,
    ⟨[Fld.HVSET], 0x10, v Fld.HVSET * 10 < s.tmb.zone.boostLo || v Fld.HVSET * 10 > s.tmb.zone.boostHi⟩,
    ⟨[Fld.VRET], 0x10, v Fld.VRET * 10 < s.tmb.zone.boostLo + 300⟩ ]

def cfgHuCfg (_ : Taken) (s : State) : CfgSpec :=
  { codes := [0x91], res := rZone, rules := huRules s, whole := fun _ => [(0x12, s.huActive)] }

def cmdHuCfg (t : Taken) (s : State) : State := s.cfg t (cfgHuCfg t s)

def batRules (s : State) (rs : List FRec) : List CRule :=
  let changed := fun f => s.newVal rs rZone f != s.pendFld f rZone
  [ ⟨[Fld.CHEM], 0x12, s.huActive && changed Fld.CHEM⟩,
    ⟨[Fld.QNOM], 0x12, s.huActive && changed Fld.QNOM⟩,
    ⟨[Fld.CNOM], 0x12, s.huActive && changed Fld.CNOM⟩ ]

/-- A change of CHEM, QNOM or CNOM, or SWAP set, is a declared swap (R360). -/
def batSwap (s : State) (rs : List FRec) : List (FKey × Nat) :=
  let changed := fun f => s.newVal rs rZone f != s.pendFld f rZone
  if changed Fld.CHEM || changed Fld.QNOM || changed Fld.CNOM || s.newVal rs rZone Fld.SWAP == 1 then
    [(⟨kSwap, rZone, 0, 0⟩, 1), (⟨0xA1, rZone, 12, 0⟩, 0)]
  else []

def cfgBatCfg (_ : Taken) (s : State) : CfgSpec :=
  { codes := [0xA1], res := rZone, rules := batRules s, due := fun _ => .period, extra := batSwap s }

def cmdBatCfg (t : Taken) (s : State) : State := s.cfg t (cfgBatCfg t s)

/-! ### HINGE_CFG and PD_CFG -/

/-- HEN, ROLE and ARBSRC are stored at the next tick, ARBNODE and REVEN apply at the Period (R437, R516). -/
def hingeDue (rs : List FRec) : DueAt :=
  if rs.any (fun r => r.fld == Fld.ARBNODE || r.fld == Fld.REVEN) then .period else .tick

def cfgHingeCfg (_ : Taken) (_ : State) : CfgSpec :=
  { codes := [0xF1], res := rDevice, rules := fun _ => [], due := hingeDue }

def cmdHingeCfg (t : Taken) (s : State) : State := s.cfg t (cfgHingeCfg t s)

def pdIx (t : Taken) : Fin 2 := finOf 2 (t.target - 0x120) (by decide)
/-- The AUX rail of a port: AUX2 for PD0 and AUX3 for PD1. -/
def pdRail (p : Fin 2) : Fin 4 := ⟨2 + p.val, by omega⟩

/-- PDEN 1 while the port is enabled already changes nothing; else the rail must be OFF under host control (R577). -/
def pdRules (s : State) (p : Fin 2) (rs : List FRec) : List CRule :=
  let v := fun f => s.newVal rs (rPd p) f
  [ ⟨[Fld.PMAX], 0x22, v Fld.PMAX > s.pendFld Fld.PAUX (rAux (pdRail p))⟩,
    ⟨[Fld.PDEN], 0x12, v Fld.PDEN == 1 && !(s.aux[pdRail p]).pdOwned && (s.aux[pdRail p]).st != .off⟩ ]

def cfgPdCfg (t : Taken) (s : State) : CfgSpec :=
  let p := pdIx t
  { codes := [0xF9], res := rPd p, rules := pdRules s p
    whole := fun rs => [(0x20, rs.any (fun r => r.fld == Fld.PDEN && r.val == 1) &&
      !(match t.owner with
        | none => false
        | some o => ownsIn t.res o (rPd p) && ownsIn t.res o (rAux (pdRail p))))] }

def cmdPdCfg (t : Taken) (s : State) : State := s.cfg t (cfgPdCfg t s)

/-! ### Meanings -/

def execChCfg (q : Fin 32) (d : CmdArgs) (s : State) : Host.Outcome State Fault Refusal :=
  .next (s.rowCmd cmdChCfg 0x0103 q d)
def execCvCfg (q : Fin 32) (d : CmdArgs) (s : State) : Host.Outcome State Fault Refusal :=
  .next (s.rowCmd cmdCvCfg 0x0202 q d)
def execAuxCfg (q : Fin 32) (d : CmdArgs) (s : State) : Host.Outcome State Fault Refusal :=
  .next (s.rowCmd cmdAuxCfg 0x0203 q d)
def execLawCfg (q : Fin 32) (d : CmdArgs) (s : State) : Host.Outcome State Fault Refusal :=
  .next (s.rowCmd cmdLawCfg 0x0204 q d)
def execCapSet (q : Fin 32) (d : CmdArgs) (s : State) : Host.Outcome State Fault Refusal :=
  .next (s.rowCmd cmdCapSet 0x0301 q d)
def execHuCfg (q : Fin 32) (d : CmdArgs) (s : State) : Host.Outcome State Fault Refusal :=
  .next (s.rowCmd cmdHuCfg 0x0302 q d)
def execStagCfg (q : Fin 32) (d : CmdArgs) (s : State) : Host.Outcome State Fault Refusal :=
  .next (s.rowCmd cmdStagCfg 0x0306 q d)
def execBatCfg (q : Fin 32) (d : CmdArgs) (s : State) : Host.Outcome State Fault Refusal :=
  .next (s.rowCmd cmdBatCfg 0x0401 q d)
def execHingeCfg (q : Fin 32) (d : CmdArgs) (s : State) : Host.Outcome State Fault Refusal :=
  .next (s.rowCmd cmdHingeCfg 0x0801 q d)
def execPdCfg (q : Fin 32) (d : CmdArgs) (s : State) : Host.Outcome State Fault Refusal :=
  .next (s.rowCmd cmdPdCfg 0x0901 q d)

end Sys2Proof.Machine
end

