-- ==== Sys2Proof/Machine/Sense.lean ====
section
/-! DEFINITION. The sense Groups: the commands of group 0x05, injected conversions, slice corrections and retirements
(R89-R120). -/

namespace Sys2Proof.Machine

open Sys2Proof

def groupIx (t : Taken) : Fin 5 := finOf 5 (t.target - 0x150) (by decide)

/-- Inputs behind a shunt, whose PGA gain can be set (Table 3.2). -/
def shuntInput (g : Fin 5) (i : Fin 32) : Bool :=
  if g.val < 4 then i.val < 16 else i.val < 16 || i.val == 20 || (25 ≤ i.val && i.val < 29)

/-- The Channel of an input of G0-G3 (R89). -/
def inputCh (g : Fin 5) (i : Fin 32) : Fin 64 := finOf 64 (16 * g.val + i.val % 16) (by decide)

/-- A Phase that is installed and neither SPARE nor RETIRED. -/
def State.phInUse (s : State) (p : Fin 16) : Bool :=
  (s.cv.ph[p]).st == .active || (s.cv.ph[p]).st == .shed

/-- Whether a change of an input's gain breaks R138, R255 or R288. -/
def State.gainBad (s : State) (g : Fin 5) (i : Fin 32) (gain : Nat) : Bool :=
  if h : g.val < 4 then
    let n := s.pended.leader (inputCh g i)
    i.val < 16 && !ilimOk (s.pendFld Fld.ILIM n.val) (s.pendFld Fld.SHUNT n.val) gain (s.pendFld Fld.CMPHOT n.val)
  else if i.val < 16 then
    s.pendFld Fld.PHMASK rConv / 2 ^ i.val % 2 == 1 &&
      !peakOk (s.pendFld Fld.IPKF rConv) (s.pendFld Fld.PHSHUNT rConv) gain
  else if 25 ≤ i.val && i.val < 29 then
    !peakOk (s.pendFld Fld.IPKA (rAux (i.val - 25))) (s.pendFld Fld.SHUNTA (rAux (i.val - 25))) gain
  else false

/-- A change of the gain of a Channel's current input while the Channel is not OFF (R91). -/
def State.gainBusy (s : State) (g : Fin 5) (i : Fin 32) : Bool :=
  g.val < 4 && i.val < 16 && (s.ch[inputCh g i]).st != .off

def allIn : List (Fin 32) := List.finRange 32

/-- An injection definition (Table 3.8). -/
def injEn (w : Word) : Bool := w.getLsbD 31
def injTrig (w : Word) : Nat := w.toNat / 2 ^ 25 % 64
def injDelay (w : Word) : Nat := w.toNat / 2 ^ 13 % 4096
def injInput (w : Word) : Fin 32 := finOf 32 (w.toNat / 256) (by decide)
/-- Slots that the mask or the sequence occupies (R93, R112). -/
def Group.slotsUsed (g : Group) : Nat :=
  if g.seqMode then (g.entries.map fun e => e.toNat / 256 % 16 + 1).sum
  else popCount 32 g.mask.toNat

/-- A rail that is switched on (Table 7.8), and a port state with a sink attached (Table 19.3). -/
def railOn (st : AuxState) : Bool := st == .start || st == .on || st == .cc
def sinkOn (st : PdState) : Bool := st == .attached || st == .typecOnly || st == .contract || st == .transition

/-- An input that a new setting would take out of use although it may not be (R104, R105). -/
def State.disableBusy (s : State) (g : Fin 5) (i : Fin 32) : Bool :=
  if g.val < 4 then (s.ch[inputCh g i]).st != .off
  else if h : i.val < 16 then s.phInUse ⟨i.val, h⟩
  else if h : 21 ≤ i.val ∧ i.val < 25 then railOn (s.aux[i.val - 21]'(by omega)).st
  else if h : 25 ≤ i.val ∧ i.val < 29 then railOn (s.aux[i.val - 25]'(by omega)).st
  else if h : 29 ≤ i.val ∧ i.val < 31 then sinkOn (s.pd[i.val - 29]'(by omega)).st
  else false

/-- The checks of cmdSnsMask beside the ones that every command has (R433). -/
def chkSnsMask (t : Taken) (s : State) : List (Nat × Bool) :=
  let g := groupIx t
  let old := s.pended.grp[g]
  let mode := t.p 20 1
  let seq : Vector Half 16 := Vector.ofFn fun i => BitVec.ofNat 16 (t.p (24 + 2 * i.val) 2)
  let new : Group := { old with mask := BitVec.ofNat 32 (t.p 16 4), seqMode := mode == 1, seq := seq }
  let es := new.entries
  let seqBad := seq.toList.any (fun e => e.getLsbD 14 || e.toNat / 32 % 8 != 0) ||
    (es.map fun e => e.toNat / 256 % 16 + 1).sum > 32 || !(es.map seqInput).Nodup ||
    es.any fun e => seqGain e != 0 && !shuntInput g (finOf 32 (seqInput e) (by decide))
  let lost := allIn.filter fun i => old.enabled i && !new.enabled i
  let gainCh := allIn.filter fun i => new.enabled i && new.pga i != old.pga i
  [ (0x22, mode > 1 || seqBad),
    (0x22, g.val == 4 && allIn.any fun i => 16 ≤ i.val && i.val ≤ 20 && !new.enabled i),
    (0x22, gainCh.any fun i => s.gainBad g i (new.pga i)),
    (0x12, gainCh.any fun i => s.gainBusy g i),
    (0x12, (allIn.filter fun i => !new.enabled i && (old.enabled i || lost.contains i)).any fun i => s.disableBusy g i),
    (0x12, g.val < 4 && new.slotsUsed ≥ 32 && old.inj.toList.any injEn) ]

/-- SNS_MASK (R103-R105, R109, R112-R114). -/
def cmdSnsMask (t : Taken) (s : State) : State :=
  let mode := t.p 20 1
  s.guarded t (chkSnsMask t s) fun s => s.stage t .tick
      ([(⟨kMask, t.target, 0, 0⟩, t.p 16 4), (⟨kMask, t.target, 1, 0⟩, mode)] ++
        (List.range 16).map fun k => (⟨kMask, t.target, 2, k⟩, t.p (24 + 2 * k) 2))

/-- The checks of cmdSnsGain beside the ones that every command has (R433). -/
def chkSnsGain (t : Taken) (s : State) : List (Nat × Bool) :=
  let g := groupIx t
  let m := t.p 16 4
  let code := t.p 20 1
  let ins := allIn.filter fun i => m / 2 ^ i.val % 2 == 1
  let old := s.pended.grp[g]
  let chg := ins.filter fun i => (old.gain[i]).toNat != code
  [ (0x22, code > 3 || (code != 0 && ins.any fun i => !shuntInput g i)),
    (0x22, chg.any fun i => s.gainBad g i (2 ^ code)),
    (0x12, chg.any fun i => s.gainBusy g i) ]

/-- SNS_GAIN (R91). -/
def cmdSnsGain (t : Taken) (s : State) : State :=
  let m := t.p 16 4
  let code := t.p 20 1
  let ins := allIn.filter fun i => m / 2 ^ i.val % 2 == 1
  s.guarded t (chkSnsGain t s) fun s => s.stage t .tick (ins.map fun i => (⟨kGain, t.target, 0, i.val⟩, code))

/-- A G4 input in use by a running law (R298). -/
def State.lawInput (s : State) (i : Fin 32) : Bool :=
  i.val == 17 || i.val == 18 ||
    (if h : i.val < 16 then s.cv.mode != .idle && s.phInUse ⟨i.val, h⟩
     else if h : 21 ≤ i.val ∧ i.val < 29 then (s.aux[(i.val - 21) % 4]'(by omega)).st != .off
     else false)

/-- The checks of cmdSnsFilter beside the ones that every command has (R433). -/
def chkSnsFilter (t : Taken) (s : State) : List (Nat × Bool) :=
  let g := groupIx t
  let m := t.p 16 4
  let w := t.p 20 4
  let ins := allIn.filter fun i => m / 2 ^ i.val % 2 == 1
  let notch := w / 2 ^ 31 == 1
  let f0 := w / 2 ^ 11 % 2 ^ 16
  let dec := w % 256 + 1
  [ (0x22, w / 1024 % 2 == 1 || (notch && (f0 < 328 || f0 > 29491 || w / 2 ^ 27 % 16 > 12))),
    (0x22, g.val < 4 && dec > 20),
    (0x12, g.val < 4 && ins.any fun i => (s.ch[inputCh g i]).st != .off),
    (0x12, g.val == 4 && (20 % dec != 0 || notch) && ins.any fun i => s.lawInput i) ]

/-- SNS_FILTER (R116, R119, R120, R298). -/
def cmdSnsFilter (t : Taken) (s : State) : State :=
  let m := t.p 16 4
  let w := t.p 20 4
  let ins := allIn.filter fun i => m / 2 ^ i.val % 2 == 1
  s.guarded t (chkSnsFilter t s) fun s => s.stage t .tick (ins.map fun i => (⟨kFilter, t.target, 0, i.val⟩, w))

/-- The checks of cmdSnsInj beside the ones that every command has (R433). -/
def chkSnsInj (t : Taken) (s : State) : List (Nat × Bool) :=
  let g := groupIx t
  let defs := (List.range 8).map fun k => BitVec.ofNat 32 (t.p (24 + 4 * k) 4)
  [ (0x22, t.p 16 2 == 0 || t.p 16 2 > 4096),
    (0x22, defs.any fun w => injTrig w > 40 || w.toNat % 256 != 0),
    (0x22, g.val < 4 && (s.pended.grp[g]).slotsUsed ≥ 32 && defs.any injEn) ]

/-- SNS_INJ replaces all 8 definitions and the timer (R106, R109). -/
def cmdSnsInj (t : Taken) (s : State) : State :=
  s.guarded t (chkSnsInj t s) fun s => s.stage t .tick
      ((⟨kInj, t.target, 0, 0⟩, t.p 16 2) :: (List.range 8).map fun k => (⟨kInj, t.target, 1, k⟩, t.p (24 + 4 * k) 4))

/-- The checks of cmdSnsZone beside the ones that every command has (R433). -/
def chkSnsZone (t : Taken) (s : State) : List (Nat × Bool) :=
  let a := t.p 16 1
  [(0x22, a == 1 || a > 16)]

/-- SNS_ZONE sets ACOH at the next block boundary. -/
def cmdSnsZone (t : Taken) (s : State) : State :=
  let a := t.p 16 1
  s.guarded t (chkSnsZone t s) fun s => s.stage t .block [(⟨kAcoh, 0, 0, 0⟩, a)]

/-- A read that completes with the latch of the present Frame, or waits for the first latch after the FENCE before it
(R418, R432). -/
def State.readDone (s : State) (t : Taken) (result data : List Byte) : State :=
  s.complete t 0 (some s.fr.count) result (if t.hasArea then data else [])

/-- The RESULT of a read that R439 leaves open. -/
def State.openResult (s : State) : List Byte × State :=
  (le 8 (Config.readResult s.free).toNat, { s with free := s.free + 1 })

/-- Whether a read must wait for a later latch (R418). -/
def State.mustWait (s : State) (q : Fin 32) : Option Nat :=
  match (s.qs[q]).fenceAt with
  | some f => if s.fr.count < f + 1 then some (f + 1) else none
  | none => none

/-- SNS_READ result, 64 bytes (R439). -/
def State.snsData (s : State) (g : Fin 5) : List Byte :=
  let k := s.grp[g]
  let sl := k.slices.toList
  le 1 k.health ++ le 1 (bit k.seqMode) ++ le 1 ((sl.zipIdx.map fun (x, i) => bit x.slow * 2 ^ i).sum) ++ le 1 k.retired ++
    le 4 k.mask.toNat ++
    (sl.flatMap fun x => le 2 (satS 2 x.off) ++ le 2 (satS 2 x.gain) ++ le 2 (satS 2 x.skew) ++ le 2 (satU 2 x.margin)) ++
    (k.injLost.toList.flatMap fun x => le 2 x)

def cmdSnsRead (t : Taken) (s : State) : State :=
  s.guarded t [] fun s =>
    match s.mustWait t.q with
    | some f => s.await t (.readAfter f)
    | none =>
      let (r, s1) := s.openResult
      s1.readDone t r (s.snsData (groupIx t))

def execSnsMask (q : Fin 32) (d : CmdArgs) (s : State) : Host.Outcome State Fault Refusal :=
  .next (s.rowCmd cmdSnsMask 0x0501 q d)
def execSnsGain (q : Fin 32) (d : CmdArgs) (s : State) : Host.Outcome State Fault Refusal :=
  .next (s.rowCmd cmdSnsGain 0x0502 q d)
def execSnsFilter (q : Fin 32) (d : CmdArgs) (s : State) : Host.Outcome State Fault Refusal :=
  .next (s.rowCmd cmdSnsFilter 0x0503 q d)
def execSnsInj (q : Fin 32) (d : CmdArgs) (s : State) : Host.Outcome State Fault Refusal :=
  .next (s.rowCmd cmdSnsInj 0x0504 q d)
def execSnsZone (q : Fin 32) (d : CmdArgs) (s : State) : Host.Outcome State Fault Refusal :=
  .next (s.rowCmd cmdSnsZone 0x0505 q d)
def execSnsRead (q : Fin 32) (d : CmdArgs) (s : State) : Host.Outcome State Fault Refusal :=
  .next (s.rowCmd cmdSnsRead 0x0506 q d)

/-! ### Injected conversions (R106-R111) -/

/-- The first slot, counted from the tick, that begins at or after a time in ns. -/
def slotFrom (ns : Int) : Int := (4 * ns + 24) / 25

/-- A conversion that is due takes its place among the others: by its slot, then by its definition (R110, log 144). -/
def injInsert (x : Fin 8 × Int) : List (Fin 8 × Int) → List (Fin 8 × Int)
  | [] => [x]
  | y :: r =>
    if slotFrom x.2 < slotFrom y.2 || (slotFrom x.2 == slotFrom y.2 && x.1.val < y.1.val) then x :: y :: r
    else y :: injInsert x r

/-- A definition's trigger at a time in ns after the tick: its conversion is due DELAY later (R107). -/
def Group.trigger (k : Group) (d : Fin 8) (ns : Nat) : Group :=
  { k with injReq := injInsert (d, ((ns + injDelay k.inj[d] : Nat) : Int)) k.injReq }

/-- Whether a Group converts: its rounds have started, and it is not FAILED (R59, R92, Table 3.7). -/
def State.converts (s : State) (g : Fin 5) : Bool := s.live && grpOffset g ≤ s.fr.count && (s.grp[g]).health < 3

/-- The timer of a Group fires at the tick that starts its period, and with it the definitions of TRIG 40 (R106). -/
def State.injTimer (s : State) (g : Fin 5) : State :=
  let k := s.grp[g]
  if s.converts g && (s.fr.count - k.injFrom) % k.injPeriod == 0 then
    s.updGrp g fun k => ((List.finRange 8).filter fun d => injEn k.inj[d] && injTrig k.inj[d] == 40).foldl
      (fun k d => k.trigger d 0) k
  else s

/-! ### Slices (R96-R102) -/

/-- A new estimate moves a correction by no more than its step limit (R97). -/
def towards (old est step : Int) : Int := if est > old + step then old + step else if est < old - step then old - step else est

/-- An estimate outside a range of Table 3.6, in the units of SNS_READ: 64 LSB, 2.0 %, 200 ps. -/
def estOut (e : SliceEst) : Bool := |e.off| > 1024 || |e.gain| > 1310 || (e.slope && |e.skew| > 800)

/-- Corrections updated from an estimate: step limits 1/4 LSB, 0.01 %, 2 ps (Table 3.6). -/
def Slice.correct (x : Slice) (e : SliceEst) : Slice :=
  { x with off := max (-1024) (min 1024 (towards x.off e.off 4)), gain := max (-1310) (min 1310 (towards x.gain e.gain 6))
           skew := if e.slope then max (-800) (min 800 (towards x.skew e.skew 8)) else x.skew
           outRun := if estOut e then x.outRun + 1 else 0 }

/-- Whether the arc detector of a Channel runs (R214, R230). -/
def State.arcActive (s : State) (n : Fin 64) : Bool :=
  s.lf n Fld.ARCEN == 1 && s.pump.domain48[State.bank n] && ((s.ch[n]).st == .ramp || (s.ch[n]).st == .on) &&
    (s.grp[chGroup n]).health < 3

/-- R230: ARC_DEGRADED to the owner of each Channel with an active detector, and one record for the Group. -/
def State.arcDegraded (s : State) (g : Fin 5) : State :=
  let ns := allCh.filter fun n => n.val / 16 == g.val && s.arcActive n
  (overL ns (fun n s => s.postOnly 0x0107 n.val (le 1 g.val)) s).iceRecord 0x0107 (rGroup g) 1 (le 1 g.val)

/-- The records and responses of a new health state (Table 3.7, R39, R230). -/
def State.healthStep (s : State) (g : Fin 5) : State :=
  let h := (s.grp[g]).health + 1
  let s1 := (s.updGrp g fun k => { k with health := h }).iceRecord 0x0520 (rGroup g) (if h ≥ 2 then 2 else 1) (le 1 h)
  let s2 := if h ≥ 2 then s1.setFault 4 else s1
  if h == 2 && g.val < 4 then s2.arcDegraded g else s2

/-- The slice in a position (0-3, or 4 the spare) is retired; with a spare in service the spare takes its position
(R100-R102). -/
def State.retireSlice (s : State) (g : Fin 5) (pos : Fin 5) : State :=
  let k := s.grp[g]
  if k.health ≥ 3 || k.slices[pos].retired then s
  else
    let s1 := s.iceRecord 0x0C02 rDevice 1 (le 1 0 ++ le 1 pos.val ++ le 1 g.val)
    let spareFree := k.health == 0 && !(k.slices[(4 : Fin 5)]).retired
    let s2 := s1.updGrp g fun k =>
      if pos.val < 4 && spareFree then
        { k with slices := (k.slices.set pos.val k.slices[(4 : Fin 5)]).set 4 { k.slices[pos] with retired := true }
                 retired := k.retired + 1 }
      else
        { k with slices := k.slices.set pos.val { k.slices[pos] with retired := true }, retired := k.retired + 1
                 vacant := if pos.val < 4 && k.vacant.isNone then some pos.val else k.vacant }
    let s3 := if pos.val < 4 && spareFree then s2.iceRecord 0x0C01 rDevice 0 (le 1 0 ++ le 1 4 ++ le 1 g.val) else s2
    s3.healthStep g

/-- The update at the end of a Period of the spare's cycle (R96): the shadowed slice, or the spare itself in Period 4.
Frozen without a spare (R102). In Period 4 the spare corrects its offset and gain alone (Table 3.5). A SLOW mark stands for the
rest of the start, also after a Period with larger margins (R98, log 145); a negative margin is a late conversion, which retires
its slice where its Frame has not (R98, R100). -/
def State.sliceUpdate (s : State) (g : Fin 5) (e : SliceEst) (margin : Vector Int 5) : State :=
  let k := s.grp[g]
  let pos : Fin 5 := finOf 5 k.cyc (by decide)
  -- margins in 10 ps: SLOW at 1.0 ns or less (R98)
  let s1 := s.updGrp g fun k => { k with
    slices := Vector.ofFn fun i => { k.slices[i] with margin := margin[i], slow := k.slices[i].slow || margin[i] ≤ 100 }
    cyc := (k.cyc + 1) % 5 }
  let s2 :=
    if k.health != 0 then s1
    else
      let s2 := s1.updGrp g fun k => { k with
        slices := k.slices.set pos.val (k.slices[pos].correct { e with slope := e.slope && pos.val < 4 }) }
      if (s2.grp[g]).slices[pos].outRun ≥ 2 then s2.retireSlice g pos else s2
  overL ((List.finRange 5).reverse.filter fun i => margin[i] < 0) (fun i s => s.retireSlice g i) s2

end Sys2Proof.Machine
end

