-- ==== Sys2Proof/Machine/Convert.lean ====
section
/-! DEFINITION. The rounds of a Frame: which slot converts which input, injected conversions, the words and filter outputs that
come of it, late conversions, and what capture takes of it (R92-R95, R98-R102, R107-R112, R116, R117, R127). -/

namespace Sys2Proof.Machine

open Sys2Proof

/-! ### The slots of a round -/

/-- The entries of a sequence in their order from a slot on: input, first slot, last slot (R112). -/
def seqPlan : Nat → List Half → List (Fin 32 × Nat × Nat)
  | _, [] => []
  | s, e :: r =>
    let k := e.toNat / 256 % 16 + 1
    (finOf 32 (seqInput e) (by decide), s, s + k - 1) :: seqPlan (s + k) r

/-- The samples of a round: input, first slot and last slot. In scan mode the enabled inputs take slots 0 to n - 1 in
ascending order (R93); an entry of a sequence is sampled in its last slot (R112). -/
def Group.plan (k : Group) : List (Fin 32 × Nat × Nat) :=
  if k.seqMode then seqPlan 0 k.entries
  else ((allIn.filter fun i => k.mask.getLsbD i.val).zipIdx).map fun (i, s) => (i, s, s)

/-- Whether the mask or the sequence leaves a slot free. -/
def planFree (plan : List (Fin 32 × Nat × Nat)) (s : Nat) : Bool := !plan.any fun e => e.2.1 ≤ s && s ≤ e.2.2

/-- The injected conversions of a round: the slots they take, those that wait for a later round, those that are lost. -/
structure Claims where
  taken : List (Nat × Fin 8)
  left : List (Fin 8 × Int)
  lost : List (Fin 8)
deriving DecidableEq, Repr, Inhabited

/-- A conversion due takes the first slot of round r that begins at or after its due time and that none has taken: in G4 also one
of an enabled input, in G0-G3 a free one that begins within 200 ns (R107-R110). -/
def Claims.claim (g4 : Bool) (plan : List (Fin 32 × Nat × Nat)) (r : Nat) (c : Claims) (x : Fin 8 × Int) : Claims :=
  let start (s : Nat) : Int := 25 * (32 * r + s : Nat)
  let fits (s : Nat) : Bool := 4 * x.2 ≤ start s && !c.taken.any (fun t => t.1 == s) &&
    (g4 || (planFree plan s && start s ≤ 4 * (x.2 + 200)))
  match (List.range 32).find? fits with
  | some s => { c with taken := c.taken ++ [(s, x.1)] }
  | none =>
    if !g4 && 4 * (x.2 + 200) < start 32 then { c with lost := c.lost ++ [x.1] } else { c with left := c.left ++ [x] }

def Group.claims (k : Group) (g4 : Bool) (r : Nat) : Claims :=
  k.injReq.foldl (Claims.claim g4 k.plan r) ⟨[], [], []⟩

/-- The slot in which each input of the plan is sampled: the last slot of its entry; one that an injected conversion displaces
goes to the next free slot of the round, or is dropped (R108). A sample of several slots needs one free slot as well (log 186). -/
def placeScan (free : List Nat) (taken : List (Nat × Fin 8)) : List (Fin 32 × Nat × Nat) → List (Fin 32 × Option Nat)
  | [] => []
  | (i, a, b) :: rest =>
    if taken.any fun t => a ≤ t.1 && t.1 ≤ b then
      match free with
      | [] => (i, none) :: placeScan [] taken rest
      | f :: fs => (i, some f) :: placeScan fs taken rest
    else (i, some b) :: placeScan free taken rest

/-- The samples of a round with the injected conversions in their slots. -/
def Group.samples (k : Group) (taken : List (Nat × Fin 8)) : List (Fin 32 × Option Nat) :=
  placeScan ((List.range 32).filter fun s => planFree k.plan s && !taken.any fun t => t.1 == s) taken k.plan

/-- The interleave position that serves slot s of round r (R92, Table 3.7). -/
def Group.posOf (k : Group) (r s : Nat) : Nat := if k.health == 2 then (s + r) % 4 else s % 4

/-- The positions with a late conversion among the slots that a round uses. -/
def Group.latePos (k : Group) (r : Nat) (late used : List Nat) : List (Fin 5) :=
  ((late.filter fun s => used.contains s && k.vacant != some (k.posOf r s)).map fun s =>
    (finOf 5 (k.posOf r s) (by decide) : Fin 5)).dedup

/-- Whether a slot gives a result of its own: its position is filled, and no conversion of its slice in this round up to
it was late (R98, R100, R102). -/
def Group.slotOk (k : Group) (r : Nat) (late : List Nat) (s : Nat) : Bool :=
  !(k.health == 2 && k.vacant == some (k.posOf r s)) && !late.any fun t => t ≤ s && k.posOf r t == k.posOf r s

/-! ### Words and filters -/

/-- A scan sample, the m-th since Frame count 0: its raw word, and what its filter makes of it. Without a result the word
carries TAG 01 and repeats the input's previous value (R95, Table 3.4). -/
def Group.sample (k : Group) (m : Nat) (i : Fin 32) (v : Option Int) : Group :=
  let x := v.getD (k.flt[i]).prev
  let (f, fresh) := (k.flt[i]).step k.filt[i] m x
  { k with
    flt := k.flt.set i.val f, words := k.words.set i.val (k.words[i] ++ [rawWord x (if v.isSome then 0 else 1)])
    outs := if fresh then k.outs.set i.val (k.outs[i] ++ [f.out]) else k.outs }

/-- The result of an injected conversion: TAG 10 and the Frame count of the conversion (R111). Without a result of its own the
word has TAG 01 and repeats the input's previous value (R98, R100, R102; log 146). -/
def Group.injTake (k : Group) (frame : Nat) (d : Fin 8) (v : Option Int) : Group :=
  { k with injNew := k.injNew ++ [(d, match v with
      | some x => rawWord x 2
      | none => rawWord (k.flt[injInput k.inj[d]]).prev 1, frame)] }

/-- A converter result with its slice's offset and gain applied (Table 3.6, log 196). -/
def Slice.apply (x : Slice) (v : Int) : Int := nearestI ((v : ℚ) * (65536 + x.gain) / 65536) + x.off

/-- The corrected result of a slot of a round: none where the slot gives none. -/
def Group.result (k : Group) (r : Nat) (conv : Vector (BitVec 18) 32) (late : List Nat) (slot : Nat) : Option Int :=
  if k.slotOk r late slot then
    (conv.toList[slot]?).map fun v => (k.slices[(finOf 5 (k.posOf r slot) (by decide) : Fin 5)]).apply v.toInt
  else none

/-- What one round gives, from the results of its slots. -/
def Group.round (k : Group) (g4 : Bool) (frame r : Nat) (conv : Vector (BitVec 18) 32) (late : List Nat) : Group :=
  let c := k.claims g4 r
  let value (s : Option Nat) : Option Int := s.bind (k.result r conv late)
  let k1 := (k.samples c.taken).foldl (fun x e => x.sample (20 * frame + r) e.1 (value e.2)) k
  let k2 := c.taken.foldl (fun x t => x.injTake frame t.2 (value (some t.1))) k1
  { k2 with
    injReq := c.left
    injLost := Vector.ofFn fun d => min 65535 (k.injLost[d] + (c.lost.filter fun x => x == d).length) }

/-- A round of a Group; slices with a late conversion are retired at its end (R100). -/
def State.senseRound (s : State) (g : Fin 5) (i : FrameIn) (r : Fin 20) : State :=
  let k := s.grp[g]
  if k.health ≥ 3 then s
  else
    let taken := (k.claims (g.val == 4) r.val).taken
    let used := (k.samples taken).filterMap (·.2) ++ taken.map (·.1)
    let late := ((i.late.filter fun x => x.1 == g && x.2.1 == r).map fun x => x.2.2.val).filter used.contains
    let s1 := s.updGrp g fun k => k.round (g.val == 4) s.fr.count r.val (i.conv[g])[r] late
    overL (k.latePos r.val late used) (fun p s => s.retireSlice g p) s1

/-- The 20 rounds of the Frame that ends, of one Group; then what is still due counts from the next tick. -/
def State.senseGroup (s : State) (g : Fin 5) (i : FrameIn) : State :=
  let s1 := s.updGrp g fun k => { k with words := Vector.replicate 32 [], outs := Vector.replicate 32 [] }
  if !s1.converts g then s1.updGrp g fun k => { k with injReq := [] }
  else
    let s2 := overL (List.finRange 20) (fun r s => s.senseRound g i r) s1
    let s3 := if i.spareLate.getLsbD g.val then s2.retireSlice g 4 else s2
    s3.updGrp g fun k => { k with
      injReq := k.injReq.map fun x => (x.1, x.2 - 4000)
      recent := Vector.ofFn fun (i : Fin 32) =>
        let l := k.recent[i] ++ k.words[i].map rawSample
        l.drop (l.length - 100) }

/-! ### What capture takes (Table 3.13) -/

/-- The 32-bit word of a filter output. -/
def filterWord (ok : Bool) (c : Code24) : Nat := bit ok * 2 ^ 31 + c.toNat

/-- Whether the latch of an input is valid (R103, R120, R102): in use, settled, its Group not FAILED. -/
def Group.latchOk (g : Group) (i : Fin 32) : Bool := g.inval[i] == 0 && g.enabled i && g.health < 3

/-- The words of the last Frame that a stream's source gives; [31] of a filter word is the flag at the end of that Frame (Table 3.13,
log 184). -/
def State.sourceWords (s : State) (c : Stream) : List Nat :=
  let k := s.grp[(finOf 5 c.group (by decide) : Fin 5)]
  let i : Fin 32 := finOf 32 c.item (by decide)
  if c.src == 0 then k.words[i].map (·.toNat)
  else if c.src == 1 then k.outs[i].map (filterWord (k.latchOk i))
  else if c.src == 2 then (k.injNew.filter fun x => x.1.val == c.item).map fun x => x.2.1.toNat
  else []

/-- The words of the sense sources go to the capture streams (R124). -/
def State.captureWords (s : State) : State := s.feedStreams s.sourceWords

/-- The squares of the Frame's current samples of a Channel (Table 4.7 IRMS). -/
def State.squareSum (s : State) (n : Fin 64) : Nat :=
  ((s.grp[chGroup n]).words[chInI n].map fun w => (rawSample w * rawSample w).toNat).sum

/-- What the converters give in the Frame that ends (R94). -/
def State.senseFrame (s : State) (i : FrameIn) : State :=
  let s1 := overL (List.finRange 5) (fun g s => s.senseGroup g i) s
  (s1.mapCh fun n c => { c with sumSq := c.sumSq + s1.squareSum n }).captureWords

/-- The mean of the raw words of a G4 input over the last Frame is below a level when their sum is (R328): the sum of SAMPLE. -/
def State.g4Sum (s : State) (i : Fin 32) : Int := ((s.grp[(4 : Fin 5)]).words[i].map rawSample).sum

end Sys2Proof.Machine
end

