-- ==== Sys2Proof/Machine/Chan.lean ====
section
/-! DEFINITION. The protection Channels: states and transitions, causes and their precedence, retry policy, admission
entries, the commands CH_ON, CH_OFF and CH_CLEAR, and the timed checks (files 02, 04, 05, 17). -/

namespace Sys2Proof.Machine

open Sys2Proof

/-! ### Quantities of a Channel -/

/-- Frames in 0.1 s and in 10 s. -/
abbrev frames01s : Nat := 25000
abbrev frames10s : Nat := 2500000
/-- Frames in 0.1 ms. -/
abbrev frames01ms : Nat := 25

/-- A probe that something else ends, at the next tick at the latest: what the arc detector was to ignore at its own end is no
more (R227, R236). -/
def Chan.probeOff (c : Chan) (now : Nat) : Chan :=
  if c.creep.probe.isNone then c
  else { c with creep := { c.creep with probe := none, probeCut := false }, arc := { c.arc with marks := c.arc.marks.filter fun f => f ≤ now + 1 } }

/-- A Creep probe holds the FET in linear mode: its PLEN Frames (R235). -/
def Chan.probing (c : Chan) (plen now : Nat) : Bool :=
  match c.creep.probe with
  | some b => b ≤ now && now < b + plen
  | none => false

/-- The states in which the gate is driven and the comparator armed (R190). -/
def driven (c : ChState) : Bool := c == .ramp || c == .on || c == .held

/-- A temperature taken as R181 and R182 take an ambient, from a source code, and whether it is the fallback. Before the first
Period boundary of a start no sensor has a published value: AMBFIX, as where the start has no valid ambient (log 156). -/
def State.ambientFrom (s : State) (n : Fin 64) (src : Nat) : ℚ × Bool :=
  let c := s.ch[s.leader n]
  let fix : ℚ := (s.lf n Fld.AMBFIX : ℚ) - 40
  let fb := match c.lastAmb with
    | some x => max fix x
    | none => fix
  if src == 63 then (fix, false)
  else if src == 62 then
    if s.fr.count - (if c.ambHost.isSome then c.ambHostAt else 0) ≥ frames10s then (fb, true)
    else match c.ambHost with
      | some v => ((v : ℚ) - 40, false)
      | none => (fix, false)
  else if src < 40 && !s.hk.seen then (fix, false)
  else match s.tempSrc src with
    | some x => (x, false)
    | none => (fb, true)

/-- Ambient of a Channel in degC, and whether it is the fallback (R181, R182). -/
def State.ambientOf (s : State) (n : Fin 64) : ℚ × Bool := s.ambientFrom n (s.lf n Fld.AMBSRC)

/-- Whether the ambient is one that the source has delivered in this start: it counts as a valid one for R182, AMBFIX
of the source fixed included (log 182). -/
def State.ambientSeen (s : State) (n : Fin 64) : Bool :=
  let src := s.lf n Fld.AMBSRC
  !(s.ambientOf n).2 && !(src == 62 && (s.ch[s.leader n]).ambHost.isNone) && !(src < 40 && !s.hk.seen)

/-- Node temperatures in degC. -/
def Chan.tcC (c : Chan) : ℚ := (c.tc : ℚ) / 4294967296
def Chan.tiC (c : Chan) : ℚ := (c.ti : ℚ) / 4294967296

/-- CREEPK and the code reduction of a set: the largest among its members (R243). -/
def State.creepK (s : State) (n : Fin 64) : Nat := ((s.members n).map fun m => (s.ch[m]).creep.creepk).foldl max 0
def State.creepRed (s : State) (n : Fin 64) : Nat := ((s.members n).map fun m => (s.ch[m]).creep.red).foldl max 0

/-- Effective limits in degC (R183); those of a set are its leader's (R177). -/
def State.tcEff (s : State) (n : Fin 64) : ℚ :=
  let c := s.ch[s.leader n]
  (min (s.lf n Fld.TCMAX) c.tmb.tcCeil : Nat) - (s.creepK n : ℚ)
def State.tiEff (s : State) (n : Fin 64) : ℚ :=
  let c := s.ch[s.leader n]
  (min (s.lf n Fld.TIMAX) c.tmb.tiCeil : Nat) - (s.creepK n : ℚ)

/-- MARGIN of Table 5.4 in K. -/
def State.wmMargin (s : State) (n : Fin 64) : ℚ :=
  let c := s.ch[s.leader n]
  min (s.tcEff n - c.tcC) (s.tiEff n - c.tiC)

/-- R186: both nodes below the restart levels. -/
def State.restartOk (s : State) (n : Fin 64) : Bool :=
  let c := s.ch[s.leader n]
  let h : ℚ := s.lf n Fld.HYST
  c.tcC < s.tcEff n - h && c.tiC < s.tiEff n - h

/-- The floor and the base less the Creep reduction of R188; those of a set are its leader's (R192). -/
def State.cmpFloor (s : State) (n : Fin 64) : Nat :=
  let l := s.leader n
  s.lf n Fld.ILIM * s.lf n Fld.SHUNT * (s.grp[chGroup l]).pga (chInI l) / 200000 + 1
def State.cmpReduced (s : State) (n : Fin 64) : Nat :=
  let c := s.ch[s.leader n]
  (if c.hot then s.lf n Fld.CMPHOT else s.lf n Fld.CMPCODE) - s.creepRed n

/-- Effective comparator code (R188). -/
def State.cmpEff (s : State) (n : Fin 64) : Nat :=
  max (s.cmpFloor n) (min (s.ch[s.leader n]).tmb.maxCode (s.cmpReduced n))

/-- The gain ahead of the comparator: that of the input while the logic die runs, else that of the last threshold (R190). -/
def State.cmpGain (s : State) (n : Fin 64) : Nat :=
  if s.live then (s.grp[chGroup n]).pga (chInI n) else (s.ch[n]).cmpGain

/-- CMPF in ns (R178). -/
def State.cmpfNs (s : State) (n : Fin 64) : Nat :=
  match s.lf n Fld.CMPF with
  | 0 => 100
  | 1 => 250
  | 2 => 500
  | _ => 1000

/-- FET_SHORT current level in A (R158): the greater of 1 % of ILIM, divided by the set size, and 50 mA. -/
def State.fetLevel (s : State) (n : Fin 64) : ℚ :=
  max ((s.lf n Fld.ILIM : ℚ) / 100 / 100 / (s.setSize n : ℚ)) (5 / 100)

/-- Whether a Bank has a pump in regulation: its own, or a spare that serves it (R63, R136). -/
def State.bankPowered (s : State) (b : Fin 4) : Bool :=
  !s.pump.mismatch[b] && (s.pump.bank[b] == .good ||
    (List.finRange 2).any fun k => s.pump.spare[k] == .good && s.pump.spareFor[k] == some b)

/-- Whether a Bank is left without a pump (R63): its pump step has ended so, or its pump has failed, and no spare runs for
it (log 130). -/
def State.bankDead (s : State) (b : Fin 4) : Bool :=
  s.pump.mismatch[b] || (s.pump.bank[b] == .bad && !((List.finRange 2).any fun k =>
    (s.pump.spare[k] == .good || s.pump.spare[k] == .starting) && s.pump.spareFor[k] == some b))

/-- Q of a ramp in mA s (R137). -/
def State.qOf (s : State) (n : Fin 64) : Nat := rampQ (s.lf n Fld.ILIM) (s.lf n Fld.TRAMP)

/-- PNOM of a Channel in the shed order (Table 9.6). -/
def State.pnom (s : State) (n : Fin 64) : Nat :=
  match s.zone.order.find? (fun w => w.toNat / 2 ^ 26 == n.val) with
  | some w => w.toNat % 65536
  | none => 0

/-- PRED of R350 in W; that of a set is the sum of its members' saved loads. -/
def State.pred (s : State) (n : Fin 64) : ℚ :=
  if s.pnom n != 0 then s.pnom n else ((s.members n).map fun m => (s.ch[m]).savedP).sum

/-! ### The admission queue -/

def State.admEntry (s : State) (n : Fin 64) : Option AdmEntry := s.adm.find? (fun e => e.ch == n)
def State.waiting (s : State) (n : Fin 64) : Bool := s.adm.any (fun e => e.ch == n)

/-- A CH_ON that waits for the admission of a Channel. -/
def isAdmWait (n : Fin 64) (o : Out) : Bool :=
  match o.wait with
  | .admission m => m == n
  | _ => false

/-- An entry leaves the queue; a CH_ON that waits for it completes with a status and the present Frame (R74), and, where it
loses to another change of its Channel, with the state that resulted (R35). -/
def State.admDrop (s : State) (n : Fin 64) (status : Nat) : State :=
  ({ s with adm := s.adm.filter fun e => e.ch != n }).completeOuts (isAdmWait n)
    fun o s => s.complete o.cmd status (some s.fr.count) (if status == 0x12 then le 1 (chStCode (s.ch[n]).st) else [])

/-- The CH_ON that waits for a Channel was executed after the latest CH_OFF or CH_CLEAR of it that has not applied (R404, R405). -/
def State.onLast (s : State) (n : Fin 64) : Bool :=
  (s.outs.reverse.takeWhile fun o => o.wait != .chOff n && o.wait != .clearCheck n).any (isAdmWait n) &&
    s.outs.any fun o => o.wait == .chOff n || o.wait == .clearCheck n

/-- A request enters the queue; one entry per Channel. -/
def State.admAdd (s : State) (e : AdmEntry) : State :=
  if s.waiting e.ch then s else { s with adm := s.adm ++ [e] }

/-- A Channel leaves the restore lists of capping and of the thermal throttle (R353, R567). -/
def State.unrestore (s : State) (n : Fin 64) : State :=
  { s with zone := { s.zone with restore := s.zone.restore.filter fun r => r.ch != n }
           th := { s.th with restore := s.th.restore.filter fun c => c != n } }

/-! ### Transitions -/

/-- Payload of CH_STATE (Table 12.10). -/
def chStatePayload (dst : ChState) (cause : Cause) (detail mask : Nat) (tag : Word) : List Byte :=
  le 1 (chStCode dst) ++ le 1 (causeCode cause) ++ le 2 detail ++ le 4 mask ++ le 4 tag.toNat

/-- The discharge sink of DISCH (R164): code 1 passive, 2 active, the active one after R165 has placed it. -/
def sinkOf (disch : Nat) : Sink := if disch == 1 || disch == 2 then .passive else .none

/-- R165: in a Bank the active sink runs on one Channel, and goes next to the waiting Channel with the lowest number. -/
def State.placeSinks (s : State) : State :=
  overL (List.finRange 4) (fun b s =>
    let cs := allCh.filter fun n => n.val / 16 == b.val && (s.ch[n]).sink != .none
    if cs.any (fun n => (s.ch[n]).sink == .active) then s
    else match cs.filter fun n => s.lf n Fld.DISCH == 2 with
      | [] => s
      | n :: _ => s.updCh n fun c => { c with sink := .active }) s

/-- Whether a cause is an off on a protection path (R541, R543). -/
def protCause (c : Cause) : Bool := 1 ≤ causeCode c && causeCode c ≤ 9

/-- Whether a state is one in which FET_SHORT is tested (R158, R159). -/
def restState (c : ChState) : Bool := c == .off || c == .tripped || c == .lockout

/-- The Channel's own part of a change of state: the gate, the checks that the change arms, the discharge, the record of
a ramp that ends (R141-R170, R541). The check of R158 counts from the Frame whose S1 makes the change, that of a comparator
trip included (log 153). -/
def Chan.change (c : Chan) (now drive disch : Nat) (dst : ChState) (cause : Cause) (mask detail : Nat) (tag : Word) :
    Chan :=
  let c := c.probeOff now
  let leaving := driven c.st && !driven dst
  let ramped := c.st == .ramp
  let dur := if dst == .on then now + 1 - c.t0 else now - c.t0
  -- R227: changes of the gate target by command, shed or a SET_MEMBER trip
  let told := cause == .command || cause == .capShed || cause == .holdupShed || cause == .thermal ||
    cause == .setMember
  let tmb := if leaving && protCause cause then { c.tmb with offAt := some drive, counted := false } else c.tmb
  { c with
    st := dst, cause := cause, mask := BitVec.ofNat 32 mask, detail := BitVec.ofNat 16 detail, lastTr := now, tag := tag
    gate := if leaving || dst == .fetFault then .low else c.gate
    gateNext := if dst == .on then .full else .low
    -- R150, R153: GATE_MIN is due 13 Frames after the tick at which ramp drive or full drive begins
    gateDue := if dst == .ramp || (dst == .on && ramped) then some (now + 14) else none
    gateBad := false, tmbOff := false
    minRun := 0, fetRun := if restState c.st && restState dst then c.fetRun else 0, run98 := 0, vHist := [], miss := [], flat := false
    offAt := if leaving then some now else c.offAt
    sink := if dst == .fetFault then .none else if leaving then sinkOf disch else c.sink
    sinkAt := if leaving then drive else c.sinkAt
    lastDur := if ramped then min 65535 dur else c.lastDur
    lastE := if ramped then c.energy else c.lastE
    lastPeak := if ramped then c.peak else c.lastPeak
    lastQ := if ramped then c.charge else c.lastQ
    hasRamp := c.hasRamp || ramped
    steady := c.steady && dst == .on
    retryAt := if dst == .tripped then c.retryAt else none
    retryOwed := c.retryOwed && dst == .tripped
    tstabFrom := now
    cmpTrip := false
    arc := { c.arc with marks := if told && (leaving || driven dst) then c.arc.marks ++ [if leaving then now else now + 1] else c.arc.marks }
    tmb := { tmb with permit := if leaving then none else tmb.permit } }

/-- The state change of one Channel, with its event and record (R145), the capture trigger, the budget credit of a ramp
that ends (R72) and its place on the lists of R207, R353 and R567. -/
def State.enterNow (s : State) (n : Fin 64) (dst : ChState) (cause : Cause) (mask detail : Nat) (tag : Word) : State :=
  let c := s.ch[n]
  let lead := !s.isFollower n
  let credit : ℚ := (s.qOf n : ℚ) - 1000 * ((s.members n).map fun m => (s.ch[m]).charge).sum
  let z := if lead && c.st == .ramp then
      (if dst == .on then { s.zone with budgetLate := s.zone.budgetLate + credit }
       else { s.zone with budget := min (s.znf Fld.C : ℚ) (s.zone.budget + credit) })
    else s.zone
  let s1 := ({ s with zone := z }).updCh n fun c => c.change s.fr.count s.fr.drive (s.lf n Fld.DISCH) dst cause mask detail tag
  let pl := chStatePayload dst cause detail mask tag
  let s2 := if dst == .tripped || dst == .lockout || dst == .fetFault then s1.postRec 0x0101 n.val pl
    else s1.postOnly 0x0101 n.val pl
  let s3 := when (dst == .fetFault) (fun s => s.setFault 5) s2
  let s4 := when (cause == .wireModel && dst == .tripped) (fun s => { s with wmTrip := true, wmRecDone := s.wmRecDone }) s3
  let s5 := s4.capChannel n (dst == .tripped) cause
  if !lead then s5
  else
    let s6 := when (dst != .ramp && !(cause == .command && s.onLast n)) (fun s => s.admDrop n 0x12) s5
    let s7 := s6.unrestore n
    if dst == .off && cause == .thermal then { s7 with th := { s7.th with restore := s7.th.restore ++ [n] } }
    else if dst == .off && cause == .capShed then
      { s7 with zone := { s7.zone with restore := s7.zone.restore ++ [(⟨n, false⟩ : RestEnt)] } }
    else s7

/-- A change of state of a chip that drives its outputs; any other chip decides nothing (R495). -/
def State.enter (s : State) (n : Fin 64) (dst : ChState) (cause : Cause) (mask detail : Nat) (tag : Word) : State :=
  if s.drives then s.enterNow n dst cause mask detail tag else s

/-- The retry interval after k trips in 0.1 s (R199). -/
def State.retryInterval (s : State) (ld : Fin 64) (k : Nat) : Nat :=
  let base := if s.lf ld Fld.RBACK == 1 then s.lf ld Fld.RINT * 2 ^ (k - 1) else s.lf ld Fld.RINT
  max (s.ch[ld]).tmb.retryMin (min 65535 base)

/-- The members of a set go to LOCKOUT, each with the primary cause of its trip (R201; detail and mask: log 21). -/
def State.lockoutSet (s : State) (ld : Fin 64) (detail : Nat) : State :=
  overL (s.members ld) (fun m s =>
    let c := (s.ch[m]).cause
    s.enter m .lockout c (2 ^ causeCode c) detail 0) s

/-- Action at a trip of a set (R198, Table 5.5), from a given Frame. -/
def State.tripPolicyAt (s : State) (ld : Fin 64) (prim : Cause) (now : Nat) : State :=
  let k := (s.ch[ld]).k + 1
  let s1 := s.updCh ld fun c => { c with k := k, retryAt := none, retryOwed := false }
  if prim == .arc || s.lf ld Fld.RMODE == 0 then s1
  else if k > s.lf ld Fld.RMAX then s1.lockoutSet ld 0x100
  else s1.updCh ld fun c => { c with retryAt := some (now + frames01s * s.retryInterval ld k), retryOwed := true }

def State.tripPolicy (s : State) (ld : Fin 64) (prim : Cause) : State := s.tripPolicyAt ld prim s.fr.count

/-- A cause raised for a Channel in a Frame. -/
structure Raise where
  n : Fin 64
  cause : Cause
  dst : ChState
  detail : Nat
  tag : Word
deriving DecidableEq, Repr

/-- Whether Table 4.5 has the transition. A wire-model trip of a HELD Channel is that of R212 (log 26). -/
def canMove (st : ChState) (dst : ChState) (cause : Cause) : Bool :=
  if dst == .fetFault then st == .ramp || st == .on || st == .off || st == .tripped || st == .lockout
  else if dst == .tripped then driven st
  else if cause == .command then st == .ramp || st == .on || st == .tripped || st == .lockout || st == .fetFault
  else st == .ramp || st == .on

/-- Path code of a TMB_BLOCK record: 0 command without permit, 1 shed, 2 another source. -/
def blockPath (c : Cause) : Nat :=
  if c == .command then 0 else if c == .thermal || c == .holdupShed || c == .capShed then 1 else 2

/-- Whether the drive die blocks an off request for a Channel with CLASSA 1 (R543, R544). -/
def State.offBlocked (s : State) (r : Raise) : Bool :=
  let c := s.ch[r.n]
  r.dst == .off && c.tmb.classA && driven c.st &&
    !(r.cause == .command && (match c.tmb.permit with | some f => s.fr.count ≤ f | none => false))

/-- A blocked off is recorded and counted. -/
def State.tmbBlock (s : State) (r : Raise) : State :=
  ({ s with tmb := { s.tmb with blocks := s.tmb.blocks + 1 } }).iceRecord 0x0F02 r.n.val 2
    (le 4 (blockPath r.cause) ++ le 4 s.fr.count)

/-- The lowest cause of a list of raises, its details joined and its tag. -/
def primaryOf : List Raise → Option (Cause × Nat × Word)
  | [] => none
  | r :: rest =>
    match primaryOf rest with
    | none => some (r.cause, r.detail, r.tag)
    | some (c, d, t) =>
      if causeCode r.cause < causeCode c then some (r.cause, r.detail, r.tag)
      else if causeCode r.cause == causeCode c then some (c, d ||| r.detail, if r.tag == 0 then t else r.tag)
      else some (c, d, t)

/-- The causes raised in one Frame for the Channels of one set are resolved (R144, R169, R170). -/
def State.resolveSet (s : State) (ld : Fin 64) (rs : List Raise) : State :=
  let ok0 := rs.filter fun r => canMove (s.ch[r.n]).st r.dst r.cause
  let s0 := overL (ok0.filter s.offBlocked) (fun r s => s.tmbBlock r) s
  let ok := ok0.filter fun r => !s.offBlocked r
  let lvl : Option ChState := if ok.any (fun r => r.dst == .fetFault) then some .fetFault
    else if ok.any (fun r => r.dst == .tripped) then some .tripped
    else if ok.any (fun r => r.dst == .off) then some .off else none
  match lvl with
  | none => s0
  | some dst =>
    let s1 := overL (s.members ld) (fun m s' =>
      let own := ok.filter fun r => r.n == m
      let mask := (own.map fun r => causeCode r.cause).dedup.foldl (fun a c => a + 2 ^ c) 0
      match primaryOf (own.filter fun r => r.dst == dst) with
      | some (c, d, t) => s'.enter m dst c mask d t
      | none =>
        if dst != .off && canMove (s.ch[m]).st dst .setMember then
          s'.enter m dst .setMember (mask + 2 ^ causeCode .setMember) 0 0
        else s') s0
    if dst == .tripped then
      match primaryOf (ok.filter fun r => r.dst == .tripped) with
      | some (c, _, _) => s1.tripPolicy ld c
      | none => s1
    else s1

/-- Decisions of a chip that does not drive: kept for the self-test of R514, and not acted on (R495). -/
def State.noteDecisions (s : State) (rs : List Raise) : State :=
  let ns := (rs.filter fun r => canMove (s.ch[r.n]).st r.dst r.cause && r.dst != .off).map (·.n)
  { s with hinge := { s.hinge with decisions := (s.hinge.decisions ++ ns).dedup } }

/-- What may still change a target: every cause, and in HANDING only an off on a protection path and a host command that was
executing when HANDING was entered (R506). -/
def State.mayMove (s : State) (r : Raise) : Bool :=
  s.hinge.st != .handing || protCause r.cause || r.cause == .command

/-- All causes raised in one Frame are resolved set by set, in Channel order. -/
def State.resolve (s : State) (rs : List Raise) : State :=
  let rs := rs.filter s.mayMove
  if s.drives then
    overL (allCh.filter fun n => rs.any fun r => s.leader r.n == n)
      (fun ld s' => s'.resolveSet ld (rs.filter fun r => s.leader r.n == ld)) s
  else s.noteDecisions rs

/-- A cause raised by a step of its own. -/
def State.raise1 (s : State) (n : Fin 64) (cause : Cause) (dst : ChState) (detail : Nat := 0) : State :=
  s.resolve [⟨n, cause, dst, detail, 0⟩]

/-- An off cause of a whole set (shed, throttle, command). -/
def State.offSet (s : State) (n : Fin 64) (cause : Cause) (detail : Nat := 0) (tag : Word := 0) : List Raise :=
  (s.members n).map fun m => ⟨m, cause, .off, detail, tag⟩

/-! ### CH_ON (R146, R147, R353) -/

/-- Whether the inputs of every member are in use (R104). -/
def State.inputsOn (s : State) (n : Fin 64) : Bool :=
  (s.members n).all fun m => let g := s.grp[chGroup m]; g.enabled (chInI m) && g.enabled (chInV m)

/-- Less than RETRYMIN has passed since the last protection off of a Channel (R541). -/
def State.tooSoon (s : State) (n : Fin 64) : Bool :=
  let t := (s.ch[n]).tmb
  match t.offAt with
  | some a => s.fr.drive < a + frames01s * t.retryMin
  | none => false

/-- The count of R203 stands at RATEMAX: counted starts of the last 60 s. -/
def State.rateFull (s : State) (n : Fin 64) : Bool :=
  let t := (s.ch[n]).tmb
  (t.starts.filter fun a => s.fr.drive < a + 15000000).length ≥ t.rateMax

/-- Whether the latest CH_OFF or CH_CLEAR of a Channel that has been executed and not applied leaves it OFF. -/
def State.offPends (s : State) (n : Fin 64) : Bool :=
  match (s.outs.filter fun o => o.wait == .chOff n || o.wait == .clearCheck n).getLast? with
  | some o => let st := (s.ch[n]).st
    st == .tripped || if o.wait == .chOff n then st == .ramp || st == .on else st == .lockout
  | none => false

/-- The state of a Channel as the commands executed before leave it at the tick (R404, R405). -/
def State.stAfter (s : State) (n : Fin 64) : ChState := if s.offPends n then .off else (s.ch[n]).st

/-- R353: capping refuses the CH_ON. -/
def State.capRefuses (s : State) (n : Fin 64) : Bool :=
  s.zone.hu == .normal && s.znf Fld.CAP != 0 && s.chClass n != .a && s.stAfter n == .off &&
    s.zone.pz + s.pred n > 10 * (s.znf Fld.CAP : ℚ)

def chIx (t : Taken) : Fin 64 := finOf 64 t.target (by decide)

/-- A CH_OFF in OFF removes a waiting entry (R74); the removal of one that was already accepted is an event (R147). -/
def State.offInOff (s : State) (n : Fin 64) (tag : Word) : State :=
  if s.waiting n then
    let asked := match s.admEntry n with
      | some e => e.src == .host || e.src == .manualRetry
      | none => false
    let told := asked && !(s.outs.any (isAdmWait n))
    let s1 := s.admDrop n 0x30
    if told then s1.postOnly 0x0101 n.val (chStatePayload .off .command 0 (2 ^ causeCode .command) tag) else s1
  else s

/-- The request enters the admission queue; a waiting CH_ON is superseded (R433). An entry that a CH_OFF executed before removes
leaves the queue first (R74, R405). -/
def State.chOnQueue (s : State) (n : Fin 64) (t : Taken) : State :=
  let src : AdmSrc := if s.stAfter n == .tripped then .manualRetry else .host
  let s := if s.outs.any fun o => o.wait == .chOff n then s.offInOff n t.d.tag else s
  let s1 := s.completeOuts (isAdmWait n) fun o s => s.complete o.cmd 0x30 (some s.fr.count)
  let s2 := s1.unrestore n
  let s3 := if s2.waiting n then
      { s2 with adm := s2.adm.map fun e => if e.ch == n then { e with src := src, tag := t.d.tag } else e }
    else s2.admAdd ⟨n, src, t.vis.frame, false, none, t.d.tag⟩
  s3.await t (.admission n)

/-- The checks of cmdChOn beside the ones that every command has (R433). -/
def chkChOn (t : Taken) (s : State) : List (Nat × Bool) :=
  let n := chIx t
  let c := s.ch[n]
  let st := s.stAfter n
  let rest := st == .off || st == .tripped
  [ (0x22, s.isFollower n),
    (0x12, st == .lockout || st == .fetFault || st == .held),
    (0x12, rest && c.tmb.classA && (s.qs[t.q]).cls != .a),
    (0x12, rest && (s.bankDead (State.bank n) || !s.inputsOn n || (s.grp[chGroup n]).health ≥ 3)),
    (0x11, s.capRefuses n),
    (0x10, st == .tripped && (s.members n).any s.tooSoon) ]

/-- CH_ON (R146, R147), by the state that the commands executed before it leave (R404, R405). -/
def cmdChOn (t : Taken) (s : State) : State :=
  let n := chIx t
  let st := s.stAfter n
  s.guarded t (chkChOn t s) fun s =>
      if st == .on then s.complete t 0 none
      else if st == .ramp then s.complete t 1 none (evt := true)
      else s.chOnQueue n t

/-! ### CH_OFF and CH_CLEAR: the effect applies at the next tick -/

/-- The checks of cmdChOff beside the ones that every command has (R433). -/
def chkChOff (t : Taken) (s : State) : List (Nat × Bool) :=
  let n := chIx t
  let c := s.ch[n]
  let drivenA := c.tmb.classA && driven c.st
  [ (0x22, s.isFollower n), (0x12, c.st == .held), (0x12, drivenA && (s.qs[t.q]).cls != .a) ]

/-- CH_OFF (R27, R28, R163, R640); a verified credential arms the permit of R544. -/
def cmdChOff (t : Taken) (s : State) : State :=
  let n := chIx t
  let c := s.ch[n]
  let drivenA := c.tmb.classA && driven c.st
  s.guardedCred t (drivenA && targetOk .channel t) (chkChOff t s) fun s =>
      let s1 := if drivenA then overL (s.members n) (fun m s =>
          s.updCh m fun c => { c with tmb := { c.tmb with permit := some (s.fr.count + 3) } }) s else s
      s1.await t (.chOff n)

/-- The checks of cmdChClear beside the ones that every command has (R433). -/
def chkChClear (t : Taken) (s : State) : List (Nat × Bool) :=
  let n := chIx t
  let c := s.ch[n]
  [(0x22, s.isFollower n), (0x12, c.st == .held)]

/-- CH_CLEAR (R162); of a follower and in HELD: log 22. -/
def cmdChClear (t : Taken) (s : State) : State :=
  let n := chIx t
  let c := s.ch[n]
  s.guarded t (chkChClear t s) fun s =>
    if c.st == .off || c.st == .ramp || c.st == .on then s.complete t 0 none else s.await t (.clearCheck n)

/-- R162: a set with FET_SHORT clears only when every member passes in this latch. -/
def State.clearOk (s : State) (n : Fin 64) : Bool :=
  let mem := s.members n
  !(mem.any fun m => (s.ch[m]).cause == .fetShort) ||
    mem.all fun m => let c := s.ch[m]; c.gateLow && c.vP * 5 < s.vsup m && c.iP < s.fetLevel m

/-- A CH_OFF of the Frame whose S1 admitted the Channel's ramp: the admission outranks it (R33, log 136). -/
def State.justAdmitted (s : State) (n : Fin 64) : Bool := (s.ch[n]).st == .ramp && (s.ch[n]).t0 == s.fr.count

/-- The off requests of the commands that are due at this tick. At a frozen tick the gates keep their target (R45). -/
def State.cmdRaises (s : State) : List Raise :=
  s.outs.flatMap fun o =>
    match o.wait with
    | .chOff n =>
      let st := (s.ch[n]).st
      if st == .tripped || ((st == .ramp || st == .on) && !s.fr.freeze && !s.justAdmitted n) then
        s.offSet n .command 0 o.cmd.d.tag
      else []
    | .clearCheck n =>
      let st := (s.ch[n]).st
      if st == .tripped || st == .lockout || (st == .fetFault && s.clearOk n) then s.offSet n .command 0 o.cmd.d.tag
      else []
    | _ => []

/-- Entries of a Bank left without a pump leave the queue; their CH_ON is refused under R63, and the removal of one that was
already accepted is an event (R74, R147). -/
def State.bankDrop (s : State) : State :=
  overL (allCh.filter fun n => s.waiting n && s.bankDead (State.bank n)) (fun n s =>
    match s.admEntry n with
    | some e =>
      let told := (e.src == .host || e.src == .manualRetry) && !(s.outs.any (isAdmWait n))
      let s1 := s.admDrop n 0x12
      if told then
        s1.postOnly 0x0101 n.val (chStatePayload (s.ch[n]).st .pumpFail 0 (2 ^ causeCode .pumpFail) e.tag)
      else s1
    | none => s) s

/-- Before the causes are resolved: entries that CH_OFF removes, not that of a CH_ON executed after it (R404, R405). -/
def State.cmdBefore (s : State) : State :=
  overL s.outs (fun o s =>
    match o.wait with
    | .chOff n =>
      if s.onLast n then s else if (s.ch[n]).st == .off then s.offInOff n o.cmd.d.tag else s.admDrop n 0x30
    | _ => s) s

/-- k returns to 0 and the Channel leaves the restore lists (R202, R353, R567). -/
def State.clearK (s : State) (n : Fin 64) : State := (s.updCh n fun c => { c with k := 0 }).unrestore n

/-- CH_OFF and CH_CLEAR complete by the state before and after the causes of the Frame; a CH_OFF whose Channel goes off for
another cause has lost to it (R35, R162, R640, log 136). -/
def State.cmdAfter (s pre : State) : State :=
  s.completeOuts (fun o => match o.wait with | .chOff _ => true | .clearCheck _ => true | _ => false) fun o s =>
    let now := some s.fr.count
    match o.wait with
    | .chOff n =>
      let was := (pre.ch[n]).st
      let is := (s.ch[n]).st
      if was == .lockout || was == .fetFault then s.complete o.cmd 0 none
      else if was == .off then
        (s.clearK n).complete o.cmd 0 (if pre.waiting n then now else none)
      else if is == .off && was != .held && (s.ch[n]).cause == .command then (s.clearK n).complete o.cmd 0 now
      else s.complete o.cmd 0x12 none (le 1 (chStCode is))
    | .clearCheck n =>
      if (s.ch[n]).st == .off then (s.clearK n).complete o.cmd 0 now
      else s.complete o.cmd 0x12 none (le 1 (chStCode (s.ch[n]).st))
    | _ => s

/-- A CH_ON that waited on a CH_OFF or CH_CLEAR that has lost completes as in the state that stands (R146, R433). -/
def State.onAfter (s : State) : State :=
  overL (allCh.filter fun n => s.outs.any (isAdmWait n)) (fun n s =>
    match (s.ch[n]).st with
    | .off | .tripped => s
    | st => ({ s with adm := s.adm.filter fun e => e.ch != n } : State).completeOuts (isAdmWait n) fun o s =>
        if st == .on then s.complete o.cmd 0 none
        else if st == .ramp then s.complete o.cmd 1 none (evt := true)
        else s.complete o.cmd 0x12 none (le 1 (chStCode st))) s

/-! ### The comparator (R187-R192, R86) -/

/-- The drive die latches a comparator trip: every gate of the set goes low. -/
def State.compLatch (s : State) (n : Fin 64) : State :=
  let s1 := overL (s.members n) (fun m s => s.updCh m fun c =>
    { c.probeOff s.fr.count with latch := true, gate := .low, gateNext := .low }) s
  s1.updCh n fun c => { c with cmpTrip := true }

/-- A HELD set trips while the logic die is off or in reset: no event is posted (R641); the keep-alive domain holds the
record (R526), and the trip counts at the start (R205). -/
def State.compHeld (s : State) (n : Fin 64) : State :=
  overL (s.members n) (fun m s =>
    let trip := m == n || (s.ch[m]).cmpTrip
    let cause : Cause := if trip then .comparator else .setMember
    let s1 := s.updCh m fun c =>
      { (c.change s.fr.count s.fr.drive (s.lf m Fld.DISCH) .tripped cause (2 ^ causeCode cause) 0 0) with
          cmpTrip := trip, latch := true }
    s1.keepEvent 0x0101 m.val (chStatePayload .tripped cause 0 (2 ^ causeCode cause) 0)) s

/-- Trips latched after the last tick before the logic die goes: no S1 follows that would take them (R192), so the drive die
makes the transition. -/
def State.compPending (s : State) : State :=
  overL (allCh.filter fun n => (s.ch[n]).cmpTrip) (fun n s => if (s.ch[n]).st == .tripped then s else s.compHeld n) s

/-! ### Timed checks. S1 of FRAME_TICK resolves those that fall due in its Frame together with every other cause (R144); the
row of each check does the same for one that is still due, and without its condition it has no effect (log 23, log 141) -/

/-- Digital trips and FET checks act: Frames run, and no relock suspends them (R55). -/
def State.checksRun (s : State) : Bool := s.live && !s.clk.relocking

/-- R154: the Tumbler maximum inrush time since time zero has elapsed. -/
def State.rampOver (s : State) (n : Fin 64) : Bool :=
  let c := s.ch[n]
  decide (c.t0 + frames01ms * c.tmb.tInrush ≤ s.fr.count)

/-- R154: Tumbler's ramp counter has ended a RAMP, or the ramp drive that a Channel in ON still had at its tick. -/
def State.tumblerDue (s : State) (n : Fin 64) : Bool :=
  let c := s.ch[n]
  (c.st == .ramp && s.rampOver n) || (c.st == .on && c.tmbOff)

/-- R154: TRAMP after time zero. -/
def State.rampLate (s : State) (n : Fin 64) : Bool :=
  let c := s.ch[n]
  c.st == .ramp && s.live && !s.clk.relocking && c.t0 + frames01ms * s.lf n Fld.TRAMP ≤ s.fr.count

/-- R150, R153, R157: GATE_MIN clear in the latch of the Frame 13 Frames after drive was applied, or in 13 consecutive Frames of
ON. -/
def State.gateFails (s : State) (n : Fin 64) : Bool :=
  let c := s.ch[n]
  let due := c.gateBad || (c.gateDue == some s.fr.count && !c.gateMin)
  s.live && !s.clk.relocking && ((c.st == .ramp && due) || (c.st == .on && (due || c.minRun ≥ 13)))

/-- R158: the test 50 Frames after the gate was commanded off falls due. -/
def State.fetTestDue (s : State) (n : Fin 64) : Bool :=
  let due := match (s.ch[n]).offAt with
    | some a => a + 50 ≤ s.fr.count
    | none => false
  s.live && !s.clk.relocking && due

/-- What that test finds: GATE_FAIL with the stuck-high detail, or FET_SHORT (R158, R160). A test armed by a move into
FET_FAULT finds a Channel that is there already: it only disarms, and the cause stays (log 152). -/
def State.fetTest (s : State) (n : Fin 64) : List Raise :=
  let c := s.ch[n]
  if !restState c.st then []
  else if !c.gateLow then [⟨n, .gateFail, .fetFault, 1, 0⟩]
  else if c.vP * 5 > s.vsup n && (s.lf n Fld.HOLDCAP == 0 || c.iP ≥ s.fetLevel n) then [⟨n, .fetShort, .fetFault, 0, 0⟩]
  else []

/-- R159: 250 consecutive Frames. -/
def State.fetShorted (s : State) (n : Fin 64) : Bool :=
  let c := s.ch[n]
  s.live && !s.clk.relocking && c.fetRun ≥ 250 && c.offAt.isNone && (c.st == .off || c.st == .tripped || c.st == .lockout)

/-- The timed checks of the Channels that S1 evaluates, and the tests of R158 that they disarm. -/
def State.timedRaises (s : State) (missed : BitVec 64) : List Raise :=
  (allCh.filter fun n => !missed.getLsbD n.val).flatMap fun n =>
    (if s.tumblerDue n then [(⟨n, .tumblerRamp, .tripped, 0, 0⟩ : Raise)] else []) ++
    (if s.rampLate n then [⟨n, .rampTimeout, .tripped, 0, 0⟩] else []) ++
    (if s.gateFails n then [⟨n, .gateFail, .fetFault, 0, 0⟩] else []) ++
    (if s.fetTestDue n then s.fetTest n else []) ++
    (if s.fetShorted n then [⟨n, .fetShort, .fetFault, 0, 0⟩] else [])

/-- A test of R158 is done. -/
def Chan.disarm (c : Chan) : Chan := { c with offAt := none, fetRun := 0 }

def State.disarmTests (s : State) (missed : BitVec 64) : State :=
  s.mapCh fun n c => if s.fetTestDue n && !missed.getLsbD n.val then c.disarm else c

/-- R147: a Class A CH_ON that has waited 75 Frames completes with 0x01 and its entry stays. -/
def execClassAAcceptTimeout (n : Fin 64) (s : State) : Host.Outcome State Fault Refusal :=
  .next (s.completeOuts
    (fun o => isAdmWait n o && (s.qs[o.cmd.q]).cls == .a && o.cmd.vis.frame + 75 ≤ s.fr.count)
    fun o s => s.complete o.cmd 1 none (evt := true))

/-- TUMBLER_RAMP (R154). -/
def execTumblerRamp (n : Fin 64) (s : State) : Host.Outcome State Fault Refusal :=
  .next (if s.tumblerDue n then s.raise1 n .tumblerRamp .tripped else s)

/-- RAMP_TIMEOUT (R154); no digital trip while they are suspended (R55). -/
def execRampTimeout (n : Fin 64) (s : State) : Host.Outcome State Fault Refusal :=
  .next (if s.rampLate n then s.raise1 n .rampTimeout .tripped else s)

/-- GATE_FAIL (R150, R153, R157). -/
def execGateFail (n : Fin 64) (s : State) : Host.Outcome State Fault Refusal :=
  .next (if s.gateFails n then s.raise1 n .gateFail .fetFault else s)

/-- FET_SHORT_TEST (R158, R160). -/
def execFetShortTest (n : Fin 64) (s : State) : Host.Outcome State Fault Refusal :=
  .next (if s.fetTestDue n then (s.updCh n Chan.disarm).resolve (s.fetTest n) else s)

/-- FET_SHORT (R159). -/
def execFetShort (n : Fin 64) (s : State) : Host.Outcome State Fault Refusal :=
  .next (if s.fetShorted n then s.raise1 n .fetShort .fetFault else s)

/-- R200, R204: the automatic retry of a set enters the admission queue, or the set goes to LOCKOUT at the Tumbler
rate. -/
def execRetryDue (n : Fin 64) (s : State) : Host.Outcome State Fault Refusal :=
  let c := s.ch[n]
  let due := match c.retryAt with
    | some a => a ≤ s.fr.count
    | none => false
  .next (if s.live && due && c.st == .tripped && !s.isFollower n then
    let s1 := s.updCh n fun c => { c with retryAt := none }
    if (s.members n).any s.rateFull then s1.lockoutSet n 0x200
    else s1.admAdd ⟨n, .autoRetry, s.fr.count, false, none, 0⟩
  else s)

/-- R202: TSTABLE in ON without a Frame in HOT. -/
def execTstableExpiry (n : Fin 64) (s : State) : Host.Outcome State Fault Refusal :=
  let c := s.ch[n]
  .next (if s.live && c.st == .on && !(s.ch[s.leader n]).hot &&
      c.tstabFrom + frames01s * s.lf n Fld.TSTABLE ≤ s.fr.count then
    s.updCh n fun c => { c with k := 0 } else s)

/-- R164: 30 s of discharge, counted on the drive die. -/
def execDischargeTimeout (n : Fin 64) (s : State) : Host.Outcome State Fault Refusal :=
  let c := s.ch[n]
  .next (if c.sink != .none && c.sinkAt + 3 * frames10s ≤ s.fr.drive then
    (s.updCh n fun c => { c with sink := .none }).placeSinks else s)

/-- R182: the ambient falls back, and AMB_FALLBACK is posted with the ambient in use. -/
def execAmbFallback (n : Fin 64) (s : State) : Host.Outcome State Fault Refusal :=
  let (ta, fb) := s.ambientOf n
  .next (if s.live && fb && !(s.ch[n]).ambFb && !s.isFollower n then
    (s.updCh n fun c => { c with ambFb := true }).postOnly 0x0104 n.val (repS 2 (64 * ta))
  else s)

/-- R544: an unused permit lapses. -/
def execOffPermitLapse (n : Fin 64) (s : State) : Host.Outcome State Fault Refusal :=
  let gone : Bool := match (s.ch[n]).tmb.permit with
    | some f => f < s.fr.count + 1
    | none => false
  .next (if gone == true then s.updCh n fun c => { c with tmb := { c.tmb with permit := none } } else s)

def execChOn (q : Fin 32) (d : CmdArgs) (s : State) : Host.Outcome State Fault Refusal :=
  .next (s.rowCmd cmdChOn 0x0101 q d)
def execChOff (q : Fin 32) (d : CmdArgs) (s : State) : Host.Outcome State Fault Refusal :=
  .next (s.rowCmd cmdChOff 0x0102 q d)
def execChClear (q : Fin 32) (d : CmdArgs) (s : State) : Host.Outcome State Fault Refusal :=
  .next (s.rowCmd cmdChClear 0x0105 q d)

end Sys2Proof.Machine
end

