-- ==== Sys2Proof/Machine/Wire.lean ====
section
/-! DEFINITION. What S1 and the meters do with the latched values of each Channel: the wire model, the ramp and FET
checks, the HOT condition, comparator codes and metering (R149-R171, R172-R195). -/

namespace Sys2Proof.Machine

open Sys2Proof

/-! ### The wire model -/

/-- A node value within its 48 bits (R176). -/
def clamp48 (x : Int) : Int := max (-2 ^ 47) (min (2 ^ 47 - 1) x)

/-- Coefficients of Table 5.2 in SI units, and the ambient. -/
structure WmCo where
  r20 : ℚ
  alpha : ℚ
  cc : ℚ
  ci : ℚ
  rci : ℚ
  ria : ℚ
  ta : ℚ
deriving DecidableEq, Repr

def State.wmCo (s : State) (n : Fin 64) : WmCo :=
  ⟨(s.lf n Fld.R20 : ℚ) / 1000000, (s.lf n Fld.ALPHA : ℚ) / 1000000, (s.lf n Fld.CC : ℚ) / 100, (s.lf n Fld.CI : ℚ) / 100,
    (s.lf n Fld.RCI : ℚ) / 1000, (s.lf n Fld.RIA : ℚ) / 1000, (s.ambientOf n).1⟩

/-- A node and what is left below its LSB, after an increment in K: the 48-bit value takes the whole LSBs of the sum, and the
rest counts with the next increment, so that no bias builds up (R176, log 157). -/
def nodeAdd (x : Int × ℚ) (d : ℚ) : Int × ℚ :=
  let t := d * 4294967296 + x.2
  (clamp48 (x.1 + Rat.floor t), t - Rat.floor t)

/-- One step of both nodes over dt seconds (R172, R176). -/
def wmStep (k : WmCo) (dt i : ℚ) (nodes : (Int × ℚ) × (Int × ℚ)) : (Int × ℚ) × (Int × ℚ) :=
  let tc : ℚ := (nodes.1.1 : ℚ) / 4294967296
  let ti : ℚ := (nodes.2.1 : ℚ) / 4294967296
  let p := single (i * i * k.r20 * (1 + k.alpha * (tc - 20)))
  let dTc := single (dt / k.cc * (p - (tc - ti) / k.rci))
  let dTi := single (dt / k.ci * ((tc - ti) / k.rci - (ti - k.ta) / k.ria))
  (nodeAdd nodes.1 dTc, nodeAdd nodes.2 dTi)

/-- Length of a Frame in seconds for the model (R173). -/
def State.wmDt (s : State) : ℚ := if s.clk.rc then 408 / 100000000 else 4 / 1000000

/-- Steady-state nodes of R212 at a current; the effective limits where 1 - k × alpha is at or below 0.05. -/
def wmSteady (k : WmCo) (i tcEff tiEff : ℚ) : ℚ × ℚ :=
  let g := i * i * k.r20 * (k.rci + k.ria)
  if 1 - g * k.alpha ≤ 5 / 100 then (tcEff, tiEff)
  else
    let tc := (k.ta + g * (1 - 20 * k.alpha)) / (1 - g * k.alpha)
    (tc, k.ta + (tc - k.ta) * k.ria / (k.rci + k.ria))

/-- A node raised to a value, never lowered. -/
def raiseNode (x : Int) (v : ℚ) : Int := max x (clamp48 (rnd (v * 4294967296)))

/-- The current on which the model of a set runs (R177). -/
def State.setI (s : State) (n : Fin 64) : ℚ := ((s.members n).map fun m => (s.ch[m]).iP).sum

/-- No model runs for a follower (R177), in a FAILED Group, or before the first valid latch (R174); that of a set waits for the
first valid latch of every member (log 180). -/
def State.wmIdle (s : State) (n : Fin 64) : Bool :=
  s.isFollower n || (s.grp[chGroup n]).health ≥ 3 || !((s.members n).all fun m => (s.ch[m]).iSeen)

/-- The steps that stand behind a list of latches, as Frames, current of the step and latched current: one per latch (R195),
and one over the Frames of a suspension with the greater of the currents on its two sides (R194). -/
def wmPlan : List WmWork → List (Nat × ℚ × ℚ)
  | [] => []
  | [w] => if w.susp then [] else [(1, w.i, w.i)]
  | w :: x :: rest =>
    if w.susp && w.frames != 0 then (w.frames, (if |w.i| > |x.i| then w.i else x.i), x.i) :: wmPlan rest
    else if w.susp then wmPlan (x :: rest)
    else (1, w.i, w.i) :: wmPlan (x :: rest)

/-- The cases of R184 that hold, as detail bits. -/
def State.wmBitsOf (s : State) (n : Fin 64) (c : Chan) : Nat :=
  bit (s.tcEff n ≤ c.tcC) + 2 * bit (s.tiEff n ≤ c.tiC) +
    4 * bit (s.lf n Fld.IWMAX != 0 && c.iwRun ≥ s.lf n Fld.NWMAX + 1)

def State.wmBits (s : State) (n : Fin 64) : Nat := s.wmBitsOf n (s.ch[n])

/-- HOT with its hysteresis, of the nodes as they stand (R185). -/
def State.hotOf (s : State) (n : Fin 64) (c : Chan) : Bool :=
  let hk : ℚ := s.lf n Fld.HOTK
  if c.hot then !(c.tcC < s.tcEff n - hk - 1 && c.tiC < s.tiEff n - hk - 1)
  else s.tcEff n - hk ≤ c.tcC || s.tiEff n - hk ≤ c.tiC

/-- One step of a model and what S1 judges at it: the nodes, HOT, the run of IWMAX, the cases of R184. -/
def State.wmTake (s : State) (n : Fin 64) (k : WmCo) (c : Chan) (x : Nat × ℚ × ℚ) : Chan :=
  let nodes := wmStep k (s.wmDt * x.1) x.2.1 ((c.tc, c.tcRem), (c.ti, c.tiRem))
  let above : Bool := s.lf n Fld.IWMAX != 0 && |x.2.2| * 10 ≥ (s.lf n Fld.IWMAX : ℚ)
  let c1 := { c with
    tc := nodes.1.1, tcRem := nodes.1.2, ti := nodes.2.1, tiRem := nodes.2.2, iwRun := if above then c.iwRun + 1 else 0 }
  { c1 with hot := s.hotOf n c1, wmHit := c1.wmHit ||| s.wmBitsOf n c1 }

/-- R212 at the first latched current of a HELD Channel: no node is lowered. -/
def State.wmFirst (s : State) (n : Fin 64) (k : WmCo) (i : ℚ) (c : Chan) : Chan :=
  if !c.stepping && c.st == .held then
    let ss := wmSteady k i (s.tcEff n) (s.tiEff n)
    let tc := raiseNode c.tc ss.1
    let ti := raiseNode c.ti ss.2
    let up := tc != c.tc || ti != c.ti
    { c with tc := tc, ti := ti, raised12 := c.raised12 || up, nodeSrc := if up then 1 else c.nodeSrc }
  else c

/-- The model of a Channel that S1 evaluates: the steps it owes and that of the present latch, in order. -/
def State.wireChan (s : State) (n : Fin 64) : Chan :=
  let c := s.ch[n]
  let k := s.wmCo n
  let i := s.setI n
  let first : ℚ := match c.wmWork with | w :: _ => w.i | [] => i
  let c0 := s.wmFirst n k first { c with wmHit := 0, wmWork := [] }
  let c1 := (wmPlan (c.wmWork ++ [⟨1, i, false⟩])).foldl (s.wmTake n k) c0
  { c1 with stepping := true, ta := k.ta }

/-- A Frame of a suspension adds to those behind the last latch before it (R194). Its latch neither counts toward NWMAX nor breaks
the run of IWMAX (R184, log 181). -/
def Chan.wmSuspend (c : Chan) : Chan :=
  { c with wmHit := 0, wmWork := c.wmWork.map fun w => if w.susp then { w with frames := w.frames + 1 } else w }

/-- A Frame of a suspension for a model that runs. One whose first valid latch it is takes that latch (R174, R212), and its steps
are owed from there on (R194). -/
def State.wmRelock (s : State) (n : Fin 64) : Chan :=
  let c := s.ch[n]
  if c.stepping then c.wmSuspend
  else
    let i := s.setI n
    { (s.wmFirst n (s.wmCo n) i { c with wmHit := 0 }) with stepping := true, wmWork := [⟨1, i, true⟩] }

/-- The last latch before a suspension stands in front of its Frames (R194). -/
def State.wmHold (s : State) (n : Fin 64) : Chan :=
  let c := s.ch[n]
  if s.wmIdle n || c.wmWork.any (·.susp) then c else { c with wmWork := c.wmWork ++ [⟨0, s.setI n, true⟩] }

/-- What S1 does with a model: a step where it evaluates the Channel; else its latch waits. HOT is judged of the nodes as they
stand where no step is taken (R185); a Frame in HOT starts TSTABLE again (R202). A valid ambient is kept, and a fallback that has
ended can be reported again (R182). -/
def State.wireS1 (s : State) (missed : BitVec 64) (n : Fin 64) : Chan :=
  let c := s.ch[n]
  let judged (c : Chan) : Chan := if s.isFollower n then c else { c with hot := s.hotOf n c }
  let c1 := if s.wmIdle n then judged { c with wmHit := 0 }
    else if s.clk.relocking then judged (s.wmRelock n)
    else if missed.getLsbD n.val then { c with wmHit := 0, wmWork := c.wmWork ++ [⟨1, s.setI n, false⟩] }
    else s.wireChan n
  let amb := s.ambientOf n
  { c1 with
    tstabFrom := if c1.hot then s.fr.count else c.tstabFrom
    lastAmb := if s.ambientSeen n then some amb.1 else c.lastAmb
    ambFb := c1.ambFb && amb.2 }

/-- WM_HOT and WM_COOL payload. -/
def State.hotPayload (s : State) (n : Fin 64) : List Byte :=
  repS 2 (64 * (s.ch[n]).tcC) ++ repS 2 (64 * (s.ch[n]).tiC) ++ repS 2 (64 * s.wmMargin n)

/-- The model of every Channel in S1, with the HOT events. -/
def State.wireAll (s : State) (missed : BitVec 64) : State :=
  let s1 := s.mapCh fun n _ => s.wireS1 missed n
  overL allCh (fun n s' =>
    if (s.ch[n]).hot == (s'.ch[n]).hot then s'
    else s'.postOnly (if (s'.ch[n]).hot then 0x0102 else 0x0103) n.val (s'.hotPayload n)) s1

/-- Wire-model trips of S1: of a leader that carries current through a driven gate and whose model runs. -/
def State.wireRaises (s : State) (missed : BitVec 64) : List Raise :=
  allCh.flatMap fun n =>
    let c := s.ch[n]
    if c.stepping && driven c.st && !s.isFollower n && !missed.getLsbD n.val && (s.grp[chGroup n]).health < 3 &&
        !s.clk.relocking && c.wmHit != 0 then [⟨n, .wireModel, .tripped, c.wmHit, 0⟩] else []

/-! ### Ramps and the pass-FET checks -/

/-- Energy budget of a ramp in J, fixed at time zero (R152, R240): rounded down to 1 mJ. -/
def State.soaBudget (s : State) (n : Fin 64) : ℚ :=
  (min (s.lf n Fld.SOAE * (s.ch[n]).creep.fsoa / 1000) (s.ch[n]).tmb.soaCeil : Nat) / 1000

/-- One latch of a ramp from time zero on (R151, R153, R155): the energy from the protection taps, peak and charge from the
notch output, as the meters take them (R116, R171). -/
def Chan.rampLatch (c : Chan) (x : Latch) : Chan :=
  let h := c.vHist ++ [x.v]
  let up := c.t0 < x.frame && x.v * 100 ≥ x.vs * 98
  { c with
    energy := c.energy + max 0 (x.vs - x.v) * max 0 x.i * (4 / 1000000)
    charge := c.charge + x.m * (4 / 1000000)
    peak := max c.peak x.m
    vHist := h.drop (h.length - 26)
    -- two consecutive latches end the ramp, and S1 takes them as they stand
    run98 := if c.run98 ≥ 2 then c.run98 else if up then c.run98 + 1 else 0 }

/-- What S0 has latched of a Channel. -/
def State.latchNow (s : State) (n : Fin 64) : Latch :=
  let c := s.ch[n]
  ⟨s.fr.count, c.iP, c.iM, c.vP, s.vsup n, c.gateLow, c.gateMin⟩

/-- Condition a of SHORT_RAMP in a latch (R155): no sooner than 25 Frames after time zero, below 10 % of Vsup, and risen by less
than DVFLOOR over 100 µs. -/
def Chan.flatAt (c : Chan) (dvfloor : Nat) (x : Latch) : Bool :=
  let slope := match c.vHist with
    | v0 :: _ => c.vHist.length == 26 && (x.v - v0) * 100 < (dvfloor : ℚ)
    | [] => false
  c.t0 + 25 ≤ x.frame && x.v * 10 < x.vs && slope

/-- FET_SHORT's condition of R159 in a latch, at a current level. -/
def Latch.shorted (x : Latch) (lvl : ℚ) : Bool := x.low && x.v * 5 > x.vs && x.i ≥ lvl

/-- A Channel's checks at one latch: the ramp accumulators, the runs of GATE_MIN (none in the Frames of
a probe, R237) and of R159, the end of the discharge. -/
def State.checkLatch (s : State) (n : Fin 64) (c : Chan) (x : Latch) : Chan :=
  let ramp := c.st == .ramp && c.t0 ≤ x.frame
  let c1 := if ramp then c.rampLatch x else c
  { c1 with
    flat := c1.flat || (ramp && c1.flatAt (s.lf n Fld.DVFLOOR) x)
    minRun := if c.st == .on && c.gate == .full && !x.min && !c.probing (s.lf n Fld.PLEN) x.frame then c.minRun + 1 else 0
    gateDue := if c.gateDue == some x.frame then none else c.gateDue
    gateBad := c.gateBad || (c.gateDue == some x.frame && !x.min)
    fetRun := if restState c.st && c.offAt.isNone && x.shorted (s.fetLevel n) then min 250 (c.fetRun + 1) else 0
    sink := if x.v < 1 then .none else c.sink }

/-- A Channel's checks in S1, over the latches that it has not evaluated and the present one (R195). -/
def State.checkChan (s : State) (n : Fin 64) : Chan :=
  let c := s.ch[n]
  (c.miss ++ [s.latchNow n]).foldl (s.checkLatch n) { c with miss := [], flat := false }

/-- SHORT_RAMP (R155): detail bits of the conditions that hold. The common output of a set is taken at its leader (R168,
log 154). -/
def State.shortBits (s : State) (n : Fin 64) : Nat :=
  let c := s.ch[n]
  bit (s.ch[s.leader n]).flat + 2 * bit (c.budget ≤ c.energy)

def State.rampRaises (s : State) (missed : BitVec 64) : List Raise :=
  if s.clk.relocking then []
  else allCh.flatMap fun n =>
    let c := s.ch[n]
    if c.st == .ramp && c.t0 ≤ s.fr.count && !missed.getLsbD n.val && s.shortBits n != 0 &&
        (s.grp[chGroup n]).health < 3 then
      [⟨n, .shortRamp, .tripped, s.shortBits n, 0⟩] else []

/-- The checks of every Channel that S1 evaluates; a Channel that is not reached keeps its latch for the next Frame (R195). The
accumulators go on while digital trips are suspended (R151). -/
def State.checkAll (s : State) (missed : BitVec 64) : State :=
  s.mapCh fun n c =>
    if missed.getLsbD n.val then { c with miss := c.miss ++ [s.latchNow n] } else s.checkChan n

/-- R541 on the drive die at the start of ramp drive: the first start after a protection off is refused while it comes
too soon or the count is full; else it counts (R542). -/
def State.driveStart (s : State) (n : Fin 64) : State :=
  let t := (s.ch[n]).tmb
  if t.offAt.isNone || t.counted then s
  else
    s.updCh n fun c => { c with tmb := { c.tmb with
      counted := true
      starts := (c.tmb.starts.filter fun a => s.fr.drive < a + 15000000) ++ [s.fr.drive] } }

/-- A limit that Tumbler clamps is recorded and counted (Table 17.2). -/
def State.tmbClamp (s : State) (n : Fin 64) (field req : Nat) : State :=
  ({ s with tmb := { s.tmb with clamps := min 255 (s.tmb.clamps + 1) } }).iceRecord 0x0F03 n.val 1
    (le 4 field ++ le 4 req)

/-- Time zero of the ramps that were admitted in the last Frame: the budget is fixed, the drive-die checks act, the
Channels they refuse are raised. -/
def State.timeZero (s : State) : State × List Raise :=
  let ns := allCh.filter fun n => (s.ch[n]).st == .ramp && (s.ch[n]).t0 == s.fr.count
  let bad := fun n => (s.ch[n]).tmb.offAt.isSome && !(s.ch[n]).tmb.counted && (s.tooSoon n || s.rateFull n)
  let s1 := overL ns (fun n s =>
    let want := s.lf n Fld.SOAE * (s.ch[n]).creep.fsoa / 1000
    let b := s.soaBudget n
    let s1 := when (want > (s.ch[n]).tmb.soaCeil) (fun s => s.tmbClamp n 1 want) s
    let s2 := s1.updCh n fun c => { c with energy := 0, charge := 0, peak := 0, budget := b, vHist := [], run98 := 0 }
    if bad n then
      (if s.tooSoon n then s2.tmbClamp n 4 ((s.fr.drive - (s.ch[n]).tmb.offAt.getD 0) / frames01s)
       else s2.tmbClamp n 5 ((s.ch[n]).tmb.rateMax + 1)).updCh n fun c => { c with gate := .low, gateNext := .low }
    else s2.driveStart n) s
  (s1, (ns.filter bad).map fun n => ⟨n, .tumblerRamp, .tripped, 0, 0⟩)

/-- Ramp end (R153): the output has been at or above 98 % of Vsup in 2 consecutive latches; the common output of a set is taken
at its leader (log 154). -/
def State.rampEnds (s : State) (missed : BitVec 64) : State :=
  overL (allCh.filter fun n => (s.ch[n]).st == .ramp && !s.isFollower n && !missed.getLsbD n.val && (s.ch[n]).run98 ≥ 2)
    (fun n s => overL (s.members n) (fun m s => s.enter m .on .admitted (2 ^ causeCode .admitted) 0 0) s) s

/-! ### Actuation -/

/-- Length of a Frame in ms and in ns (R173). -/
def State.frameMs (s : State) : ℚ := if s.clk.rc then 408 / 100000 else 4 / 1000
def State.frameNs (s : State) : ℚ := s.frameMs * 1000000

/-- The gate of a Channel at the tick: the target staged in the last Frame takes effect (R10); while frozen, or where the word
is lost on the die-to-die link, it stays (R45, R11); a latched trip keeps it low (R191). -/
def State.gateAt (s : State) (n : Fin 64) : Gate :=
  let c := s.ch[n]
  if c.latch then .low
  else if s.fr.freeze || s.linkLost.contains (.gate n) then c.gate
  else if c.gateNext == .full || c.gateNext == .ramp then c.gateNext
  else if c.st == .on || c.st == .held || c.st == .ramp then c.gate
  else .low

/-- The gates and the ramp references at the tick. A reference starts where ramp drive does and slews between ticks (R149);
Tumbler's ramp counter turns the gate off at its tick (R154). -/
def State.applyGates (s : State) : State :=
  s.mapCh fun n c =>
    let g := s.gateAt n
    let ref := if g == .ramp then (if c.gate == .ramp then c.ref + c.slope * s.frameMs else c.refStart) else c.ref
    if g == .ramp && s.rampOver n then { c with gate := .low, gateNext := .low, tmbOff := true }
    else { c with gate := g, ref := ref }

/-- The comparator codes sent in the last S4 are in force (R189), but for one whose word is lost on the link (R11). -/
def State.applyCodes (s : State) : State :=
  s.mapCh fun n c => if s.linkLost.contains (.threshold n) then c else { c with cmp := c.cmpNext }

/-- S4: the effective codes are sent; a code above the Tumbler maximum is clamped by the drive die (R30), and a code raised by
the floor is recorded once per start (R188). -/
def State.sendCodes (s : State) : State :=
  overL allCh (fun n s =>
    let e := s.cmpEff n
    let top := (s.ch[s.leader n]).tmb.maxCode
    let fl := s.cmpFloor n
    let red := s.cmpReduced n
    let s1 := when (e > top && (e != (s.ch[n]).cmpAsk || (s.ch[n]).cmpNext != top)) (fun s => s.tmbClamp n 0 e) s
    let s2 := when (fl > red && !(s.ch[n]).clipped)
      (fun s => (s.iceRecord 0x0122 n.val 0 (le 1 fl ++ le 1 red)).updCh n fun c => { c with clipped := true }) s1
    s2.updCh n fun c => { c with cmpNext := min e top, cmpAsk := e }) s

/-! ### Meters (R171, R350) -/

/-- The counting work of the Frame that ends, from its latches (R171, R231). -/
def State.s5Chan (s : State) (n : Fin 64) : S5Chan :=
  let c := s.ch[n]
  let setI := ((s.members n).map fun m => (s.ch[m]).iM).sum
  ⟨c.iM, c.vM, s.vsup n - c.vM, c.st == .on || c.st == .held,
    c.st == .on && c.gateFull && c.creep.probe.isNone && c.iOk && c.vOk,
    c.st == .on && setI * 1000 > (s.lf n Fld.ILIM : ℚ)⟩

def State.s5Work (s : State) : S5Work := ⟨s.fr.count, Vector.ofFn fun n => s.s5Chan n⟩

/-- The meters of a Channel take the counting work of one Frame (R171). -/
def Chan.meter (c : Chan) (first : Bool) (x : S5Chan) : Chan :=
  let p := x.v * x.i
  { c with
    iMin := if first then x.i else min c.iMin x.i
    iMax := if first then x.i else max c.iMax x.i
    sumI := c.sumI + x.i, sumV := c.sumV + x.v, sumP := c.sumP + p, sumF := c.sumF + x.drop * x.i
    efwd := if p > 0 then c.efwd + p * (4 / 1000000) else c.efwd
    erev := if p < 0 then c.erev - p * (4 / 1000000) else c.erev
    ton := c.ton + bit x.ton
    creep := { c.creep with
      sumVI := c.creep.sumVI + x.drop * x.i, sumII := c.creep.sumII + x.i * x.i, sumI := c.creep.sumI + x.i
      okPeriod := c.creep.okPeriod && x.ok }
    onFrames := c.onFrames + bit x.above }

/-- The meters of every Channel take the work of one Frame. -/
def State.meterWork (s : State) (w : S5Work) : State := s.mapCh fun n c => c.meter (w.frame % 250 == 0) w.ch[n]

/-- S5 counts the Frame that ends behind what the Frame before left unfinished; where carry says that it does not end in
time, it leaves this Frame's count to the S5 of the next one (R48). -/
def State.meterAll (s : State) (carry : Bool) : State :=
  let w := s.s5Work
  let s1 := overL s.s5Held (fun w s => s.meterWork w) { s with s5Held := if carry then [w] else [] }
  if carry then s1 else s1.meterWork w

end Sys2Proof.Machine
end

