-- ==== Sys2Proof/Machine/ArcCreep.lean ====
section
/-! DEFINITION. The arc detector, Creep and the Channel read (file 06; Tables 4.7, 5.4 and 6.10). -/

namespace Sys2Proof.Machine

open Sys2Proof

/-! ### Raw words and signatures -/

/-- The values of the words of a block: a TAG 11 word takes the value before it (R215). -/
def arcValues (prev : Int) : List Half → List (Half × Int)
  | [] => []
  | w :: r => let v := if rawTag w == 3 then prev else rawSample w; (w, v) :: arcValues v r

/-- In DEGRADED a TAG 01 word takes the mean of the words before and after it (R230). -/
def arcMeans (prev : Int) : List (Half × Int) → List ℚ
  | [] => []
  | (w, v) :: r =>
    (match r with
      | (_, x) :: _ => if rawTag w == 1 then ((prev + x : Int) : ℚ) / 2 else v
      | [] => v) :: arcMeans v r

/-- The samples of a block behind the last value of the one before. -/
def arcSamples (degraded : Bool) (prev : Int) (ws : List Half) : List ℚ :=
  let l := arcValues prev ws
  if degraded then arcMeans prev l else l.map fun x => (x.2 : ℚ)

/-- Mean of a list of samples. -/
def meanQ (l : List ℚ) : ℚ := if l.isEmpty then 0 else l.sum / l.length

def sampleAt (l : List ℚ) (i : Nat) : ℚ := l.getD i 0

/-- Samples as magnitudes along the direction of a mean. -/
def along (m v : ℚ) : ℚ := if m < 0 then -v else v

/-- Step collapse at word e (Table 6.2): within 10 words the current falls by STEPMIN of the mean of the 50 words before,
and stays there for 50 words. e is the first word below. -/
def collapseAt (l : List ℚ) (frac : ℚ) (e : Nat) : Bool :=
  (List.range 10).any fun d =>
    let j := e - d
    let m := meanQ ((l.drop (j - 50)).take 50)
    let lim := |m| * (1 - frac)
    50 + d ≤ e && 0 < |m| && along m (sampleAt l (e - 1)) > lim &&
      (List.range 51).all fun k => along m (sampleAt l (e + k)) ≤ lim

/-- Step rise at word e: by STEPMIN of the previous mean and by 2 × AIMIN (rise in samples), for 50 words. -/
def riseAt (l : List ℚ) (frac rise : ℚ) (e : Nat) : Bool :=
  (List.range 10).any fun d =>
    let j := e - d
    let m := meanQ ((l.drop (j - 50)).take 50)
    let lim := |m| + max (|m| * frac) rise
    50 + d ≤ e && along m (sampleAt l (e - 1)) < lim &&
      (List.range 51).all fun k => along m (sampleAt l (e + k)) ≥ lim

/-- A restrike event that returns at word r: the current was below half of the mean of the 50 words before the fall, for
1-50 words, and is above 80 % of that mean at r for the first time. -/
def restrikeAt (l : List ℚ) (r : Nat) : Bool :=
  (List.range 60).any fun d =>
    let f := r - 1 - d
    let m := meanQ ((l.drop (f - 50)).take 50)
    let low (i : Nat) : Bool := along m (sampleAt l i) * 2 < |m|
    let back (i : Nat) : Bool := along m (sampleAt l i) * 10 > |m| * 8
    51 + d ≤ r && 0 < |m| && !low (f - 1) && low f && back r &&
      ((List.range (d + 1)).all fun k => !back (f + k)) &&
      ((List.range (d + 1)).filter fun k => low (f + k)).length ≤ 50

/-- Signatures that a block completes, over the last words of the block before it and its own (log 30). -/
def arcSignatures (prev cur : List ℚ) (frac rise : ℚ) (ramping : Bool) : List Nat :=
  let l := prev ++ cur
  let n := prev.length
  let inBlock := (List.range cur.length).map fun i => n + i
  let confirmed := inBlock.map fun i => i - 50
  (if confirmed.any (collapseAt l frac) then [1] else []) ++
    (if (inBlock.filter (restrikeAt l)).length ≥ 2 then [2] else []) ++
    (if !ramping && confirmed.any (riseAt l frac rise) then [3] else [])

/-! ### Band-pass filters (R216, Table 6.1) -/

/-- One second-order section, transposed direct form, with its coefficients and its two state values: the new state and output. -/
def section2 (k : ℚ × ℚ × ℚ × ℚ × ℚ) (w : ℚ × ℚ) (x : ℚ) : (ℚ × ℚ) × ℚ :=
  let y := k.1 * x + w.1
  ((k.2.1 * x - k.2.2.2.1 * y + w.2, k.2.2.1 * x - k.2.2.2.2 * y), y)

/-- The -3 dB edges of the sub-bands in Hz (Table 6.1), and a frequency as a fraction of the 5 MS/s input rate. -/
def bandEdges (b : Fin 4) : Nat × Nat :=
  match b.val with
  | 0 => (20000, 50000)
  | 1 => (50000, 150000)
  | 2 => (150000, 400000)
  | _ => (400000, 1000000)
def freqWord (hz : Nat) : Word := BitVec.ofNat 32 (hz * 2 ^ 32 / 5000000)

/-- The fourth-order filters that are taken where the device's own coefficients do not have the edges: Butterworth (log 160). -/
def butterworth (b : Fin 4) : (ℚ × ℚ × ℚ × ℚ × ℚ) × (ℚ × ℚ × ℚ × ℚ × ℚ) :=
  let f (g a b c d : ℚ) : (ℚ × ℚ × ℚ × ℚ × ℚ) × (ℚ × ℚ × ℚ × ℚ × ℚ) :=
    let e (x : ℚ) : ℚ := x / 1000000000000
    ((e g, 0, -e g, -e a, e b), (e g, 0, -e g, -e c, e d))
  match b.val with
  | 0 => f 18602186367 1961981744746 965084347688 1981599649529 982382222216
  | 1 => f 60180408065 1856717888231 882877859320 1943332477053 948241755548
  | 2 => f 141715791513 1568327694101 740934275809 1823930053318 865598419451
  | _ => f 302183554211 623482460232 510653759730 1421156255143 680824116590

/-- The power gain of a sub-band's filter at a frequency. -/
def bandPower (k : (ℚ × ℚ × ℚ × ℚ × ℚ) × (ℚ × ℚ × ℚ × ℚ × ℚ)) (hz : Nat) : ℚ :=
  sectionPower k.1 (freqWord hz) * sectionPower k.2 (freqWord hz)

/-- Whether two sections make the filter of a sub-band: stable, 1 in the middle of the band, and -3 dB at its edges, each to
0.05 dB (Table 6.1). -/
def bandMeets (b : Fin 4) (k : (ℚ × ℚ × ℚ × ℚ × ℚ) × (ℚ × ℚ × ℚ × ℚ × ℚ)) : Bool :=
  let stable (x : ℚ × ℚ × ℚ × ℚ × ℚ) : Bool := |x.2.2.2.2| < 1 && |x.2.2.2.1| < 1 + x.2.2.2.2
  let edge (hz : Nat) : Bool := 495 ≤ 1000 * bandPower k hz && 1000 * bandPower k hz ≤ 507
  let mid := 1000 * bandPower k (Nat.sqrt ((bandEdges b).1 * (bandEdges b).2))
  stable k.1 && stable k.2 && edge (bandEdges b).1 && edge (bandEdges b).2 && 989 ≤ mid && mid ≤ 1011

/-- The sections of a sub-band's filter (R216). -/
def bandSections (b : Fin 4) : (ℚ × ℚ × ℚ × ℚ × ℚ) × (ℚ × ℚ × ℚ × ℚ × ℚ) :=
  if bandMeets b (Config.arcSections b.val) then Config.arcSections b.val else butterworth b

/-- One sample through the fourth-order filter of a sub-band: its two sections in series. -/
def bandStep (b : Fin 4) (st : Vector (ℚ × ℚ) 2) (x : ℚ) : Vector (ℚ × ℚ) 2 × ℚ :=
  let r0 := section2 (bandSections b).1 st[0] x
  let r1 := section2 (bandSections b).2 st[1] r0.2
  (#v[r0.1, r1.1], r1.2)

/-- A block through the filter of a sub-band: the state that it leaves, and the sum of the squares of its output. -/
def bandRun (b : Fin 4) (st : Vector (ℚ × ℚ) 2) (l : List ℚ) : Vector (ℚ × ℚ) 2 × ℚ :=
  l.foldl (fun a x => let r := bandStep b a.1 x; (r.1, a.2 + r.2 * r.2)) (st, 0)

/-! ### Block evaluation -/

/-- LSB of the raw word of a Channel in A. -/
def State.arcLsb (s : State) (n : Fin 64) : ℚ := s.chFs n / 8192

/-- A Group in DEGRADED health (Table 3.7). -/
def State.degraded (s : State) (n : Fin 64) : Bool := (s.grp[chGroup n]).health == 2

/-- Whether a block qualifies on noise for a detector (R218, R219, R230). -/
def State.arcQualifies (s : State) (n : Fin 64) (rms : Vector Nat 4) (mean : ℚ) : Bool :=
  let k := (s.ch[n]).arc
  let degraded := s.degraded n
  let ratio : ℚ := (s.lf n Fld.NRATIO : ℚ) / 2
  let bands := (List.finRange 4).filter fun b => (!degraded || b.val < 3) && ((rms[b] : Nat) : ℚ) ≥ ratio * k.floor[b]
  s.arcActive n && k.learned ≥ 25 && bands.length ≥ (if degraded then 2 else 3) &&
    |mean| * s.arcLsb n * 10 ≥ (s.lf n Fld.AIMIN : ℚ)

/-- The words of a Channel's current input join the running block (R215, R217): those of the scan alone, so that no injected
result is among them. -/
def State.arcFeed (s : State) : State :=
  s.mapCh fun n c => { c with arc := { c.arc with buf := c.arc.buf ++ (s.grp[chGroup n]).words[chInI n] } }

/-- A block ends (R217): its samples, the RMS of each sub-band, its noise qualification. In DEGRADED a TAG 01 word that stands
last waits for the word after it, in the next block (log 158). The RMS is kept to 1/16 LSB (log 191). -/
def State.arcClose (s : State) (n : Fin 64) : ArcSt :=
  let k := (s.ch[n]).arc
  let degraded := s.degraded n
  let wait : Bool := degraded && (match k.buf.getLast? with | some w => rawTag w == 1 | none => false)
  let ws := if wait then k.buf.dropLast else k.buf
  let l := arcSamples degraded (match k.lastWords.getLast? with | some x => Rat.floor x | none => 0) ws
  let runs := Vector.ofFn fun (b : Fin 4) => bandRun b k.sect[b] l
  let rms := Vector.ofFn fun (b : Fin 4) => (rnd (16 * root ((runs[b]).2 / l.length))).toNat
  { k with
    buf := if wait then k.buf.drop (k.buf.length - 1) else []
    sect := runs.map (·.1), blk := l, rms := rms, qual := s.arcQualifies n rms (meanQ l), due := true }

/-- The bits of Table 6.4 for the scored blocks. -/
def arcBits (seen : List Nat) (degraded : Bool) : Nat :=
  let has (k : Nat) : Bool := seen.any fun x => x / 2 ^ k % 2 == 1
  1 + 2 * bit (has 1) + 4 * bit (has 2) + 8 * bit (has 3) + 16 * bit (has 3 && !has 1) + 32 * bit degraded

/-- Score of a detector (R222). -/
def ArcSt.score (k : ArcSt) : Nat := k.points.sum

/-- Whether a change in a Frame of the list mutes the block that ends at a tick: one in that block or in the one before it
(Table 6.5). -/
def mutes (marks : List Nat) (tick : Nat) : Bool := marks.any fun f => tick ≤ f + 20 && f < tick

/-- ASTATE (Table 6.10). -/
def State.astate (s : State) (n : Fin 64) : Nat :=
  bit (s.arcActive n) + 2 * bit ((s.ch[n]).arc.learned < 25) + 4 * bit (s.degraded n) +
    8 * bit (!s.pump.domain48[State.bank n])

/-- A detector's state after the evaluation of its block: floor, points, signatures (R218-R222, R227). others counts the other
active sets that qualify, tick is the one that ended the block. -/
def State.arcStep (s : State) (n : Fin 64) (tick others : Nat) : ArcSt :=
  let c := s.ch[n]
  let k := c.arc
  let words := (k.lastWords ++ k.blk).drop ((k.lastWords ++ k.blk).length - 110)
  let ratio := Vector.ofFn fun b : Fin 4 => if k.floor[b] ≤ 0 then 0 else satU 1 (rnd (((k.rms[b] : Nat) : ℚ) / k.floor[b] * 4))
  let k0 := { k with lastWords := words, due := false, marks := k.marks.filter fun f => tick ≤ f + 20, astate := s.astate n }
  if !s.arcActive n then { k0 with points := [], seen := [], sigPend := [] }
  else
    let learning := k.learned < 25
    let alpha : ℚ := if learning then 1 else 1 / 25000
    let follow := (learning && c.st == .on) || (!learning && k.score == 0)
    let floor := if follow then Vector.ofFn (fun b : Fin 4 => max 16 (k.floor[b] + (((k.rms[b] : Nat) : ℚ) - k.floor[b]) * alpha)) else k.floor
    let frac : ℚ := (s.lf n Fld.STEPMIN : ℚ) * 2 / 100
    let rise : ℚ := (s.lf n Fld.AIMIN : ℚ) / 5 / s.arcLsb n
    let sigs := if mutes k.marks tick then [] else arcSignatures k.lastWords k.blk frac rise (c.st == .ramp)
    let mute := mutes s.cvMarks tick
    let common := k.qual && s.acoh != 0 && others ≥ s.acoh
    let due := k.sigPend ++ sigs
    let pts := if mute then 0 else if k.qual then bit (!common) + 2 * due.length else 0
    { k0 with
      floor := floor, ratio := ratio
      learned := if learning && c.st == .on then k.learned + 1 else k.learned
      points := (pts :: k.points).take 20
      seen := ((sigs.map fun x => 2 ^ x).sum :: k.seen).take 20
      sigPend := if k.qual && !mute then [] else sigs
      nCommon := if common then min 65535 (k.nCommon + 1) else k.nCommon }

/-- Payload of ARC_SUSPECT and ARC_DETECTED. -/
def arcPayload (k : ArcSt) (degraded : Bool) : List Byte :=
  le 1 k.score ++ le 1 (arcBits k.seen degraded) ++ (k.ratio.toList.flatMap fun r => le 1 r)

/-- The score has reached ATHR: an arc decision; one that is a digital trip is suspended with them (R222, R224, R55). -/
def State.arcDecides (s : State) (n : Fin 64) : Bool := (s.ch[n]).arc.score ≥ s.lf n Fld.ATHR && (!s.clk.relocking || s.lf n Fld.AMODE != 0)

/-- ARC_SUSPECT, and what an arc decision reports (R225, R226). -/
def State.arcTell (s : State) (n : Fin 64) : State :=
  let k := (s.ch[n]).arc
  let degraded := s.degraded n
  let half := (s.lf n Fld.ATHR + 1) / 2
  let free : Bool := match k.suspectAt with | some f => f + 250000 ≤ s.fr.count | none => true
  let s1 := if k.score ≥ half && !k.suspectUp then
      let s0 := s.updCh n fun c => { c with arc := { c.arc with suspectUp := true } }
      if free then
        (s0.postOnly 0x0105 n.val (arcPayload k degraded)).updCh n fun c => { c with arc := { c.arc with
          suspectAt := some s.fr.count, nSuspect := min 65535 (c.arc.nSuspect + 1) } }
      else s0
    else if k.score < half then s.updCh n fun c => { c with arc := { c.arc with suspectUp := false } }
    else s
  if s.arcDecides n then
    let s2 := s1.updCh n fun c => { c with arc := { c.arc with last := some s.fr.count } }
    if s.lf n Fld.AMODE == 0 then s2
    else
      let s3 := s2.postRec 0x0106 n.val (arcPayload k degraded)
      (s3.fireWhere fun c => c.trig == 2 && c.trigParam.toNat % 64 == n.val && c.trigParam.getLsbD 11).updCh n
        fun c => { c with arc := { c.arc with points := [], seen := [] } }
  else s1

/-- The trip of an arc decision (R224). -/
def State.arcRaise (s : State) (n : Fin 64) : List Raise :=
  if s.arcDecides n && s.lf n Fld.AMODE == 0 then
    [⟨n, .arc, .tripped, arcBits (s.ch[n]).arc.seen (s.degraded n), 0⟩]
  else []

/-- The blocks that wait are evaluated, each detector on its own, and the decisions are raised together (R217, R229). A Channel
that S1 has missed keeps its block for the next S1 (R195). -/
def State.arcEval (s : State) (missed : BitVec 64) : State × List Raise :=
  let ns := allCh.filter fun n => (s.ch[n]).arc.due && !missed.getLsbD n.val
  let tick := s.fr.count / 10 * 10
  let sets := ((allCh.filter fun n => (s.ch[n]).arc.qual).map s.leader).dedup
  let s1 := s.mapCh fun n c => if ns.contains n then
      { c with arc := s.arcStep n tick (sets.filter fun l => l != s.leader n).length } else c
  (overL ns (fun n s => s.arcTell n) s1, ns.flatMap s1.arcRaise)

/-- S1 of a Frame whose tick ends a block closes it (R217). -/
def State.arcEnd (s : State) : State :=
  if s.fr.count % 10 == 0 && s.fr.count != 0 then
    { s.mapCh (fun n c => { c with arc := s.arcClose n }) with cvMarks := s.cvMarks.filter fun f => s.fr.count ≤ f + 20 }
  else s

/-- ARC_BLOCK: the blocks that S1 of this Frame has not evaluated (log 141). -/
def State.arcBlock (s : State) : State :=
  let e := s.arcEval 0
  if e.2.isEmpty then e.1 else e.1.resolve e.2

/-! ### Creep -/

/-- Median; of an even number of values, the mean of the middle two (log 28). -/
def median (l : List ℚ) : ℚ :=
  let m := l.mergeSort (· ≤ ·)
  let n := m.length
  if n == 0 then 0 else if n % 2 == 1 then m.getD (n / 2) 0 else (m.getD (n / 2 - 1) 0 + m.getD (n / 2) 0) / 2

/-- Baselines in ohm and K/W (R244); 0 while one is being learned. -/
def State.ronBase (s : State) (n : Fin 64) : ℚ :=
  if s.lf n Fld.RON0 != 0 then (s.lf n Fld.RON0 : ℚ) / 1000000
  else if (s.ch[n]).creep.ronLearned then (s.ch[n]).creep.ron0 else 0
def State.zthBase (s : State) (n : Fin 64) : ℚ :=
  if s.lf n Fld.ZTH0 != 0 then (s.lf n Fld.ZTH0 : ℚ) / 10000
  else if (s.ch[n]).creep.zthLearned then (s.ch[n]).creep.zth0 else 0

/-- Creep status (Table 6.8): 0 LEARN, 1 WAIT, 2 TRACK. The baseline meant is that of the on-resistance (log 27). -/
def State.creepStatus (s : State) (n : Fin 64) : Nat :=
  if s.ronBase n == 0 then 0 else if (s.ch[n]).creep.winRon.length < 64 then 1 else 2

/-- Ratios in use (R233, R238, R239). -/
def State.rhoNow (s : State) (n : Fin 64) : ℚ :=
  let k := (s.ch[n]).creep
  if k.winRon.length ≥ 64 && s.ronBase n != 0 then median k.winRon / s.ronBase n else k.rho
def State.zNow (s : State) (n : Fin 64) : ℚ :=
  let k := (s.ch[n]).creep
  if k.winZth.length ≥ 16 && s.zthBase n != 0 then median k.winZth / s.zthBase n else k.zratio

/-- The reference temperature of FTSRC. -/
def State.creepRef (s : State) (n : Fin 64) : ℚ :=
  let src := s.lf n Fld.FTSRC
  if src == 63 then (s.ambientOf n).1 else (s.ambientFrom n src).1

/-- A baseline that has been learned goes to the baseline block, once the power-fail warning lets it (R244, R246, R76). -/
def CreepSt.learned (k old : CreepSt) (pfw : Bool) (plen : Nat) : CreepSt :=
  if k.ronLearned != old.ronLearned || k.zthLearned != old.zthLearned then
    { k with baseSeq := k.baseSeq + 1, baseLate := pfw, basePlen := if k.zthLearned != old.zthLearned then plen else k.basePlen }
  else { k with baseLate := k.baseLate && pfw }

/-- The on-resistance measurement of the last Period (R231, R232), and the start of the next. -/
def State.creepMeasure (s : State) (n : Fin 64) : State :=
  let c := s.ch[n]
  let k := c.creep
  let mean := k.sumI / 250
  let valid := k.okPeriod && mean * 400 ≥ (s.lf n Fld.ILIM : ℚ) && (c.iMax - c.iMin) * 10 ≤ mean && k.sumII != 0
  let shunt : ℚ := (s.lf n Fld.SHUNT : ℚ) / 1000000
  let rser : ℚ := (s.lf n Fld.RSER : ℚ) / 1000000
  let rds := k.sumVI / k.sumII - shunt - rser
  let tfet := s.creepRef n + mean * mean * rds * (s.lf n Fld.RTH0 : ℚ) / 100
  let rds25 := rds / (1 + (s.lf n Fld.TCR : ℚ) / 10000 * (tfet - 25))
  let bad := rds ≤ 0 || (s.ronBase n != 0 && rds > 8 * s.ronBase n) || tfet < -40 || tfet > 150
  let k0 := { k with sumVI := 0, sumII := 0, sumI := 0, okPeriod := c.st == .on && c.creep.probe.isNone
                     lastMean := mean, lastValid := valid }
  let k1 := if !valid then k0
    else if bad then { k0 with rejected := k0.rejected + 1 }
    else
      let w := (k0.winRon ++ [rds25]).drop ((k0.winRon ++ [rds25]).length - 64)
      { k0 with winRon := w, tfet := tfet, lifeRon := k0.lifeRon + 1, isNew := true
                ron0 := if w.length == 64 && !k0.ronLearned then median w else k0.ron0
                ronLearned := k0.ronLearned || (w.length == 64 && s.lf n Fld.RON0 == 0) }.learned k0 s.pw.pfw 0
  s.updCh n fun c => { c with creep := k1 }

/-- Round to the nearest whole number. -/
def roundHalf (x : ℚ) : Int := Rat.floor (x + 1 / 2)

/-- Targets of R239: SOA factor in 0.001, CREEPK, reduction. -/
def State.creepTargets (s : State) (n : Fin 64) : Nat × Nat × Nat :=
  let rho := max 1 (s.rhoNow n)
  let z := max 1 (s.zNow n)
  let fsoa := max 250 (Rat.floor (1000 / z)).toNat
  let kg : ℚ := (s.lf n Fld.KGAIN : ℚ) / 4
  let creepk := min 40 (roundHalf (kg * max 0 (rho - 11 / 10) * 100)).toNat
  let code := s.lf n Fld.CMPCODE
  -- floor(code × sqrt(x)) is the whole root of floor(code² × x)
  let keep := Nat.sqrt (Rat.floor ((code * code : Nat) / (rho * z))).toNat
  (fsoa, creepk, min 63 (code - keep))

/-- A history entry, in a ring of 250 (Table 6.7). -/
def CreepSt.note (k : CreepSt) (rho z mean : ℚ) (ton : Nat) : CreepSt :=
  let b := le 4 k.histSeq ++ repU 2 (rho * 4096) ++ repU 2 (z * 4096) ++ repS 2 (k.tfet * 64) ++ repU 2 (mean * 10) ++
    le 4 ton
  { k with hist := (k.hist ++ [b]).drop ((k.hist ++ [b]).length - 250), histRho := rho, histTon := ton, histSeq := k.histSeq + 1 }

/-- WEAR_WARN and WEAR_ALARM, each once per start (R242). -/
def State.wear (s : State) (n : Fin 64) (fsoa : Nat) : State :=
  let k := (s.ch[n]).creep
  let r := s.rhoNow n
  let z := s.zNow n
  let pl := repU 2 (r * 4096) ++ repU 2 (z * 4096) ++ le 2 fsoa
  let s1 := if !k.warn && (r ≥ 5 / 4 || z ≥ 5 / 4) then
      (s.updCh n fun c => { c with creep := { c.creep with warn := true } }).postRec 0x0108 n.val pl else s
  if !k.alarm && (r ≥ 3 / 2 || z ≥ 3 / 2 || fsoa ≤ 250) then
    (s1.updCh n fun c => { c with creep := { c.creep with alarm := true } }).postRec 0x0109 n.val pl else s1

/-- Re-planning of a Channel with a new value in TRACK (R239-R242): it only tightens, by at most 1 K and 1 code. Outside TRACK a
new value only shows the wear. -/
def State.creepReplan (s : State) (n : Fin 64) : State :=
  let c := s.ch[n]
  let k := c.creep
  let (tf, tk, tr) := s.creepTargets n
  if !k.isNew then s
  else if s.creepStatus n != 2 then (s.updCh n fun c => { c with creep := { c.creep with isNew := false } }).wear n tf
  else
    let fsoa := min k.fsoa tf
    let ck := if tk > k.creepk then k.creepk + 1 else k.creepk
    let red := if tr > k.red then k.red + 1 else k.red
    let changed := fsoa != k.fsoa || ck != k.creepk || red != k.red
    let rho := s.rhoNow n
    let z := s.zNow n
    let k1 := { k with isNew := false, fsoa := fsoa, creepk := ck, red := red }
    let k2 := if changed then ({ k1 with rho := ratio16 rho, zratio := ratio16 z } : CreepSt).storeUnless s.pw.pfw else k1
    let k3 := if (changed || |rho - k.histRho| * 100 ≥ 1) && !s.pw.pfw then k2.note rho z k.lastMean (c.ton / 250000) else k2
    let s1 := s.updCh n fun c => { c with creep := k3 }
    let s2 := when changed (fun s => s.iceRecord 0x0123 n.val 0 (le 2 fsoa ++ le 1 ck ++ le 1 red)) s1
    s2.wear n tf

/-- The history entry of every 24 h of TON (Table 6.7); TON counts from the start. -/
def State.creepDaily (s : State) (n : Fin 64) : State :=
  let c := s.ch[n]
  let ton := c.ton / 250000
  if ton ≥ c.creep.histTon + 86400 && !s.pw.pfw then
    s.updCh n fun c => { c with creep := c.creep.note (s.rhoNow n) (s.zNow n) c.creep.lastMean ton }
  else s

/-- Whether a probe may start on a Channel (R227, R234, R566). -/
def State.probeOk (s : State) (n : Fin 64) : Bool :=
  let c := s.ch[n]
  let k := c.creep
  let waited := match k.lastProbe with | some f => f + 250000 * s.lf n Fld.PRINT ≤ s.fr.count | none => true
  let e : ℚ := (s.lf n Fld.PLEN : ℚ) * 4 / 1000000 * ((s.lf n Fld.PVDS : ℚ) / 10) * k.lastMean
  s.fld Fld.PRBEN (s.leader n).val == 1 && waited && k.lastValid && c.st == .on && !(s.ch[s.leader n]).hot &&
    c.arc.score == 0 && s.zone.hu == .normal && s.cv.mode != .boost &&
    !(allCh.any fun m => m.val / 16 == n.val / 16 && (s.ch[m]).st == .ramp) && (s.grp[chGroup n]).health ≤ 1 &&
    e * 20 ≤ s.soaBudget n && s.th.level < 2 &&
    !(allCh.any fun m => m.val / 16 == n.val / 16 && (s.ch[m]).creep.probe.isSome)

/-- At most one probe starts in a Period, on some Channel that may take one: which one is a free value (log 29). It begins at
the next tick. -/
def State.probeStart (s : State) : State :=
  let able := allCh.filter s.probeOk
  match able[Config.probeChoice s.free % able.length]? with
  | none => s
  | some n =>
    let b := s.fr.count + 1
    let s1 := s.updCh n fun c => { c with
      creep := { c.creep with probe := some b, probeCut := false, okPeriod := false, pre := [], during := [], post := [] }
      arc := { c.arc with marks := c.arc.marks ++ [b, b + s.lf n Fld.PLEN] } }
    { s1 with free := s1.free + 1 }

/-- The samples of the last words of supply, output and current of a Channel, at most a number of them. -/
def State.rawTriples (s : State) (n : Fin 64) (k : Nat) : List (Int × Int × Int) :=
  let g := (s.grp[chGroup n]).recent
  let sup := (s.grp[(4 : Fin 5)]).recent[(if s.pump.domain48[State.bank n] then 17 else 18 : Fin 32)]
  let last (l : List Int) : List Int := l.drop (l.length - k)
  (last sup).zip ((last g[chInV n]).zip (last g[chInI n]))

/-- The raw words that a probe takes (R235): the 100 before the tick at which it begins, the current of its PLEN Frames, and those
taken 2 µs to 6 µs after full drive returns, which are the second half of a Frame and the first of the next. -/
def State.probeFeed (s : State) (n : Fin 64) : CreepSt :=
  let k := (s.ch[n]).creep
  match k.probe with
  | none => k
  | some b =>
    let now := s.fr.count
    let e := b + s.lf n Fld.PLEN
    if now == b then { k with pre := s.rawTriples n 100 }
    else if b < now && now ≤ e then { k with during := k.during ++ (s.rawTriples n 20).map fun x => x.2.2 }
    else if now == e + 1 then { k with post := s.rawTriples n 10 }
    else if now == e + 2 then { k with post := k.post ++ (s.rawTriples n 20).take 10 }
    else k

/-- Every running probe takes the words of the last Frame; one that was cut ends at this tick (R236). -/
def State.probeWords (s : State) : State := s.mapCh fun n c =>
  { c with creep := if c.creep.probeCut then { c.creep with probe := none, probeCut := false } else s.probeFeed n }

/-- Current in A of a raw sample of a Channel. -/
def State.rawAmp (s : State) (n : Fin 64) (x : Int) : ℚ := x * s.arcLsb n

/-- FET on-resistance from raw words (R235). -/
def State.probeRon (s : State) (n : Fin 64) (l : List (Int × Int × Int)) : Option ℚ :=
  let fs : ℚ := if s.pump.domain48[State.bank n] then 80 else 20
  let r : ℚ := ((s.lf n Fld.SHUNT : ℚ) + s.lf n Fld.RSER) / 1000000
  let xs := l.map fun x => (((x.1 - x.2.1 : Int) : ℚ) * fs / 8192, s.rawAmp n x.2.2)
  if xs.isEmpty || xs.any (fun x => x.2 == 0) then none
  else some ((xs.map fun x => (x.1 - x.2 * r) / x.2).sum / xs.length)

/-- Mean current before a probe (R236). -/
def State.probeMean (s : State) (n : Fin 64) : ℚ := meanQ ((s.ch[n]).creep.pre.map fun x => s.rawAmp n x.2.2)

/-- A current has moved by more than 10 % from the mean before the probe (R236). -/
def movedTenth (pre i : ℚ) : Bool := decide (|i - pre| * 10 > |pre|)

/-- R236: a current that moves by more than 10 % from the pre-probe mean, in the latch of any Frame of the probe, ends it at the next
tick, without a value; full drive returns with that tick (R227). -/
def State.probeGuard (s : State) : State :=
  s.mapCh fun n c =>
    match c.creep.probe with
    | some b =>
      if b < s.fr.count && s.fr.count ≤ b + s.lf n Fld.PLEN && !c.creep.probeCut && movedTenth (s.probeMean n) c.iP then
        { c with creep := { c.creep with probeCut := true }
                 arc := { c.arc with marks := c.arc.marks.filter (fun f => f ≤ s.fr.count + 1) ++ [s.fr.count + 1] } }
      else c
    | none => c

/-- The end of a probe (R235), once the words after it are in: a probe that R236 has ended gives no value. -/
def execProbeEnd (n : Fin 64) (_ : Unit) (s : State) : Host.Outcome State Fault Refusal :=
  let k := (s.ch[n]).creep
  let over1 : Bool := match k.probe with | some f => f + s.lf n Fld.PLEN + 2 ≤ s.fr.count | none => false
  .next (if s.live && over1 then
    let s1 := s.updCh n fun c => { c with creep := { c.creep with probe := none, probeCut := false } }
    let iPre := s.probeMean n
    let iDur := meanQ (k.during.map (s.rawAmp n))
    match s.probeRon n k.pre, s.probeRon n k.post with
    | some pre, some post =>
      let dp := iDur * ((s.lf n Fld.PVDS : ℚ) / 10) - iPre * pre * iPre
      if pre == 0 || dp == 0 || movedTenth iPre iDur then s1
      else
        let dtj := (post / pre - 1) / ((s.lf n Fld.TCR : ℚ) / 10000)
        let w := (k.winZth ++ [dtj / dp]).drop ((k.winZth ++ [dtj / dp]).length - 16)
        s1.updCh n fun c => { c with creep := ({ c.creep with
          winZth := w, lastProbe := some s.fr.count, lifeZth := c.creep.lifeZth + 1, isNew := true
          zth0 := if w.length == 16 && !k.zthLearned then median w else k.zth0
          zthLearned := k.zthLearned || (w.length == 16 && s.lf n Fld.ZTH0 == 0) } : CreepSt).learned k s.pw.pfw (s.lf n Fld.PLEN) }
    | _, _ => s1
  else s)

/-- ARC_BLOCK (R217): writes that are due at the block boundary apply, and the blocks that are still open are evaluated. -/
def execArcBlock (_ : Unit) (s : State) : Host.Outcome State Fault Refusal :=
  .next (if s.live && s.fr.count % 10 == 0 then (s.applyStaged .block).arcBlock else s)

/-! ### CH_READ (R171, R196, R249, R439) -/

/-- Table 4.7, packed. -/
def State.chData1 (s : State) (n : Fin 64) : List Byte :=
  let c := s.ch[n]
  repS 4 (c.iM * 1000) ++ repS 4 (c.vM * 1000) ++ repS 4 ((s.vsup n - c.vM) * 1000) ++ repS 4 (c.iMinP * 1000) ++
    repS 4 (c.iMaxP * 1000) ++ le 4 c.irms ++ repS 4 (c.pload * 1000) ++ repS 4 (c.pfet * 1000) ++
    fitTo 8 (repU 6 (c.efwd * 1000)) ++ fitTo 8 (repU 6 (c.erev * 1000)) ++ le 4 (c.ton / 250000) ++ le 4 c.nramp ++
    le 2 c.lastDur ++ repU 2 (c.lastE * 1000) ++ repU 4 (c.lastPeak * 1000) ++ repU 4 (c.lastQ * 1000)

/-- Table 5.4, packed; a follower's are the leader's (R177). -/
def State.chData2 (s : State) (n : Fin 64) : List Byte :=
  let c := s.ch[s.leader n]
  let t64 (x : ℚ) : List Byte := repS 2 (x * 64)
  t64 c.tcC ++ t64 c.tiC ++ t64 (s.ambientOf n).1 ++ t64 (s.tcEff n) ++ t64 (s.tiEff n) ++ t64 (s.wmMargin n) ++
    le 2 c.ttl.toNat ++ le 1 (s.cmpEff n) ++
    le 1 (bit c.hot + 2 * bit (s.ambientOf n).2 + 4 * bit ((s.grp[chGroup n]).health ≥ 3) + 8 * c.nodeSrc) ++
    le 1 (min 255 c.k) ++ [0, 0, 0] ++
    (match c.retryAt with
      | some f => le 4 ((f - s.fr.count) / 250)
      | none => le 4 0xFFFFFFFF)

/-- Table 6.10, packed. -/
def State.chData3 (s : State) (n : Fin 64) : List Byte :=
  let c := s.ch[n]
  let a := c.arc
  let k := c.creep
  le 1 a.astate ++ le 1 a.score ++ (a.ratio.toList.flatMap fun r => le 1 r) ++ le 2 a.nSuspect ++ le 2 a.nCommon ++ [0, 0] ++
    (match a.last with | some f => le 4 f | none => le 4 0xFFFFFFFF) ++
    le 1 (s.creepStatus n + 64 * bit k.warn + 128 * bit k.alarm) ++ [0] ++
    repU 2 (s.rhoNow n * 4096) ++ repU 2 (s.zNow n * 4096) ++ [0, 0] ++ repU 4 (median k.winRon * 1000000000) ++
    repS 2 (k.tfet * 64) ++ le 2 k.fsoa ++ le 1 k.creepk ++ le 1 k.red ++ le 1 k.winRon.length ++ le 1 k.winZth.length

/-- RESULT of CH_READ (R439); a parallel set waits and is restored by its leader's entry. -/
def State.chResult (s : State) (n : Fin 64) : List Byte :=
  let c := s.ch[n]
  let l := s.leader n
  le 1 (chStCode c.st) ++ le 1 (causeCode c.cause) ++ le 1 (clsCode (s.chClass n)) ++
    le 1 (bit (s.waiting l) + 2 * bit (s.zone.restore.any fun r => r.ch == l) +
      4 * bit (s.setSize n > 1 && !s.isFollower n) + 8 * bit (s.isFollower n)) ++
    le 4 c.lastTr

def cmdChRead (t : Taken) (s : State) : State :=
  let n := chIx t
  s.guarded t [] fun s =>
    match s.mustWait t.q with
    | some f => s.await t (.readAfter f)
    | none => s.readDone t (s.chResult n) (s.chData1 n ++ s.chData2 n ++ s.chData3 n)

def execChRead (q : Fin 32) (d : CmdArgs) (s : State) : Host.Outcome State Fault Refusal :=
  .next (s.rowCmd cmdChRead 0x0104 q d)

end Sys2Proof.Machine
end

