-- ==== Sys2Proof/Machine/Gen.lean ====
section
/-! DEFINITION. The profile generator: plans of whole Frames within rate, acceleration and jerk limits (R310-R315). All
quantities are in V per Frame, per Frame squared and per Frame cubed. -/

namespace Sys2Proof.Machine

open Sys2Proof

/-- The least n below 2^22 with a monotone property, by halving. -/
def leastNat (f : Nat → Bool) : Nat :=
  (List.range 22).foldl (fun n k => let step := 2 ^ (21 - k); if f (n + step - 1) then n else n + step) 0

/-- Frames of a segment of a given real length. -/
def ceilFrames (x : ℚ) : Nat := (Rat.ceil x).toNat

/-- A state of motion: position, rate, acceleration. -/
abbrev Motion := ℚ × ℚ × ℚ

/-- n Frames of constant jerk. -/
def Motion.run (m : Motion) (n : Nat) (j : ℚ) : Motion :=
  let t : ℚ := n
  (m.1 + m.2.1 * t + m.2.2 * t * t / 2 + j * t * t * t / 6, m.2.1 + m.2.2 * t + j * t * t / 2, m.2.2 + j * t)

def Motion.runAll (m : Motion) (l : List (Nat × ℚ)) : Motion := l.foldl (fun m s => m.run s.1 s.2) m

/-- Segments without the empty ones. -/
def segs (l : List (Nat × ℚ)) : List (Nat × ℚ) := l.filter fun s => s.1 != 0

/-- The plan from rest over a signed distance: the segments of the time-optimal plan lengthened to whole Frames, the
jerk lowered so that the distance stays exact (R311). lims are rate, acceleration and jerk. -/
def restPlan (d : ℚ) (lims : ℚ × ℚ × ℚ) : List (Nat × ℚ) :=
  let (vm, am, jm) := lims
  let dist := |d|
  if dist == 0 || jm ≤ 0 || am ≤ 0 || vm ≤ 0 then []
  else
    let nA := am / jm
    let full : Bool := decide (jm * nA * nA ≤ vm) && decide (2 * jm * nA * nA * nA ≤ dist)
    let n1 := if full then ceilFrames nA
      else leastNat fun n => vm ≤ jm * n * n || dist ≤ 2 * jm * n * n * n
    let n2 := if full then leastNat fun n => vm ≤ am * (nA + n) || dist ≤ am * (nA + n) * (2 * nA + n) else 0
    let t1 := 2 * n1 + n2
    let n3 := ceilFrames (dist / vm - t1)
    let j := d / ((n1 * (n1 + n2) * (t1 + n3) : Nat) : ℚ)
    segs [(n1, j), (n2, 0), (n1, -j), (n3, 0), (n1, -j), (n2, 0), (n1, j)]

/-- Whole Frames of the three segments that bring rate v and acceleration a to rate w and acceleration 0. -/
def changeFrames (v a w : ℚ) (lims : ℚ × ℚ × ℚ) : Nat × Nat × Nat :=
  let (_, am, jm) := lims
  if (v == w && a == 0) || jm ≤ 0 || am ≤ 0 then (0, 0, 0)
  else
    -- mirrored so that the change leads upward
    let up : Bool := decide (v + a * |a| / (2 * jm) < w)
    let a' := if up then a else -a
    let dv := if up then w - v else v - w
    let top := min am (root (jm * dv + a' * a' / 2))
    let ramps := (|top * top - a' * a'| + top * top) / (2 * jm)
    let n2 := if top < am then 0 else ceilFrames ((dv - ramps) / am)
    (max 1 (ceilFrames (|top - a'| / jm)), n2, max 1 (ceilFrames (top / jm)))

/-- The three segments with given lengths, their jerks fixed so that the rate ends at w exactly. -/
def changeSegs (v a w : ℚ) (n : Nat × Nat × Nat) : List (Nat × ℚ) :=
  let (n1, n2, n3) := n
  if n1 == 0 || n3 == 0 then []
  else
    let ap := (w - v - a * n1 / 2) / ((n1 : ℚ) / 2 + n2 + (n3 : ℚ) / 2)
    segs [(n1, (ap - a) / n1), (n2, 0), (n3, -ap / n3)]

/-- A change from rate v and acceleration a to rate w and acceleration 0 in N Frames, n1 of them in its first segment: the last
segment is the shortest one whose jerk and that of the first segment stay within the limit; none where the acceleration
between them would not. -/
def changeIn (v a w am jm : ℚ) (N n1 : Nat) : Option (Nat × Nat × Nat) :=
  let c := 2 * (w - v) - a * n1
  let ap (n3 : Nat) : ℚ := c / ((2 * N : ℚ) - n1 - n3)
  let reaches (n3 : Nat) : Bool := if 0 ≤ c then a - jm * n1 ≤ ap n3 else ap n3 ≤ a + jm * n1
  let n3 := leastNat fun n => N ≤ n1 + n || (|ap n| ≤ jm * n && reaches n)
  if n1 + n3 ≤ N && |ap n3 - a| ≤ jm * n1 && |ap n3| ≤ jm * n3 && |ap n3| ≤ am then some (n1, N - n1 - n3, n3) else none

/-- Its segments: the acceleration between them is what the distance in rate asks for. -/
def changeInSegs (v a w : ℚ) (n : Nat × Nat × Nat) : List (Nat × ℚ) :=
  let (n1, n2, n3) := n
  let ap := (2 * (w - v) - a * n1) / ((n1 : ℚ) + 2 * n2 + n3)
  segs [(n1, if n1 == 0 then 0 else (ap - a) / n1), (n2, 0), (n3, if n3 == 0 then 0 else -ap / n3)]

/-- A stop that exists whatever the motion: the acceleration goes to 0, then the rate. -/
def plainStop (v a am jm : ℚ) : List (Nat × ℚ) :=
  let n := ceilFrames (|a| / jm)
  let v1 := v + a * n / 2
  let m := leastNat fun m => |v1| ≤ jm * m * m || am ≤ jm * m
  let k := leastNat fun k => |v1| ≤ am * (m + k : Nat)
  let ap := -v1 / (m + k : Nat)
  segs [(n, if n == 0 then 0 else -a / n)] ++ (if v1 == 0 then [] else segs [(m, ap / m), (k, 0), (m, -ap / m)])

/-- The shortest stop in whole Frames from rate v and acceleration a (R312), sought from the real-valued optimum on. -/
def stopPlan (v a : ℚ) (lims : ℚ × ℚ × ℚ) : List (Nat × ℚ) :=
  let (_, am, jm) := lims
  let n := changeFrames v a 0 lims
  if n.1 == 0 then []
  else
    let N0 := n.1 + n.2.1 + n.2.2 - 6
    match (List.range 16).findSome? fun k =>
        (List.range (N0 + k + 1)).findSome? fun n1 => changeIn v a 0 am jm (N0 + k) n1 with
    | some x => changeInSegs v a 0 x
    | none => plainStop v a am jm

/-- The lengths with k Frames more on either jerk segment. -/
def widen (n : Nat × Nat × Nat) (k : Nat) : Nat × Nat × Nat := (n.1 + k, n.2.1, n.2.2 + k)

/-- A plan from rate v and acceleration a keeps to the limits; what already exceeds a lowered limit only comes down (R311,
R314). -/
def planOk (v a : ℚ) (lims : ℚ × ℚ × ℚ) : List (Nat × ℚ) → Bool
  | [] => true
  | (n, j) :: rest =>
    let m := Motion.run (0, v, a) n j
    |j| ≤ lims.2.2 && |m.2.1| ≤ max lims.1 |v| && |m.2.2| ≤ max lims.2.1 |a| && planOk m.2.1 m.2.2 lims rest

/-- A plan to rate w, c Frames at that rate, and the stop, with given segment lengths. -/
def viaSegs (v a w : ℚ) (up : Nat × Nat × Nat) (c : Nat) (down : Nat × Nat × Nat) : List (Nat × ℚ) :=
  changeSegs v a w up ++ segs [(c, 0)] ++ changeSegs w 0 0 down

/-- Further Frames tried on the two jerk segments of the first change and on those of the stop, fewest first. -/
def widenings : List (Nat × Nat × Nat) :=
  (List.range 10).flatMap fun n => (List.range (n + 1)).flatMap fun i =>
    (List.range (n + 1 - i)).filterMap fun j => if (n - i - j) ≤ 3 then some (i, j, n - i - j) else none

/-- The same with the rate that makes the distance exact: the distance is linear in the rate. The first change takes
further Frames, the constant rate fewer, where the exact plan would exceed a limit; where none of these plans keeps to the
limits, the reference stops first and goes on from rest. -/
def exactVia (d v a w : ℚ) (lims : ℚ × ℚ × ℚ) (up : Nat × Nat × Nat) (c : Nat) (down : Nat × Nat × Nat) : List (Nat × ℚ) :=
  let ok (l : List (Nat × ℚ)) : Bool := planOk v a lims l && Motion.runAll (0, v, a) l == (d, 0, 0)
  let plan (k : Nat × Nat × Nat) :=
    let up' := (up.1 + k.1, up.2.1 - k.1, up.2.2 + k.2.1)
    let down' := widen down k.2.2
    let c' := c - k.1 - k.2.1 - 2 * k.2.2
    let dist (w : ℚ) : ℚ := (Motion.runAll (0, v, a) (viaSegs v a w up' c' down')).1
    let d0 := dist w
    let d1 := dist (w + 1)
    viaSegs v a (if d1 == d0 then w else w + (d - d0) / (d1 - d0)) up' c' down'
  let k0 := if up.1 == 0 then 1 else 0
  match ((0, 0, 0) :: widenings.map fun k => (k0 + k.1, k0 + k.2.1, k.2.2)).find? fun k => ok (plan k) with
  | some k => plan k
  | none =>
    let stop := stopPlan v a lims
    stop ++ restPlan (d - (Motion.runAll (0, v, a) stop).1) lims

/-- The plan for a target ahead in the direction of motion, beyond the stopping point (R312, log 195): to the rate limit, with
as long a constant rate as the distance allows, or to the greatest lower rate from which the stop still fits. A rate above a
lowered limit comes down to it on the way (R314). -/
def movingPlan (d v a : ℚ) (lims : ℚ × ℚ × ℚ) : List (Nat × ℚ) :=
  let sg : ℚ := if d < 0 then -1 else 1
  let fr (w : ℚ) := (changeFrames v a w lims, changeFrames w 0 0 lims)
  let len (w : ℚ) : ℚ := let f := fr w; (Motion.runAll (0, v, a) (viaSegs v a w f.1 0 f.2)).1 * sg
  let vm := sg * lims.1
  if len vm ≤ d * sg then
    let f := fr vm
    exactVia d v a vm lims f.1 (ceilFrames ((d * sg - len vm) / lims.1)) f.2
  else
    let w := (List.range 40).foldl (fun (p : ℚ × ℚ) _ =>
      let m := (p.1 + p.2) / 2
      if len (sg * m) ≤ d * sg then (m, p.2) else (p.1, m)) (if lims.1 < sg * v then 0 else sg * v, lims.1)
    let f := fr (sg * w.1)
    exactVia d v a (sg * w.1) lims f.1 0 f.2

/-- The plan from the present state of motion to the target (R311, R312, R314). -/
def Gen.makePlan (g : Gen) (lims : ℚ × ℚ × ℚ) : List (Nat × ℚ) :=
  let d := g.target - g.p
  if g.v == 0 && g.a == 0 then restPlan d lims
  else
    let stop := stopPlan g.v g.a lims
    let ds := (Motion.runAll (0, g.v, g.a) stop).1
    let ahead : Bool := decide (0 < ds * d) && decide (|ds| ≤ |d|)
    if d == ds then stop
    else if ahead then movingPlan d g.v g.a lims
    else stop ++ restPlan (d - ds) lims

/-- One S3 of a generator: a new plan where one is called for, then one Frame of the plan; the second component says
that the reference stands at its target (R310-R314). -/
def Gen.tick (g : Gen) (lims : ℚ × ℚ × ℚ) : Gen × Bool :=
  let g1 := if g.replan || g.lims != lims then { g with plan := g.makePlan lims, replan := false, lims := lims } else g
  match g1.plan with
  | [] => ({ g1 with p := g1.target, v := 0, a := 0 }, true)
  | (n, j) :: rest =>
    let m := Motion.run (g1.p, g1.v, g1.a) 1 j
    let left := if n ≤ 1 then rest else (n - 1, j) :: rest
    (if left.isEmpty then { g1 with p := g1.target, v := 0, a := 0, plan := [] }
     else { g1 with p := m.1, v := m.2.1, a := m.2.2, plan := left }, false)

/-- A generator at rest at a position, with a target (R296). -/
def Gen.restAt (g : Gen) (p target : ℚ) : Gen := { g with p := p, v := 0, a := 0, target := target, plan := [], replan := true }

/-- The same motion in Frames k times as long (R173, R310). -/
def Gen.stretch (g : Gen) (k : ℚ) : Gen := { g with v := g.v * k, a := g.a * k * k, replan := true }

/-- A new target (R312). -/
def Gen.aim (g : Gen) (target : ℚ) : Gen := { g with target := target, replan := true }

/-- The reference after Tumbler: the window, then the slew cap; a clamped reference restarts the plan (R284, R315). The
second component says whether it was clamped, by the window or by the slew cap. -/
def Gen.clamp (g : Gen) (old lo hi slew : ℚ) : Gen × Option Bool :=
  let w := max lo (min hi g.p)
  let r := max (old - slew) (min (old + slew) w)
  if r == g.p then (g, none) else ({ g with p := r, v := r - old, a := 0, replan := true }, some (w != g.p))

end Sys2Proof.Machine
end

