-- ==== Sys2Proof/Machine/Conv.lean ====
section
/-! DEFINITION. The converter: modes, Phases, sharing, adding and shedding, starts, faults, the voltage and current laws
and scheduled feed-forward (files 07, 08). -/

namespace Sys2Proof.Machine

open Sys2Proof

def State.updCv (s : State) (f : Conv → Conv) : State := { s with cv := f s.cv }

/-! ### Quantities -/

/-- Rate (0.1 V/ms), acceleration (V/ms^2) and jerk (10 V/ms^3) as limits per Frame (R310). -/
def limsOf (rate acc jerk : Nat) (dt : ℚ) : ℚ × ℚ × ℚ := ((rate : ℚ) / 10 * dt, acc * dt ^ 2, jerk * 10 * dt ^ 3)

def State.cvLims (s : State) : ℚ × ℚ × ℚ := limsOf (s.cvf Fld.SSR) (s.cvf Fld.ACC) (s.cvf Fld.JERK) s.frameMs

/-- A current field with an LSB of 0.1 A. -/
def State.cvA (s : State) (f : Fld) : ℚ := (s.cvf f : ℚ) / 10

def State.nMin (s : State) : Nat := s.cvf Fld.NMIN + 1

def isActive (p : Phase) : Bool := p.st == .active

/-- The ACTIVE Phases, and those that switch: the exercised spare too (R268). -/
def State.activePh (s : State) : List (Fin 16) := allPh.filter fun p => isActive s.cv.ph[p]
def State.switching (s : State) : List (Fin 16) :=
  allPh.filter fun p => isActive s.cv.ph[p] || s.cv.exercise == some p
/-- The working set (R257). -/
def State.workingSet (s : State) : Nat := (allPh.filter fun p => s.phInUse p).length

/-- Phase capability (R265). -/
def State.rphBase (s : State) (p : Fin 16) : ℚ :=
  if s.cvf Fld.RPH0 != 0 then (s.cvf Fld.RPH0 : ℚ) / 1000000 else (s.cv.ph[p]).rph0
def State.kappaR (s : State) (p : Fin 16) : ℚ :=
  let l := (s.cv.ph[p]).rph
  if l.length < 64 || s.rphBase p == 0 then 1 else min 1 (root (s.rphBase p / median l))
def State.kappaT (s : State) (p : Fin 16) : ℚ :=
  let src := s.cvf Fld.PHNTC p.val
  if src == 31 then 1
  else match s.tempSrc src with
    | none => 0
    | some t => min 1 (max 0 (((s.cvf Fld.TPHMAX : ℚ) - t) / 20))
def State.kappa (s : State) (p : Fin 16) : ℚ := min (s.kappaR p) (s.kappaT p)
def State.phCap (s : State) (p : Fin 16) : ℚ := s.kappa p * s.cvA Fld.IPH
/-- A cap below 10 % of IPH (R270-R272). -/
def State.weak (s : State) (p : Fin 16) : Bool := s.phCap p * 10 < s.cvA Fld.IPH

/-- Output of a law, whether its latch is valid, and Phase current along its power flow (R253, R299; BOOST: log 31). -/
def State.cvOut (s : State) (m : CvMode) : ℚ := if m == .boost then s.v48Zone else s.v12Bus
def State.cvOutOk (s : State) (m : CvMode) : Bool := if m == .boost then s.g4Ok[(17 : Fin 32)] else s.g4Ok[(18 : Fin 32)]
def State.iFlow (s : State) (m : CvMode) (p : Fin 16) : ℚ := if m == .boost then -(s.iPh p) else s.iPh p

/-- Sum of the caps, and the upper bound of the demand (R299). -/
def State.capSum (s : State) : ℚ := (s.switching.map s.phCap).sum
def State.iHi (s : State) : ℚ := min (s.cvf Fld.IOUTMAX : ℚ) s.capSum
/-- A start is on its way to regulation. -/
def CvStart.isRunning : CvStart → Bool
  | .running _ => true
  | _ => false

def CvStart.isWaiting : CvStart → Bool
  | .waiting _ => true
  | _ => false

/-- IPKR as the law takes it: 0 until regulation, and in the first 64 periods after a change of mode, from the Frame on in which the
law of the new mode begins (R254, R281). -/
def State.ipkrNow (s : State) : ℚ :=
  if s.cv.start.isRunning || s.cv.diodeNs > 0 || s.cv.law != s.cv.mode then 0 else s.cvA Fld.IPKR
def State.iLo (s : State) : ℚ := -(s.ipkrNow * s.activePh.length)

/-- The stored BUCK target in V within the Tumbler window (R643), and the BOOST target HVSET. -/
def State.buckCode (s : State) : Nat := (lookupSet kBuckTarget s.settings).getD 1400
/-- The valid last-fault slot of a cause with the higher sequence; one with sequence 0 and no bytes where neither is valid. -/
def Conv.faultNewest (c : Conv) (k : Nat) : FaultRec :=
  let a := c.rec0.toList.getD k default
  let b := c.rec1.toList.getD k default
  if b.valid && (!a.valid || a.seq < b.seq) then b else if a.valid then a else default

/-- A last-fault record goes to the slot that does not hold the newest one (R287). -/
def Conv.faultPut (c : Conv) (k : Nat) (x : FaultRec) : Conv :=
  let a := c.rec0.toList.getD k default
  let b := c.rec1.toList.getD k default
  if a.valid && (!b.valid || b.seq < a.seq) then { c with rec1 := c.rec1.setIfInBounds k x }
  else { c with rec0 := c.rec0.setIfInBounds k x }

/-- The target of an accepted CV_SET is stored in the settings. -/
def State.putBuck (s : State) (v : Nat) : State := ({ s with settings := storeSet kBuckTarget v s.settings }).storeSettings
def State.buckV (s : State) : ℚ := (max s.tmb.zone.buckLo (min s.tmb.zone.buckHi s.buckCode) : Nat) / 100
def State.hvSet (s : State) : ℚ := (s.znf Fld.HVSET : ℚ) / 10

/-- dff of R302: V12_BUS over V48_ZONE. -/
def State.ratio (s : State) : ℚ := if s.v48Zone == 0 then 0 else s.v12Bus / s.v48Zone
def State.dffNow (s : State) : ℚ := if s.cvf Fld.VFFEN == 1 then s.ratio else 0

def State.gen48Failed (s : State) : Bool := (s.grp[(4 : Fin 5)]).health ≥ 3

/-! ### Test injection: the value at a point (R316, R319) -/

def State.injAt (s : State) (point sel : Nat) : ℚ :=
  if s.inj.status == 1 && !s.inj.armed && s.inj.f[(0 : Fin 12)] == point && s.inj.f[(1 : Fin 12)] == sel then s.inj.value
  else 0

/-- The whole number nearest to the n-th root of m, below 2^32. A root that is no whole number is irrational, so none lies
half way between two. -/
def nearRoot (n m : Nat) : Nat :=
  (List.range 32).foldl (fun c i =>
    let d := c + 2 ^ (31 - i)
    if (2 * d - 1) ^ n ≤ 2 ^ n * m then d else c) 0

/-- Frequency code of sweep point k: FSTART × (FSTOP ÷ FSTART)^(k ÷ (NPTS − 1)), to the nearest code (R320). -/
def Inject.code (j : Inject) (k : Nat) : Nat :=
  let n := j.f[(6 : Fin 12)]
  if k == 0 then j.f[(4 : Fin 12)] else nearRoot n (j.f[(4 : Fin 12)] ^ (n - k) * j.f[(5 : Fin 12)] ^ k)

/-- The nearest whole number of Frames. -/
def nearest (x : ℚ) : Nat := (nearestI x).toNat

/-- A sweep point starts with its settle time: Frames of NSETTLE cycles, then the W Frames of R320 (log 40). -/
def Inject.arm (j : Inject) : Inject :=
  let c : ℚ := max 1 (j.code j.k)
  { j with phase := 0, fed := false, corA := (0, 0), corB := (0, 0)
           settleLeft := ceilFrames (j.f[(7 : Fin 12)] * 4294967296 / c)
           measLeft := nearest (j.f[(8 : Fin 12)] * 4294967296 / c) }

/-- A disturbance of R322: a sweep point restarts once from its settle time, and is reported invalid at the second. -/
def State.injDisturb (s : State) (clamp : Bool := false) : State :=
  if s.inj.status == 1 && !s.inj.armed && s.inj.f[(2 : Fin 12)] == 0 then
    let j := { s.inj with clamped := s.inj.clamped || clamp }
    { s with inj := if j.restarted then { j with invalid := true } else ({ j with restarted := true }).arm }
  else s

/-- An injection ends at the next tick (R324). -/
def State.injEnd (s : State) (aborted : Bool) : State :=
  if s.inj.status == 1 && s.inj.ending.isNone then { s with inj := { s.inj with ending := some aborted } } else s

/-! ### Initialisation of the law (R296) -/

/-- The law of a mode starts from the latched outputs, with a target. The Phase duties start at V12_BUS over V48_ZONE in
both modes (R251, log 32). -/
def State.initLaw (s : State) (m : CvMode) (target : ℚ) : State :=
  let dff := s.dffNow
  let sum := (s.switching.map (s.iFlow m)).sum
  -- R296: the sum of the latched Phase currents, magnitudes in BOOST
  let start := if m == .boost then (s.switching.map fun p => |s.iPh p|).sum else sum
  let init (p : Phase) : Phase := { p with
    integ := if m == .boost then dff - s.ratio else s.ratio - dff
    duty := if isActive p then s.ratio else 0
    failRun := 0 }
  (s.updCv fun c => { c with
    law := m, integ := single start, e1 := 0, e2 := 0, x1 := 0, x2 := 0, demand := sum, d1 := sum, d2 := sum
    vfb := s.cvOut m, err := 0, dff := dff, vffen := s.cvf Fld.VFFEN == 1
    gen := c.gen.restAt (s.cvOut m) target, iff' := 0, profiles := [], addRun := 0, dwell := 0, skip := false, skipRun := 0
    ph := c.ph.map init }).injEnd true

/-- Whether a rail's laws run. -/
def auxRuns (st : AuxState) : Bool := st == .start || st == .on || st == .cc

/-- Current limit of a rail in A: the policy engine's, else ICC. -/
def State.auxIcc (s : State) (r : Fin 4) : ℚ := ((s.aux[r]).icc).getD ((s.axf r Fld.ICC : ℚ) / 100)

/-- The laws of a rail start from its latched output, with a target: both loops give that output over V48_ZONE (R296). -/
def State.auxLawAt (s : State) (r : Fin 4) (target : ℚ) (a : Aux) : Aux :=
  let v := s.vAux r
  { a with
    gen := a.gen.restAt v target, integV := 0, integC := single (s.cvq Fld.AKPC r.val * (s.iAux r - s.auxIcc r)), selC := false
    duty := if s.v48Zone == 0 then 0 else v / s.v48Zone }

/-- The laws of a running rail start again from its latched output (R296). -/
def State.auxReinit (s : State) (r : Fin 4) : State :=
  if auxRuns (s.aux[r]).st then s.updAux r fun a => s.auxLawAt r a.gen.target a else s

def allAux : List (Fin 4) := List.finRange 4

/-- A change between BUCK and BOOST is requested in a Frame: the new law runs from S2 of the Frame on, the bridge from
the next tick (R254, R329). The CE initialises every law (R296). -/
def State.cvTurn (s : State) (m : CvMode) : State :=
  let s1 := overL allAux (fun (r : Fin 4) s => s.auxReinit r) (s.initLaw m (if m == .boost then s.hvSet else s.buckV))
  { s1 with cv := { s1.cv with modeNext := some m } }

/-- The converter is to go IDLE at the next tick. -/
def State.cvToIdle (s : State) : State :=
  if s.cv.mode == .idle && s.cv.modeNext == none then s else { s with cv := { s.cv with modeNext := some .idle } }

/-- CV_SET with mode IDLE, and R335: pending restarts are cancelled. -/
def State.cvHalt (s : State) : State :=
  ({ s with cv := { s.cv with autoFault := none, countedAt := none, start := .none } }).cvToIdle

/-! ### Faults (R285-R287, Table 7.6) -/

/-- The modes' codes and Phase states of Table 7.7. -/
def phCode : PhState → Nat
  | .active => 0
  | .shed => 1
  | .spare => 2
  | .retired => 3
  | .none => 1

/-- The Phase states, 2 bits each. A Phase not installed reads as SHED, whose EN is low (log 37). -/
def State.phStates (s : State) : Nat := (allPh.map fun p => phCode (s.cv.ph[p]).st * 4 ^ p.val).sum

/-- A temperature in 1/64 degC. -/
def tempBytes (t : Option ℚ) : List Byte := match t with | some x => repS 2 (64 * x) | none => [0x00, 0x80]

/-- The last-fault record (Table 7.7). -/
def State.faultBytes (s : State) (seq cause ph : Nat) : List Byte :=
  let body := le 4 seq ++ le 2 Config.formatVersion.toNat ++ le 2 cause ++ le 1 (cvModeCode s.cv.mode) ++
    le 1 s.activePh.length ++ le 4 s.phStates ++ le 2 ph ++ le 4 s.now32 ++ le 4 s.iceSeq ++
    repS 2 (100 * s.v48In) ++ repS 2 (100 * s.v48Zone) ++ repS 2 (100 * s.v12Bus) ++ repS 2 (100 * s.vBatt) ++
    repU 2 (100 * s.cv.gen.p) ++ repS 2 (10 * s.cv.demand) ++ (allPh.flatMap fun p => repS 2 (100 * s.iPh p)) ++
    le 2 ((allPh.map fun p => bit (s.cv.ph[p]).limNow * 2 ^ p.val).sum) ++ le 2 0 ++
    (allPh.flatMap fun p => tempBytes (let src := s.cvf Fld.PHNTC p.val; if src == 31 then none else s.tempSrc src)) ++
    repS 2 (8 * (s.hk.ts.toList.foldl max (-32768) : Int)) ++ List.replicate 18 0
  body ++ le 4 (crc32c body).toNat

/-- Response IDLE of Table 7.6. -/
def respIdle (cause : Nat) : Bool := cause != 5 && cause < 10

/-- A fault is detected: its Icecore record, its last-fault record, FAULT_N and the response at the next tick; ph is the
Phase or input it names. -/
def State.cvFault (s : State) (cause ph : Nat) : State :=
  let old := s.cv.faultNewest cause
  let seq := old.seq + 1
  let s1 := s.iceRecord 0x0220 rConv 2 (le 2 cause ++ le 2 ph ++ le 4 seq)
  let s2 := if s1.pw.pfw then s1
    else { s1 with cv := s1.cv.faultPut cause ⟨true, seq, s1.faultBytes seq cause ph⟩ }
  let s3 := ({ s2 with cv := { s2.cv with lastCause := cause } }).injEnd true
  if !respIdle cause then s3
  else
    let s4 := s3.setFault 6
    let c := s4.cv
    let c1 := { c with faultNow := some cause, start := match c.start with | .running _ => .none | x => x }
    let c2 :=
      if cause == 1 || cause == 2 || cause == 9 then
        { c1 with autoFault := some cause, autoRun := 0, autoBoost := c.mode == .boost }
      else if cause == 6 then { c1 with stop := some cause, start := .none }
      else if cause == 7 then { c1 with noPhase := true, start := .none }
      else { c1 with countedAt := some (s.fr.count + 25000) }
    ({ s4 with cv := c2 }).cvToIdle

/-- A Phase leaves the working set for good at the next tick (R267). -/
def State.retire (s : State) (p : Fin 16) : State :=
  { s with cv := { s.cv with retireNext := s.cv.retireNext ++ [p] } }

/-- A Phase leaves what it takes part in: a pending shed, the exercise (R258). -/
def Conv.dropPh (c : Conv) (p : Fin 16) : Conv :=
  { c with
    shed := match c.shed with | some (q, f) => if q == p then none else some (q, f) | none => none
    exercise := if c.exercise == some p then none else c.exercise }

/-- The retirement at the tick, and the lowest-numbered spare that enters SHED in its place, from its exercise if need be
(R267, R39). -/
def State.retireNow (s : State) (p : Fin 16) : State :=
  let inSet := s.phInUse p
  let s1 := ((s.updPh p fun x => { x with st := .retired, join := none, target := 0, duty := 0 }).updCv
    fun c => c.dropPh p).iceRecord 0x0C02 rDevice 1 (le 1 1 ++ le 1 p.val ++ le 1 0)
  match allPh.find? fun q => (s1.cv.ph[q]).st == .spare with
  | some q =>
    if inSet then ((s1.updPh q fun x => { x with st := .shed, join := none }).updCv fun c => c.dropPh q).iceRecord 0x0C01 rDevice 0
      (le 1 1 ++ le 1 q.val ++ le 1 0)
    else s1
  | none => s1

/-! ### Starts (R280, R281) -/

/-- A start is asked for: it begins at the next tick, or waits for the inputs (R280). -/
def State.cvStartReq (s : State) (own : Bool) : State :=
  if s.cv.mode != .idle || s.cv.stop.isSome || s.cv.noPhase || s.cv.lockout then s
  else
    let ready := s.cv.vinRun ≥ 250
    { s with cv := { s.cv with start := .waiting own, modeNext := if ready then some .buck else s.cv.modeNext } }

/-- The inputs of R280 in one latch. -/
def State.vinOk (s : State) : Bool :=
  let v : ℚ := (s.cvf Fld.VINSTART : ℚ) / 10
  v ≤ s.v48In && v ≤ s.v48Zone

/-- The SHED Phase to be enabled next: least active time, lowest number; weak ones never (R270). -/
def State.nextAdd (s : State) : Option (Fin 16) :=
  let cs := allPh.filter fun p => (s.cv.ph[p]).st == .shed && !s.weak p
  cs.foldl (fun (b : Option (Fin 16)) p =>
    match b with
    | none => some p
    | some q => if (s.cv.ph[p]).activeTime < (s.cv.ph[q]).activeTime then some p else some q) none

/-- A refusal or clamp by Tumbler in the actuator update: counted, and recorded once in a Period (R284). A clamp of the reference
disturbs a sweep point (R322). -/
def State.cvClampNote (s : State) (kind : Nat) : State :=
  let s1 := { s with cv := { s.cv with nClamp := s.cv.nClamp + 1, clamped := true } }
  let s2 := if s.cv.clamped then s1 else s1.iceRecord 0x0221 rConv 1 (le 1 kind)
  if kind == 2 then s2 else s2.injDisturb true

/-- n SHED Phases are enabled with JOINING, within the Tumbler maximum (R270, R284). One that joins starts at dff with its integrator
at 0 (R300), one that a start enables at the duty that gives its latched output (R281). -/
def State.addPhases (s : State) (n : Nat) (starts : Bool := false) : State :=
  overL (List.range n) (fun _ s =>
    match s.nextAdd with
    | none => s
    | some p =>
      if s.switching.length ≥ s.tmb.zone.nphMax then s.cvClampNote 2
      else s.updPh p fun x => { x with
        st := .active, join := some 0, addedAt := s.fr.count, failRun := 0
        integ := if starts then s.ratio - s.dffNow else 0, duty := if starts then s.ratio else s.dffNow }) s

/-- The interleave advances at an add or a completed shed (R276). -/
def State.rotate (s : State) : State := ({ s with cv := { s.cv with rot := s.cv.rot + 1, rotNs := 0 } }).injDisturb

/-- CV_SETs of a kind complete. -/
def State.cvSetsEnd (s : State) (p : Wait → Bool) (status : Nat) : State :=
  s.completeOuts (fun o => p o.wait) fun o s => s.finish o.cmd status (some s.fr.count)

/-- The start begins at this tick, from the output latched in the last Frame (R281). -/
def State.cvBegin (s : State) : State :=
  let s1 := { s with cv := { s.cv with
    -- the periods of R281 count from this tick, whose own Frame has not run
    mode := .buck, start := .running s.fr.count, startLeft := s.nMin - 1, enableNs := -s.frameNs, regRun := 0, shed := none
    holdEnd := none } }
  ((s1.addPhases 1 true).initLaw .buck s.buckV).rotate

/-- No entry holds a Phase request outside BUCK (R278, R279). -/
def State.dropRequests (s : State) : State := { s with adm := s.adm.map fun e => { e with phReq := false } }

/-- The converter is IDLE from this tick on: every EN is low (Tables 7.2, 7.5). -/
def State.cvIdleNow (s : State) : State :=
  let off (p : Phase) : Phase :=
    { p with st := if p.st == .active then .shed else p.st, join := none, target := 0, duty := 0 }
  let s1 := s.dropRequests.updCv fun c => { c with
    mode := .idle, law := .idle, shed := none, holdEnd := none, skip := false, skipRun := 0, addNext := none, dorm := none
    diodeNs := 0, demand := 0, iff' := 0, profiles := [], atCap := false, exercise := none
    start := match c.start with | .running _ => CvStart.none | x => x
    ph := c.ph.map off }
  ((s1.injEnd true).cvSetsEnd (fun w => w == .cvIdle) 0).cvSetsEnd (fun w => w == .cvSlew || w == .cvStart) 0x12

/-- The mode change that was requested takes effect (R253). -/
def State.cvMode (s : State) : State :=
  let s1 := s.updCv fun c => { c with modeNext := none }
  match s.cv.modeNext with
  | none => s
  | some .idle => s1.cvIdleNow
  | some .buck => if s.cv.mode == .idle then s1.cvBegin else
      -- R254: 64 periods from this tick on
      { s1 with cv := { s1.cv with mode := .buck, diodeNs := 64 * (s.cvf Fld.TSW : ℚ) + s.frameNs } }
  | some .boost =>
    let s2 := s1.dropRequests.updCv fun c => { c with
      mode := .boost, exercise := none, start := .none, diodeNs := 64 * (s.cvf Fld.TSW : ℚ) + s.frameNs }
    (s2.cvSetsEnd (fun w => w == .cvSlew || w == .cvStart) 0).cvSetsEnd (fun w => w == .cvIdle) 0x12

/-! ### The tick -/

/-- Phases installed by PHMASK and SPMASK take their configured role; a retirement holds, that of a Phase taken out of PHMASK
too, until a rebase ends it (R257, R258, R260). -/
def State.cvConfigure (s : State) : State :=
  { s with cv := { s.cv with
    configured := true
    ph := Vector.ofFn fun i =>
      let p := s.cv.ph[i]
      { p with st := if p.st == .retired then .retired else s.phRole i } } }

/-- A Phase whose EN goes low. -/
def Phase.enLow (p : Phase) (st : PhState) : Phase := { p with st := st, join := none, target := 0, duty := 0 }

/-- The counters of a tick: JOINING, active time, diode emulation, the interleave. -/
def State.cvCount (s : State) : State :=
  let ns := s.frameNs
  let step (p : Phase) : Phase := { p with
    join := if p.addedAt == s.fr.count then p.join else p.join.map (· + ns)
    activeTime := if isActive p then p.activeTime + 1 else p.activeTime }
  s.updCv fun c => { c with
    diodeNs := max 0 (c.diodeNs - ns), rotNs := if c.mode == .idle then c.rotNs else c.rotNs + ns
    enableNs := c.enableNs + ns, exercise := if c.stepNow || s.zone.hu != .normal then none else c.exercise
    ph := c.ph.map step }

/-- A shed transaction completes (R271). -/
def State.shedDone (s : State) : State :=
  match s.cv.shed with
  | some (p, f) =>
    if f + 2 ≤ s.fr.count then
      ((s.updPh p fun x => x.enLow .shed).updCv fun c => { c with shed := none, dwell := 0 }).rotate
    else s
  | none => s

/-- The Phases wanted for this tick are added (R270). -/
def State.addsDone (s : State) : State :=
  match s.cv.addNext with
  | some k =>
    let n := s.activePh.length
    let s1 := s.updCv fun c => { c with addNext := none }
    if k > n && s.nextAdd.isSome then (s1.addPhases (k - n)).rotate else s1
  | none => s

/-- A start enables one Phase per 8 switching periods (R281). -/
def State.startEnable (s : State) : State :=
  let period : ℚ := 8 * s.cvf Fld.TSW
  if s.cv.startLeft > 0 && s.cv.enableNs ≥ period then
    ((s.updCv fun c => { c with startLeft := c.startLeft - 1, enableNs := c.enableNs - period }).addPhases 1 true).rotate
  else s

/-- The enabled Phase that was added last, an exercised SPARE among them. -/
def State.lastAdded (s : State) : Option (Fin 16) :=
  s.switching.foldl (fun (b : Option (Fin 16)) p => match b with
    | none => some p
    | some q => if (s.cv.ph[p]).addedAt ≥ (s.cv.ph[q]).addedAt then some p else some q) none

/-- R284: every enable beyond the maximum is refused, those of the Phases added last. -/
def State.enableCap (s : State) : State :=
  overL allPh (fun _ s =>
    if s.switching.length > s.tmb.zone.nphMax then
      match s.lastAdded with
      | some p => ((s.updPh p fun x => x.enLow (if isActive x then .shed else x.st)).updCv fun c => c.dropPh p).cvClampNote 2
      | none => s
    else s) s

/-- Whether a Phase is to be enabled: ACTIVE, or the SPARE under exercise (Table 7.4, R268). -/
def State.phOn (s : State) (p : Fin 16) : Bool :=
  s.cv.mode != .idle && (isActive s.cv.ph[p] || s.cv.exercise == some p)

/-- What the drive die applies to a Phase at a tick: EN and duty as staged; a word lost on the link leaves what it addresses
as it was (R10, R11). -/
def State.phApply (s : State) (p : Fin 16) : Phase :=
  let x := s.cv.ph[p]
  let on := s.phOn p
  let lostP := s.linkLost.contains (.pwm p)
  { x with
    enAp := if s.linkLost.contains (.phaseEnable p) then x.enAp else on
    midAp := if lostP then x.midAp else !on
    dutyAp := if lostP then x.dutyAp else if on then x.duty else 0 }

/-- At a frozen tick the Phases keep enables, duties and mode; BOOST alone begins, with every PWM at mid-level until the first
update after the freeze (R45, R331, log 137). -/
def State.cvFrozen (s : State) : State :=
  if s.cv.modeNext == some .boost then
    s.cvMode.cvCount.updCv fun c => { c with ph := c.ph.map fun p => { p with dutyAp := 0, midAp := true } }
  else s.cvCount

/-- What takes effect at a tick: a mode change, retirements, a completed shed, added Phases, and the duties. -/
def State.cvTick (s : State) : State :=
  let s0 := s.updCv fun c => { c with faultNow := none, posted := [], skipAp := c.skip }
  if s0.fr.freeze then s0.cvFrozen
  else
    let s1 := s0.cvMode
    let s2 := overL s1.cv.retireNext (fun p s => s.retireNow p) (s1.updCv fun c => { c with retireNext := [] })
    let s3 := s2.cvCount
    let s4 := if s3.cv.mode == .idle then s3 else s3.shedDone.addsDone.startEnable.enableCap
    s4.updCv fun c => { c with ph := Vector.ofFn fun p => s4.phApply p }

/-! ### S1: Phases, starts and faults -/

/-! ### Switching periods (R252, R261, R262, R275, R276, R301) -/

/-- What the PWM generator of a Phase or rail goes by in a Frame: period, the power-flow switch being the low side (BOOST), peak
limits with 0 for diode emulation, and the current words, those left from the Frame before among them, each as ns after the tick and A
along the power flow. -/
structure SwRun where
  tsw : ℚ
  boost : Bool
  ipkf : ℚ
  ipkr : ℚ
  words : List (ℚ × ℚ)

/-- A word that falls into a period: at IPKF while the power-flow switch is on it ends the on-time (R261); opposite to the power
flow from IPKR on, or at zero on the synchronous switch in diode emulation, it takes the PWM to mid-level (R262). -/
def SwPeriod.take (c : SwRun) (x : SwPeriod) (w : ℚ × ℚ) : SwPeriod :=
  if x.skip || x.mid.isSome then x
  else
    let high : Bool := w.1 < x.start + x.on
    let flow : Bool := x.cut.isNone && (high != c.boost)
    let ipkr := if x.diode then 0 else c.ipkr
    if flow && c.ipkf ≤ w.2 then { x with cut := some w.1 }
    else if (ipkr != 0 && w.2 ≤ -ipkr) || (ipkr == 0 && !flow && w.2 ≤ 0) then { x with mid := some w.1 }
    else x

/-- The words go each to the period in which their result is ready. -/
def swWords (c : SwRun) (ps : List SwPeriod) : List SwPeriod :=
  ps.map fun x => (c.words.filter fun w => x.start ≤ w.1 && w.1 < x.start + c.tsw).foldl (SwPeriod.take c) x

/-- The words whose result comes after the next tick, at times after that tick. -/
def SwRun.lateWords (c : SwRun) : List (ℚ × ℚ) :=
  (c.words.filter fun w => 4000 ≤ w.1).map fun w => (w.1 - 4000, w.2)

/-- The starts of switching periods in a Frame, in ns after its tick, at an offset from a reference that restarts at Frame
count 0 (R276). -/
def swStarts (tsw : ℚ) (off : ℚ) (frame : Nat) : List ℚ :=
  let t0 : ℚ := 4000 * frame
  let j0 := (Rat.ceil ((t0 - off) / tsw)).toNat
  ((List.range 5).map fun j => ((j0 + j : Nat) : ℚ) * tsw + off - t0).filter fun x => x < 4000

/-- The result times and values of the words of a G4 input in the last Frame: 25 ns after the sample (R94). -/
def State.timedWords (s : State) (i : Fin 32) : List (ℚ × Int) :=
  let k := s.grp[(4 : Fin 5)]
  let slot := ((k.plan.find? fun e => e.1 == i).map fun e => e.2.2).getD 0
  (k.words[i].zipIdx).map fun (w, r) => (200 * (r : ℚ) + 25 / 4 * (slot : ℚ) + 25, rawSample w)

/-- A raw 14-bit word of a G4 input in its unit. -/
def State.g4Word (s : State) (i : Fin 32) (w : Int) : ℚ := (w : ℚ) / 8192 * s.g4Fs i

/-- The enabled Phases in ascending order, and the offset of one from the interleave reference (R276): position k is taken by the
((k + r) mod n)-th of them. -/
def State.enabledPh (s : State) : List (Fin 16) := allPh.filter fun p => (s.cv.ph[p]).enAp
def State.phOffset (s : State) (p : Fin 16) : ℚ :=
  let l := s.enabledPh
  let n := l.length
  let a := l.findIdx (· == p)
  (((a + n - s.cv.rot % n) % n : Nat) : ℚ) * s.cvf Fld.TSW / n

/-- Whether the output is above its reference at a time of the last Frame, by the newest word of the output (R275). -/
def State.outAbove (s : State) (t : ℚ) : Bool :=
  let i : Fin 32 := if s.cv.mode == .boost then 17 else 18
  match ((s.timedWords i).filter fun w => w.1 ≤ t).getLast? with
  | some w => s.cv.gen.p < s.g4Word i w.2
  | none => s.cv.gen.p < s.cvOut s.cv.mode

/-- The on-time of a duty (R301), and the duty that an on-time is. -/
def onTime (tsw : Nat) (d : ℚ) : Nat := (nearestI (d * tsw)).toNat

/-- The period that reaches over the tick, its times counted from the new tick. -/
def swOver (tsw : Nat) (l : List SwPeriod) : List SwPeriod :=
  (l.getLast?.toList.map fun y => { y with
    start := y.start - 4000, cut := y.cut.map (· - 4000), mid := y.mid.map (· - 4000) }).filter fun y => -(tsw : ℚ) < y.start

/-- The switching periods of a drive in a Frame as its applied duty sets them, the one that reaches over the tick first. -/
def State.phDrive (s : State) (p : Fin 16) : List SwPeriod :=
  let x := s.cv.ph[p]
  let tsw := s.cvf Fld.TSW
  if !x.enAp || s.cv.mode == .idle then []
  else
    swOver tsw x.sw ++ (swStarts tsw (s.phOffset p) s.fr.count).map fun t =>
      (⟨t, onTime tsw x.dutyAp, x.midAp || (s.cv.skipAp && s.outAbove t), s.cv.start.isRunning || decide (t < s.cv.diodeNs), none,
        none⟩ : SwPeriod)
def State.auxDrive (s : State) (r : Fin 4) : List SwPeriod :=
  let a := s.aux[r]
  let tsw := s.axf r Fld.TSWA
  if !a.enAp then []
  else swOver tsw a.sw ++ (swStarts tsw 0 s.fr.count).map fun t => (⟨t, onTime tsw a.dutyAp, false, true, none, none⟩ : SwPeriod)

/-- Whether a drive rises in the ns after t, and whether it falls in it at the latest by its duty: a limit may have ended the
on-time before (R261, R301; log 197). -/
def SwPeriod.risesAt (x : SwPeriod) (t : Nat) : Bool := x.on != 0 && decide ((t : ℚ) ≤ x.start) && decide (x.start < t + 1)
def SwPeriod.fallsAt (x : SwPeriod) (t : Nat) : Bool :=
  x.cut.isNone && x.mid.isNone && decide (x.start < t + 1) && decide ((t : ℚ) ≤ x.start + x.on)

/-- Whether the drive that a TRIG of 0-39 names has its edge in the ns after t of the present Frame (Table 3.8). -/
def State.trigEdge (s : State) (trig t : Nat) : Bool :=
  let ph : List SwPeriod := s.phDrive (finOf 16 trig (by decide))
  let ax : List SwPeriod := s.auxDrive (finOf 4 trig (by decide))
  if trig < 16 then ph.any (·.risesAt t)
  else if trig < 32 then ph.any (·.fallsAt t)
  else if trig < 36 then ax.any (·.risesAt t)
  else trig < 40 && ax.any (·.fallsAt t)

/-- INJECTED_CONVERSION: an edge of the drive that an enabled definition names, at a time in ns after the tick. The converter takes
the input in the rounds from its due time on (R107-R111). -/
def execInjectedConversion (g : Fin 5) (defn : Fin 8) (round : Fin 20) (ns : Fin 200) (s : State) :
    Host.Outcome State Fault Refusal :=
  let w := (s.grp[g]).inj[defn]
  let t := 200 * round.val + ns.val
  .next (if s.converts g && injEn w && s.trigEdge (injTrig w) t then s.updGrp g fun k => k.trigger defn t else s)

/-- The switching periods of a Phase in the Frame that ends, the one that reaches over the tick first; its limit actions are
counted, one of a kind in a period (R263). Those that start before regulation, or among the first 64 in a new mode, run in diode
emulation (R254, R281). -/
def State.switchPh (s : State) (p : Fin 16) : Phase :=
  let x := s.cv.ph[p]
  if !x.enAp || s.cv.mode == .idle then { x with limNow := false, cutNow := false, sw := [], late := [] }
  else
    let i : Fin 32 := ⟨p.val, by omega⟩
    let tsw := s.cvf Fld.TSW
    let boost := s.cv.mode == .boost
    let run : SwRun := {
      tsw := tsw, boost := boost, ipkf := s.cvA Fld.IPKF, ipkr := s.cvA Fld.IPKR
      words := x.late ++ (s.timedWords i).map fun (w : ℚ × Int) => (w.1, if boost then -(s.g4Word i w.2) else s.g4Word i w.2) }
    let ps := s.phDrive p
    let sw := swWords run ps
    let cuts := ((ps.zip sw).filter fun (a, b) => a.cut.isNone && b.cut.isSome).length
    let mids := ((ps.zip sw).filter fun (a, b) =>
      a.mid.isNone && b.mid.isSome && !a.diode && run.ipkr != 0).length
    let acts := cuts + mids
    { x with
      sw := sw, late := run.lateWords, limNow := acts != 0, cutNow := cuts != 0, limPeriod := x.limPeriod + acts, limIpkf := x.limIpkf + cuts
      periods := x.periods + (swStarts tsw (s.phOffset p) s.fr.count).length }

/-- The switching periods of a rail, which runs in diode emulation under its own IPKA (R289, R291; reference: log 148). -/
def State.switchAux (s : State) (r : Fin 4) : Aux :=
  let a := s.aux[r]
  if !a.enAp then { a with limNow := false, sw := [], late := [] }
  else
    let i : Fin 32 := ⟨25 + r.val, by omega⟩
    let tsw := s.axf r Fld.TSWA
    let run : SwRun := {
      tsw := tsw, boost := false, ipkf := (s.axf r Fld.IPKA : ℚ) / 10, ipkr := 0
      words := a.late ++ (s.timedWords i).map fun (w : ℚ × Int) => (w.1, s.g4Word i w.2) }
    let ps := s.auxDrive r
    let sw := swWords run ps
    let acted := (ps.zip sw).any fun (x, y) => x.cut.isNone && y.cut.isSome
    let free := sw.any fun y => y.cut.isNone && decide (y.start + tsw ≤ 4000)
    { a with sw := sw, late := run.lateWords, limNow := acted || (a.limNow && !free) }

/-- What the PWM generators did in the Frame that ends. -/
def State.switchFrame (s : State) : State :=
  { s.updCv (fun c => { c with ph := Vector.ofFn fun p => s.switchPh p }) with aux := Vector.ofFn fun r => s.switchAux r }

/-- PHASE_FAIL, PHASE_STUCK runs and JOINING of one Phase (R259, Table 7.6). -/
def State.phCheck (s : State) (p : Fin 16) : Phase :=
  let x := s.cv.ph[p]
  let iph := s.cvA Fld.IPH
  let en := s.cv.mode != .idle && (isActive x || s.cv.exercise == some p)
  let i := s.iFlow s.cv.mode p
  let failing := en && x.target * 5 ≥ iph && x.dutyAp > 0 && i * 10 < x.target
  let stuck := !en && s.phRole p != .none && |s.iPh p| ≥ 2
  let join := match x.join with
    | some t => if t ≥ 8 * (s.cvf Fld.TSW : ℚ) then none else some t
    | none => none
  { x with
    failRun := if failing then x.failRun + 1 else 0, stuckRun := if stuck then x.stuckRun + 1 else 0, join := join }

/-- What one Frame adds to the sums of R266, and whether the Period can still give a value. -/
def State.phMeter (s : State) (p : Fin 16) : Phase :=
  let x := s.cv.ph[p]
  let en := isActive x || s.cv.exercise == some p
  let ok := x.okPeriod && s.cv.mode == .buck && en && x.join.isNone && !x.limNow && s.g4Ok[(⟨p.val, by omega⟩ : Fin 32)] &&
    s.g4Ok[(17 : Fin 32)] && s.g4Ok[(18 : Fin 32)]
  { x with
    sumDI := x.sumDI + (x.dutyAp * s.v48Zone - s.v12Bus) * s.iPh p, sumII := x.sumII + s.iPh p * s.iPh p
    sumI := x.sumI + s.iPh p, okPeriod := ok }

/-- OUT_UV counts while every Phase is at its cap or the demand at IOUTMAX. -/
def State.cvAtMax (s : State) : Bool := s.cv.demand ≥ s.iHi

/-- The runs of the converter's inputs and output in one latch. -/
def State.cvRuns (s : State) : Conv :=
  let c := s.cv
  let buck := c.mode == .buck
  let boost := c.mode == .boost
  let out := s.cvOut c.mode
  let ref := c.gen.p
  let run (b : Bool) (n : Nat) : Nat := if b then n + 1 else 0
  let target := if boost then s.hvSet else s.buckV
  { c with
    vinRun := if s.vinOk then min 250 (c.vinRun + 1) else 0
    uvRun := run (buck && s.v48Zone < 24) c.uvRun
    outOvRun := run ((buck && s.v12Bus ≥ 17) || (boost && s.v48Zone ≥ 58)) c.outOvRun
    outUvRun := run (c.mode != .idle && out * 2 < ref && s.cvAtMax) c.outUvRun
    invZone := run (!s.g4Ok[(17 : Fin 32)]) c.invZone
    inv12 := run (!s.g4Ok[(18 : Fin 32)]) c.inv12
    regRun := run (match c.start with | .running _ => |out - target| * 50 ≤ target | _ => false) c.regRun
    autoRun := match c.autoFault with
      -- the input of BOOST is V12_BUS
      | some 1 => run (if c.autoBoost then s.v12Bus < 18 else s.v48Zone < 60 && 24 ≤ s.v48Zone) c.autoRun
      | some 2 => run (s.v48Zone < 60 && 24 ≤ s.v48Zone) c.autoRun
      | some _ => if !s.gen48Failed && s.g4Ok[(17 : Fin 32)] && s.g4Ok[(18 : Fin 32)] then 250 else 0
      | none => 0
    noPhase := c.noPhase && s.workingSet < s.nMin }

/-- The automatic restart of Table 7.6 joins the waiting starts once its condition has held (R280). -/
def State.cvAuto (s : State) : State :=
  if s.cv.autoFault.isSome && s.cv.autoRun ≥ 250 && s.cv.mode == .idle && s.cv.modeNext.isNone then
    { s with cv := { s.cv with autoFault := none, autoRun := 0, start := .waiting true } }
  else s

/-- S1 of the converter. loss says that backbone loss is declared in this Frame, in which IN_UV is not raised (R329). -/
def State.cvS1 (s : State) (loss : Bool) : State :=
  let c0 := s.cvRuns
  let s1 := { s with cv := { c0 with ph := Vector.ofFn fun i => s.phCheck i } }
  let s2 := if s1.cv.ph.toList.any (·.cutNow) then s1.injDisturb else s1
  let run := s2.cv.mode != .idle
  let buck := s2.cv.mode == .buck
  let sense := s2.gen48Failed || s2.cv.invZone ≥ 25 || s2.cv.inv12 ≥ 25
  let s3 := when (run && ((buck && s2.v48Zone ≥ 60) || (!buck && s2.v12Bus ≥ 18))) (fun s => s.cvFault 1 0xFFFF) s2
  let s4 := when (s2.cv.uvRun ≥ 2 && !loss) (fun s => s.cvFault 2 0xFFFF) s3
  let s5 := when (s2.cv.outOvRun ≥ 2) (fun s => s.cvFault 3 0xFFFF) s4
  let s6 := when (s2.cv.outUvRun ≥ 250) (fun s => s.cvFault 4 0xFFFF) s5
  let s7 := overL (allPh.filter fun p => (s2.cv.ph[p]).failRun ≥ 25)
    (fun p s => ((s.cvFault 5 p.val).retire p).updPh p fun x => { x with failRun := 0 }) s6
  let s8 := match allPh.find? fun p => (s2.cv.ph[p]).stuckRun ≥ 25 with
    | some p => if s7.cv.stop == some 6 then s7 else s7.cvFault 6 p.val
    | none => s7
  let s9 := when (s8.cv.configured && s8.workingSet < s8.nMin && !s8.cv.noPhase) (fun s => s.cvFault 7 0xFFFF) s8
  let s10 := when (run && sense) (fun s => s.cvFault 9 (if s2.cv.inv12 ≥ 25 then 18 else 17)) s9
  s10.cvAuto

/-! ### S2: the voltage loop, Phase management, sharing, the current loops -/

/-- Division of a demand (R264): Phase and target. -/
def divide (cap : Fin 16 → ℚ) : Nat → ℚ → List (Fin 16) → List (Fin 16 × ℚ)
  | 0, _, _ => []
  | n + 1, rem, ps =>
    if ps.isEmpty then []
    else
      let share := single (rem / ps.length)
      let low := ps.filter fun p => cap p < share
      let rest := ps.filter fun p => !(cap p < share)
      if low.isEmpty then ps.map fun p => (p, share)
      else (low.map fun p => (p, cap p)) ++ divide cap n (rem - (low.map cap).sum) rest

/-- The targets of the switching Phases for a demand: none for the Phase being shed, at least 30 % of IPH for an
exercised spare (R264, R268, R271). -/
def State.targets (s : State) (demand : ℚ) : List (Fin 16 × ℚ) :=
  let ps := s.switching.filter fun p => match s.cv.shed with | some (q, _) => p != q | none => true
  let rem := min demand (s.cvf Fld.IOUTMAX : ℚ)
  let all := divide s.phCap 17 rem ps
  match s.cv.exercise with
  | none => all
  | some q =>
    let low := 3 * s.cvA Fld.IPH / 10
    let mine := match all.find? fun x => x.1 == q with | some x => x.2 | none => 0
    if mine ≥ low then all else (q, low) :: divide s.phCap 17 (rem - low) (ps.filter (· != q))

def targetOf (l : List (Fin 16 × ℚ)) (p : Fin 16) : ℚ := match l.find? fun x => x.1 == p with | some x => x.2 | none => 0

/-- The voltage loop (R299). -/
def State.voltageLoop (s : State) : State :=
  let c := s.cv
  let m := c.law
  let b := if m == .boost then 6 else 0
  let k (i : Nat) : ℚ := s.cvq (0x83, b + i)
  let vfb := single (s.cvOut m + s.injAt 0 0)
  let ref := single (c.gen.p + s.injAt 1 0)
  let e := single (ref - vfb)
  let x := single (k 0 * e + k 1 * c.e1 + k 2 * c.e2 - k 3 * c.x1 - k 4 * c.x2)
  let u := single (x + c.integ + c.iff')
  let hi := s.iHi
  let lo := s.iLo
  let dem := min (max u lo) hi
  let moves : Bool := s.cvOutOk m && (u == dem || (hi < u && e < 0) || (u < lo && 0 < e))
  let demand := single (dem + s.injAt 2 0)
  { s with cv := { c with
      vfb := vfb, err := e, demand := demand, integ := if moves then single (c.integ + k 5 * e) else c.integ
      e2 := c.e1, e1 := e, x2 := c.x1, x1 := x }
           inj := if s.inj.f[(0 : Fin 12)] == 0 then { s.inj with sigA := vfb, sigB := s.cvOut m }
             else if s.inj.f[(0 : Fin 12)] == 1 then { s.inj with sigA := ref, sigB := s.cvOut m }
             else if s.inj.f[(0 : Fin 12)] == 2 then
               { s.inj with sigA := demand, sigB := (s.activePh.map (s.iFlow m)).sum }
             else s.inj }

/-- Whether a profile applies in the present law (R306). -/
def State.profileApplies (s : State) (x : ProfRec) : Bool :=
  s.cvf Fld.FFEN == 1 && s.cv.law != .idle && (x.dom48 == (s.cv.law == .boost))

/-- The profile record of a Channel or of the leader of a set (R305, Table 8.4). -/
def State.profileRec (s : State) (n : Fin 64) : ProfRec :=
  let ran := (s.ch[n]).hasRamp
  { ch := n, dom48 := s.pump.domain48[State.bank n]
    ipred := (if ran then rnd (10 * ((s.members n).map fun m => (s.ch[m]).lastPeak).sum)
      else rnd ((s.lf n Fld.ILIM : ℚ) / 10)).toNat
    npred := if ran then (s.ch[n]).lastDur else s.lf n Fld.TRAMP * frames01ms
    admitted := false }

/-- IPRED in A. -/
def ProfRec.amps (x : ProfRec) : ℚ := (x.ipred : ℚ) / 10

/-- The Phase that a shed takes: a weak one with the lowest cap, else the one with the most active time; ties to the
lowest number (R271). -/
def State.shedPick (s : State) : Option (Fin 16 × Bool) :=
  let ps := s.activePh
  let low := (ps.filter s.weak).foldl (fun (b : Option (Fin 16)) p => match b with
    | none => some p
    | some q => if s.phCap p < s.phCap q then some p else some q) none
  match low with
  | some p => some (p, true)
  | none => (ps.foldl (fun (b : Option (Fin 16)) p => match b with
      | none => some p
      | some q => if (s.cv.ph[p]).activeTime > (s.cv.ph[q]).activeTime then some p else some q) none).map (·, false)

/-- Load steps, adds, sheds and pulse skipping (R269-R275, R277). -/
def State.manage (s : State) : State :=
  let c := s.cv
  let n := s.activePh.length
  let iadd := s.cvA Fld.IADD
  let top := min s.workingSet s.tmb.zone.nphMax
  let rise : Bool := decide ((s.cvf Fld.STEPI : ℚ) ≤ c.demand - min c.d1 c.d2)
  let ff := c.posted.any fun x => s.profileApplies x && (s.cvf Fld.STEPI : ℚ) ≤ x.amps
  let step := rise || ff
  let need := min top ((Rat.floor (c.demand / iadd)).toNat + 1)
  let heavy : Bool := n != 0 && decide (iadd * n ≤ c.demand)
  let addRun := if heavy && !step then c.addRun + 1 else 0
  -- R277: Dormant entry only sheds
  let want := if c.dorm.isSome then none else if step then some need else if addRun ≥ 2 then some (min top (n + 1)) else none
  let addNext := match want, c.addNext with
    | some a, some b => some (max a b)
    | some a, none => some a
    | none, b => if c.dorm.isSome then none else b
  let hold := if rise then some (s.fr.count + 250 * s.cvf Fld.SHEDHOLD) else c.holdEnd
  let abort := step && c.shed.isSome
  let calm := n > s.nMin && c.shed.isNone && hold.isNone && !step && !(s.adm.any fun e => e.phReq)
  let light : Bool := n ≥ 2 && decide (c.demand ≤ s.cvA Fld.ISHED * ((n : ℚ) - 1))
  let dorm : Bool := match c.dorm with | some f => c.shed.isNone && f ≤ s.fr.count | none => false
  let shed : Option (Fin 16 × Nat) := if abort then none
    else match s.shedPick with
      | some (p, weak) =>
        if dorm || (calm && (weak || (light && c.dwell ≥ 250 * s.cvf Fld.SHEDT))) then some (p, s.fr.count) else c.shed
      | none => c.shed
  let low : Bool := decide (c.demand < s.nMin * s.cvA Fld.ISKIP) && n == s.nMin
  let skipRun := if low then c.skipRun + 1 else 0
  let skip := if c.skip then !(step || decide (3 * s.nMin * s.cvA Fld.ISKIP ≤ 2 * c.demand))
    else decide (skipRun ≥ 250 * s.cvf Fld.SHEDT) && !step
  let s1 := { s with cv := { c with
    d1 := c.demand, d2 := c.d1, addNext := addNext, addRun := if addRun ≥ 2 then 0 else addRun, holdEnd := hold, shed := shed
    dwell := if hold.isSome || !light || abort then 0 else c.dwell + 1, skip := skip, skipRun := skipRun, stepNow := step
    dorm := if dorm then c.dorm.map fun _ => s.fr.count + 4 else c.dorm } }
  let s2 := if step then s1.injDisturb else s1
  -- R277: after the last shed the converter goes IDLE
  if c.dorm.isSome && n == 0 then s2.cvToIdle else s2

/-- The current loop of one Phase (R300, R302). -/
def State.phaseLoop (s : State) (tgt : List (Fin 16 × ℚ)) (dff : ℚ) (p : Fin 16) : Phase :=
  let x := s.cv.ph[p]
  let m := s.cv.law
  let on := isActive x || s.cv.exercise == some p
  if !on then { x with target := 0, duty := 0 }
  else
    let t := targetOf tgt p
    let dmin : ℚ := (s.cvf Fld.DMIN : ℚ) / 1000
    let dmax : ℚ := (s.cvf Fld.DMAX : ℚ) / 1000
    let moved := if s.cv.vffen == (s.cvf Fld.VFFEN == 1) then x.integ
      else if m == .boost then x.integ - (s.cv.dff - dff) else x.integ + (s.cv.dff - dff)
    let ok := s.g4Ok[(⟨p.val, by omega⟩ : Fin 32)] && (s.cvf Fld.VFFEN != 1 || (s.g4Ok[(17 : Fin 32)] && s.g4Ok[(18 : Fin 32)]))
    let ei := single (t - s.iFlow m p + s.injAt 3 p.val)
    let i1 := if ok then single (moved + s.cvq Fld.IKI * ei) else moved
    let integ := if m == .boost then min (max i1 (dff - dmax)) (dff - dmin) else min (max i1 (dmin - dff)) (dmax - dff)
    let corr := s.cvq Fld.IKP * ei + integ
    let d := single (if m == .boost then dff - corr else dff + corr)
    { x with target := t, duty := min (max d dmin) dmax, integ := if ok then integ else moved }

/-- S2 of the converter. -/
def State.cvS2 (s : State) : State :=
  if s.cv.law == .idle then s
  else
    let s1 := s.voltageLoop.manage
    let tgt := s1.targets s1.cv.demand
    let dff := single s1.dffNow
    let caps := s1.capSum
    let atCap : Bool := decide (caps ≤ s1.cv.demand) && !s1.switching.isEmpty
    let s2 := { s1 with cv := { s1.cv with
      ph := Vector.ofFn fun i => s1.phaseLoop tgt dff i
      dff := dff, vffen := s1.cvf Fld.VFFEN == 1, atCap := atCap } }
    let s3 := if s2.inj.f[(0 : Fin 12)] == 3 then
        match allPh[s2.inj.f[(1 : Fin 12)]]? with
        | some p => { s2 with inj := { s2.inj with
            sigA := (s2.cv.ph[p]).duty, sigB := (({ s1 with inj := { s1.inj with value := 0 } }).phaseLoop tgt dff p).duty } }
        | none => s2
      else s2
    -- CV_LIMIT at the Frame in which the limit is reached (log 33)
    if atCap && !s.cv.atCap then s3.postOnly 0x0202 rConv (repS 2 (10 * s3.cv.demand) ++ repU 2 (10 * caps)) else s3

/-! ### S3: scheduled feed-forward and the generator -/

/-- iff of the profiles in progress (R307). -/
def State.iffSum (s : State) : ℚ :=
  let sum := (s.cv.profiles.map (·.ipred)).sum
  if s.cv.law == .boost then (if s.v12Bus == 0 then sum else sum * s.v48Zone / s.v12Bus) else sum

/-- A profile ends: the Channel's current joins the integrator where it entered ON, and the hold-off of a step starts
(R274, R308). -/
def State.endProfile (s : State) (f : Profile) (toOn : Bool) : State :=
  let i := ((s.members f.ch).map fun m => (s.ch[m]).iM).sum
  let add := if !toOn then 0 else if s.cv.law == .boost && s.v12Bus != 0 then i * s.v48Zone / s.v12Bus else i
  { s with cv := { s.cv with
    profiles := s.cv.profiles.filter fun g => g.ch != f.ch
    integ := if toOn then single (s.cv.integ + add) else s.cv.integ
    holdEnd := if f.big then some (s.fr.count + 250 * s.cvf Fld.SHEDHOLD) else s.cv.holdEnd } }

/-- NPRED + 25 Frames have passed since the start of a profile (R308). -/
def Profile.late (f : Profile) (now : Nat) : Bool := f.start + f.npred + 25 ≤ now

/-- Profiles that start in this Frame, and those whose Channel has left RAMP or whose time is over (R306-R308). -/
def State.profiles3 (s : State) : State :=
  let gone := s.cv.profiles.filter fun f => (s.ch[f.ch]).st != .ramp || f.late s.fr.count
  let s1 := overL gone (fun f s => s.endProfile f ((s.ch[f.ch]).st == .on)) s
  overL (s1.cv.posted.filter fun x => s1.profileApplies x && (s1.ch[x.ch]).st == .ramp) (fun x s =>
    let f : Profile := ⟨x.ch, x.amps, x.npred, s.fr.count, (s.cvf Fld.STEPI : ℚ) ≤ x.amps⟩
    { s with cv := { s.cv with profiles := s.cv.profiles ++ [f] } }) s1

/-- Δ of R307: the demand, the targets and the duties move by the change of iff. -/
def State.feedForward (s : State) : State :=
  let s1 := s.profiles3
  -- R306: iff changes only when a profile starts or ends
  let iff1 := if s1.cv.profiles == s.cv.profiles then s.cv.iff' else single s1.iffSum
  let delta := iff1 - s1.cv.iff'
  if delta == 0 then s1
  else
    let dem := min (max (s1.cv.demand + delta) s1.iLo) s1.iHi
    let tgt := s1.targets dem
    let dmin : ℚ := (s1.cvf Fld.DMIN : ℚ) / 1000
    let dmax : ℚ := (s1.cvf Fld.DMAX : ℚ) / 1000
    { s1 with cv := { s1.cv with
      iff' := iff1, demand := single dem
      ph := Vector.ofFn fun i =>
        let x := s1.cv.ph[i]
        let t := targetOf tgt i
        let step := s1.cvq Fld.IKP * (t - x.target)
        if isActive x || s1.cv.exercise == some i then
          { x with target := t
                   duty := min (max (single (if s1.cv.law == .boost then x.duty - step else x.duty + step)) dmin) dmax }
        else x } }

/-- The window and the slew cap of Tumbler for a law (R284): V, and V in 4 µs. -/
def State.tmbWindow (s : State) (m : CvMode) : ℚ × ℚ :=
  let z := s.tmb.zone
  if m == .boost then ((z.boostLo : ℚ) / 100, (z.boostHi : ℚ) / 100) else ((z.buckLo : ℚ) / 100, (z.buckHi : ℚ) / 100)
def State.tmbSlew (s : State) : ℚ := (s.tmb.zone.slewCap : ℚ) / 10 * (4 / 1000)

/-- The handing chip's converter keeps its reference (R510). -/
def State.refHeld (s : State) : Bool := s.hinge.st == .handing || s.hinge.handEnd.isSome

/-- S3 and S4 of the converter: feed-forward, one Frame of the generator, Tumbler's clamps, the completion of a CV_SET
that has arrived (R309-R315). -/
def State.cvS3 (s : State) : State :=
  if s.cv.law == .idle then s
  else
    let s1 := s.feedForward
    let old := s1.cv.gen.p
    let (g, done) := if s1.refHeld then (s1.cv.gen, false) else s1.cv.gen.tick s1.cvLims
    let w := s1.tmbWindow s1.cv.law
    let (g2, hit) := g.clamp old w.1 w.2 s1.tmbSlew
    let s2 := { s1 with cv := { s1.cv with gen := g2 } }
    let s3 := match hit with
      | some byWindow => s2.cvClampNote (if byWindow then 0 else 1)
      | none => s2
    if done && hit.isNone then s3.cvSetsEnd (· == .cvSlew) 0 else s3

/-! ### The Period -/

/-- A valid resistance value of a Phase for the last Period (R266). -/
def State.rphValue (s : State) (p : Fin 16) : Option ℚ :=
  let x := s.cv.ph[p]
  if x.okPeriod && x.sumI * 10 ≥ 3 * 250 * s.cvA Fld.IPH && x.sumII != 0 then some (single (x.sumDI / x.sumII)) else none

/-- A resistance value joins the last 64; the first 64 give the baseline where none is configured. -/
def State.rphStore (s : State) (p : Fin 16) : Phase :=
  let x := s.cv.ph[p]
  match s.rphValue p with
  | none => x
  | some v =>
    let l := (v :: x.rph).take 64
    { x with rph := l, rph0 := if s.cvf Fld.RPH0 == 0 && x.rph0 == 0 && l.length == 64 then median l else x.rph0 }

/-- PH_LIMIT (R263). -/
def State.phLimitEvents (s : State) : State :=
  overL allPh (fun p s =>
    let x := s.cv.ph[p]
    if x.periods != 0 && x.limIpkf * 2 > x.periods then s.postOnly 0x0201 (rPhase p.val) (le 2 (min 65535 x.limPeriod))
    else s) s

/-- A Phase at the end of a Period, with its new kappaR run. -/
def Phase.nextPeriod (p : Phase) (low : Bool) : Phase :=
  { p with krLow := if low then p.krLow + 1 else 0, sumDI := 0, sumII := 0, sumI := 0, okPeriod := true, limPeriod := 0
           limIpkf := 0, periods := 0 }

/-- R268: an exercise ends after 250 Periods; a spare with kappaR below 0.60 is retired. -/
def State.exerciseEnd (s : State) : State :=
  match s.cv.exercise with
  | some p =>
    if s.fr.count ≥ s.cv.exerciseFrom + 62500 then
      let s1 := (s.updPh p fun x => x.enLow .spare).updCv fun c => { c with exercise := none }
      if s.kappaR p * 100 < 60 then s1.retire p else s1
    else s
  | none => s

/-- R268: the next spare is exercised where a place is free, and skipped where none is. -/
def State.exerciseNext (s : State) : State :=
  match allPh.find? fun p => (s.cv.ph[p]).st == .spare && !s.cv.exercised.getLsbD p.val with
  | some p =>
    if s.cv.exercise.isNone && s.inRun && s.pw.runAt + frames10s > s.fr.count && s.cv.mode == .buck &&
        s.zone.hu == .normal then
      let s1 := s.updCv fun c => { c with exercised := c.exercised ||| (1#16 <<< p.val) }
      if s1.switching.length < s1.tmb.zone.nphMax then
        (s1.updPh p fun x => { x with join := some 0, addedAt := s.fr.count, integ := 0, duty := s.dffNow }).updCv
          fun c => { c with exercise := some p, exerciseFrom := s.fr.count }
      else s1
    else s
  | none => s

/-- The Period work of the converter: resistances, retirements, PH_LIMIT, PCV, and the spare exercise of R268. -/
def State.cvPeriod (s : State) : State :=
  let s1 := s.phLimitEvents
  let s2 := s1.updCv fun c => { c with ph := Vector.ofFn fun i => s1.rphStore i }
  let s3 := s2.updCv fun c => { c with
    ph := Vector.ofFn fun i => (c.ph[i]).nextPeriod (s2.kappaR i * 100 < 60)
    pcv := c.sumPcv / 250, sumPcv := 0, capFrames := 0, clamped := false }
  let s4 := overL (allPh.filter fun p => (s3.cv.ph[p]).krLow ≥ 8 && s3.phInUse p) (fun p s => s.retire p) s3
  s4.exerciseEnd.exerciseNext

/-! ### Learned values in Firn (R260, Table 1.4) -/

/-- What is held of a Phase; an ACTIVE one is SHED at the next start. -/
def Phase.learned (p : Phase) : PhState × ℚ × Nat := (if p.st == .active then .shed else p.st, p.rph0, p.activeTime)

/-- The valid slot with the higher sequence. -/
def Conv.slotNewest (c : Conv) : Option CvSlot :=
  if c.slot1.valid && (!c.slot0.valid || c.slot0.seq < c.slot1.seq) then some c.slot1
  else if c.slot0.valid then some c.slot0
  else none

/-- The values go to the slot that does not hold the newest ones. -/
def Conv.slotPut (c : Conv) (now : Nat) : Conv :=
  let seq := match c.slotNewest with | some x => x.seq + 1 | none => 0
  let x : CvSlot := ⟨true, seq, c.ph.map Phase.learned⟩
  let c1 := { c with storedAt := now }
  if c.slot0.valid && (!c.slot1.valid || c.slot1.seq < c.slot0.seq) then { c1 with slot1 := x } else { c1 with slot0 := x }

/-- Whether states or baselines differ from what Firn holds. -/
def Conv.unsaved (c : Conv) : Bool :=
  match c.slotNewest with
  | some x => c.ph.zipWith (fun p y => (p.learned.1, p.learned.2.1) != (y.1, y.2.1)) x.ph |>.any id
  | none => true

/-- S5: a changed state or baseline is written with the active times, which are also written every 10 minutes (log 194); nothing is
after a power-fail warning (R76). -/
def State.cvStore (s : State) : State :=
  if s.cv.configured && !s.pw.pfw && (s.cv.unsaved || s.cv.storedAt + 150000000 ≤ s.fr.count) then
    s.updCv fun c => c.slotPut s.fr.count
  else s

/-- What a start takes from Firn; with neither slot valid the Phases are configured anew (R257). -/
def Conv.load (c : Conv) : Conv :=
  match c.slotNewest with
  | some x => { c with
      configured := true
      ph := x.ph.map fun y => { (default : Phase) with st := y.1, rph0 := y.2.1, activeTime := y.2.2 } }
  | none => c

/-- What a Frame adds to the converter's Period figures: the Phase sums, V12_BUS times the sum of the Phase currents while
in BUCK (R350), the Frames with every Phase at its cap (R342). -/
def State.cvMeter (s : State) : State :=
  let p : ℚ := if s.cv.mode == .buck then
      s.v12Bus * ((allPh.filter fun p => s.phInUse p || s.cv.exercise == some p).map s.iPh).sum else 0
  s.updCv fun c => { c with
    sumPcv := c.sumPcv + p, capFrames := c.capFrames + bit c.atCap, ph := Vector.ofFn fun i => s.phMeter i }

end Sys2Proof.Machine
end

