-- ==== Sys2Proof/Machine/Rails.lean ====
section
/-! DEFINITION. The AUX rails, CV_SET, the converter's timed steps and readback, and test injection (files 07, 08). -/

namespace Sys2Proof.Machine

open Sys2Proof

/-! ### AUX rails (R288-R291, R303) -/

def State.auxLims (s : State) (r : Fin 4) : ℚ × ℚ × ℚ :=
  limsOf (s.axf r Fld.SSRA) (s.cvf Fld.ACCA r.val) (s.cvf Fld.JERKA r.val) s.frameMs

/-- A rail starts toward a target in 10 mV from its latched output (R281, R289, R296). -/
def State.auxStart (s : State) (r : Fin 4) (target : Nat) : State :=
  s.updAux r fun a => { s.auxLawAt r (target / 100) a with
    st := .start, target := target, ovRun := 0, uvRun := 0, inRun := 0, regRun := 0, countedAt := none }

/-- A running rail moves to a new target. -/
def State.auxAim (s : State) (r : Fin 4) (target : Nat) : State :=
  s.updAux r fun a => { a with target := target, gen := a.gen.aim (target / 100) }

def Aux.off (a : Aux) : Aux := { a with st := .off, duty := 0, countedAt := none, selC := false }
def State.auxOff (s : State) (r : Fin 4) : State := s.updAux r Aux.off

def isAuxSet (r : Fin 4) (w : Wait) : Bool := w == .auxOn r || w == .auxSlew r || w == .auxOff r

/-- A rail's runs in S1. -/
def State.auxRunsOf (s : State) (r : Fin 4) : Aux :=
  let a := s.aux[r]
  let on := auxRuns a.st
  let v := s.vAux r
  let t : ℚ := (a.target : ℚ) / 100
  let run (b : Bool) (n : Nat) : Nat := if b then n + 1 else 0
  let p := v * s.iAux r
  { a with
    ovRun := run (on && t * 11 / 10 + 1 / 2 ≤ v) a.ovRun, uvRun := run (on && v * 2 < a.gen.p && a.limNow) a.uvRun
    inRun := run (on && s.v48Zone < 24) a.inRun, regRun := run (a.st == .start && |v - t| * 50 ≤ t) a.regRun
    faultNow := false, pNow := p }

/-- What a Frame adds to the mean output power of the rails (R350), and its Period mean. -/
def State.auxMeter (s : State) : State := { s with aux := s.aux.map fun a => { a with sumP := a.sumP + a.pNow } }
def State.auxPeriod (s : State) : State := { s with aux := s.aux.map fun a => { a with pMean := a.sumP / 250, sumP := 0 } }

/-- AUX fault (R290): the Icecore record carries the code of the matching converter fault and the rail (log 35). A CV_SET that has
started the rail goes on with its counted restart (R425, log 201). -/
def State.auxFault (s : State) (r : Fin 4) (cause : Nat) : State :=
  (s.updAux r fun a => { a with
    st := .fault, duty := 0, faultNow := true, countedAt := some (s.fr.count + 25000) }).iceRecord 0x0220 (rAux r.val) 2
      (le 2 cause ++ le 2 0xFFFF ++ le 4 0)

/-- What the AUX outputs apply from the tick on (R289, R290); a freeze holds the duty reference, and no rail's EN (R45). -/
def State.auxTick (s : State) : State :=
  { s with aux := s.aux.map fun a => { a with
      enAp := auxRuns a.st, dutyAp := if s.fr.freeze then a.dutyAp else if auxRuns a.st then a.duty else 0 } }

/-- S1 of one rail: faults, regulation, G4 FAILED, which returns every rail to OFF (R289, Table 3.7). -/
def State.auxS1 (s : State) (r : Fin 4) : State :=
  let s1 := s.updAux r fun _ => s.auxRunsOf r
  let a := s1.aux[r]
  if a.st != .off && s.gen48Failed then (s1.auxOff r).cvSetsEnd (isAuxSet r) 0x12
  else if a.ovRun ≥ 2 then s1.auxFault r 3
  else if a.uvRun ≥ 250 then s1.auxFault r 4
  else if a.inRun ≥ 2 then s1.auxFault r 2
  else if a.st == .start && a.regRun ≥ 8 then (s1.updAux r fun a => { a with st := .on }).cvSetsEnd (isAuxSet r) 0
  else s1

/-- The laws of one rail (R303). -/
def State.auxLaw (s : State) (r : Fin 4) : Aux :=
  let a := s.aux[r]
  if !auxRuns a.st then a
  else
    let z := s.v48Zone
    let ref := a.gen.p
    let dffa := if z == 0 then 0 else single (ref / z)
    let ev := single (ref - (s.vAux r + s.injAt 4 r.val))
    let ec := single (s.auxIcc r - s.iAux r)
    let kpv := s.cvq Fld.AKPV r.val
    let kpc := s.cvq Fld.AKPC r.val
    let dv := single (dffa + kpv * ev + a.integV)
    let dc := single (dffa + kpc * ec + a.integC)
    let selC := if dv == dc then a.selC else decide (dc < dv)
    let dmin : ℚ := (s.cvf Fld.DMIN : ℚ) / 1000
    let dmax : ℚ := (s.cvf Fld.DMAX : ℚ) / 1000
    let d := min (max (min dv dc) dmin) dmax
    let ok := s.g4Ok[(17 : Fin 32)] && s.g4Ok[(⟨21 + r.val, by omega⟩ : Fin 32)] && s.g4Ok[(⟨25 + r.val, by omega⟩ : Fin 32)]
    let iv := if selC then single (d - dffa - kpv * ev) else single (a.integV + s.cvq Fld.AKIV r.val * ev)
    let ic := if selC then single (a.integC + s.cvq Fld.AKIC r.val * ec) else single (d - dffa - kpc * ec)
    { a with
      duty := d, selC := selC, integV := if ok then iv else a.integV, integC := if ok then ic else a.integC
      st := if a.st == .start then .start else if selC then .cc else .on }

/-- S2 of the rails. -/
def State.auxS2 (s : State) : State :=
  let s1 := { s with aux := Vector.ofFn fun r => s.auxLaw r }
  let r : Fin 4 := finOf 4 s.inj.f[(1 : Fin 12)] (by decide)
  if s.inj.f[(0 : Fin 12)] == 4 then
    { s1 with inj := { s1.inj with sigA := s.vAux r + s.injAt 4 r.val, sigB := s.vAux r } }
  else s1

/-- S3 of one rail: the generator, and the CV_SET that has arrived (R313). -/
def State.auxS3 (s : State) (r : Fin 4) : State :=
  if !auxRuns (s.aux[r]).st then s
  else
    let (g, done) := (s.aux[r]).gen.tick (s.auxLims r)
    let s1 := s.updAux r fun a => { a with gen := g }
    if done then s1.cvSetsEnd (· == .auxSlew r) 0 else s1

/-! ### CV_SET -/

/-- The checks of cmdCvSet beside the ones that every command has (R433). -/
def chkCvSet (t : Taken) (s : State) : List (Nat × Bool) :=
  let mode := t.p 16 1
  let v := t.p 18 2
  let conv := t.target == rConv
  let r := auxIx t
  let bad := if conv then mode ≥ 2
    else mode > 1 || (mode == 1 && (v < s.axf r Fld.VMIN || v > s.axf r Fld.VMAX))
  [ (0x22, bad),
    (0x10, conv && mode == 1 && (v < s.tmb.zone.buckLo || v > s.tmb.zone.buckHi)),
    (0x12, conv && mode == 0 && s.zone.hu != .normal),
    (0x12, conv && mode == 1 && s.cv.mode == .idle && (s.cv.noPhase || s.gen48Failed)),
    (0x12, !conv && s.aux[r].pdOwned) ]

def cmdCvSet (t : Taken) (s : State) : State :=
  s.guarded t (chkCvSet t s) fun s => s.await t .start

/-- Earlier CV_SETs of the rail are superseded at this tick (R441). -/
def State.supersede (s : State) (p : Wait → Bool) : State :=
  s.completeOuts (fun o => p o.wait) fun o s => s.complete o.cmd 0x30 (some s.fr.count)

/-- A converter CV_SET takes effect at the tick (R283, R643). At the tick at which BOOST turns to BUCK, or BUCK to BOOST, the new
mode decides. -/
def State.cvSetConv (s : State) (u : Taken) : State :=
  let s1 := (s.supersede fun w => w == .cvStart || w == .cvSlew || w == .cvIdle).cmdStart u
  let t := u.begun
  if t.p 16 1 == 0 then
    let s2 := s1.cvHalt
    if s2.cv.mode == .idle && s2.cv.modeNext.isNone then s2.finish t 0 (some s.fr.count) else s2.await t .cvIdle
  else
    let s2 := (s1.putBuck (t.p 18 2)).updCv fun c => { c with
      counted := if c.lockout then [] else c.counted, lockout := false
      stop := if c.stop == some 6 then none else c.stop }
    if s2.cv.law == .boost then s2.finish t 0 (some s.fr.count)
    else if s2.cv.mode == .idle then
      -- the start that it asks for takes the place of a restart that is due
      let s3 := (s2.updCv fun c => { c with countedAt := none, autoFault := none }).cvStartReq true
      if s3.cv.start.isWaiting then s3.await t .cvStart else s2.finish t 0x12 (some s.fr.count)
    else
      let s3 := s2.updCv fun c => { c with gen := c.gen.aim s2.buckV, regRun := 0 }
      match s3.cv.start with
      | .running _ => s3.await t .cvStart
      | _ => s3.await t .cvSlew

/-- An AUX CV_SET takes effect at the tick (R289). -/
def State.cvSetAux (s : State) (u : Taken) : State :=
  let r := auxIx u
  let s1 := (s.supersede (isAuxSet r)).cmdStart u
  let t := u.begun
  if t.p 16 1 == 0 then ((s1.auxOff r).updAux r fun a => { a with stopped := false }).finish t 0 (some s.fr.count)
  else
    let v := t.p 18 2
    let a := s1.aux[r]
    if a.st == .off || a.st == .fault then
      ((s1.updAux r fun a => { a with stopped := false, counted := if a.stopped then [] else a.counted }).auxStart r v).await t
        (.auxOn r)
    else if a.st == .start then (s1.auxAim r v).await t (.auxOn r)
    else (s1.auxAim r v).await t (.auxSlew r)

def State.cvSetBegin (s : State) (t : Taken) : State :=
  if t.target == rConv then s.cvSetConv t else s.cvSetAux t

/-! ### CV_READ and CE_STAT (R439, R294) -/

def State.cvData (s : State) : List Byte :=
  let c := s.cv
  le 1 (cvModeCode c.mode) ++ le 1 s.activePh.length ++
    le 1 (bit c.skip + 2 * bit c.lockout + 4 * bit c.holdEnd.isSome) ++ le 1 (c.rot % 256) ++ le 4 s.phStates ++
    (allAux.flatMap fun r => le 1 (auxCode (s.aux[r]).st)) ++ repU 2 (100 * c.gen.p) ++ repS 2 (10 * c.demand) ++
    (allPh.flatMap fun p => repU 1 (200 * s.kappa p)) ++
    (allPh.flatMap fun p => let l := (c.ph[p]).rph; if l.isEmpty then le 2 0 else repU 2 (1000000 * median l))

/-- The checks of cmdCvRead beside the ones that every command has (R433). -/
def chkCvRead (t : Taken) (s : State) : List (Nat × Bool) :=
  let sel := t.p 16 1
  [(0x22, sel > 11)]

def cmdCvRead (t : Taken) (s : State) : State :=
  let sel := t.p 16 1
  s.guarded t (chkCvRead t s) fun s =>
    match s.mustWait t.q with
    | some f => s.await t (.readAfter f)
    | none =>
      let (r, s1) := s.openResult
      s1.readDone t r (if sel == 0 then s.cvData else fitTo 128 (s.cv.faultNewest sel).bytes)

/-- CE_STAT: the RESULT is CE_CYC (log 39). -/
def cmdCeStat (t : Taken) (s : State) : State :=
  s.guarded t [] fun s =>
    match s.mustWait t.q with
    | some f => s.await t (.readAfter f)
    | none => s.complete t 0 (some s.fr.count) (le 4 s.ceCyc)

/-! ### Timed steps of the converter; without its condition a step has no effect (log 23) -/

/-- R280: a waiting start proceeds; that of step 16 or R345 only while STARTMODE is BUCK. -/
def execAutoRestart (s : State) : Host.Outcome State Fault Refusal :=
  .next (match s.cv.start with
    | .waiting own =>
      if s.live && (own || s.cvf Fld.STARTMODE == 1) && s.cv.vinRun ≥ 250 && s.cv.mode == .idle && s.cv.modeNext.isNone then
        s.cvStartReq own
      else s
    | _ => s)

/-- R274: the hold-off ends. -/
def execShedholdExpiry (s : State) : Host.Outcome State Fault Refusal :=
  .next (match s.cv.holdEnd with
    | some f => if s.live && f ≤ s.fr.count then s.updCv fun c => { c with holdEnd := none, dwell := 0 } else s
    | none => s)

/-- R276: 1,024 switching periods of the interleave reference. -/
def execInterleaveRotation (s : State) : Host.Outcome State Fault Refusal :=
  .next (if s.live && s.cv.mode != .idle && s.cv.rotNs ≥ 1024 * (s.cvf Fld.TSW : ℚ) then s.rotate else s)

/-- PROFILE_TIMEOUT (R308): no transfer; S3 ends it in its Frame, and the row one that is still open (log 141). -/
def execProfileTimeout (n : Fin 64) (s : State) : Host.Outcome State Fault Refusal :=
  .next (match s.cv.profiles.find? fun f => f.ch == n with
    | some f => if s.live && f.late s.fr.count then s.endProfile f false else s
    | none => s)

/-- The counted restart of the converter, or CV_LOCKOUT (R286). -/
def State.cvCounted (s : State) : State :=
  let due : Bool := match s.cv.countedAt with | some f => f ≤ s.fr.count | none => false
  if !due || s.cv.mode != .idle then s
  else
    let recent := s.cv.counted.filter fun f => s.fr.count < f + 15000000
    if recent.length ≥ 3 then
      (s.updCv fun c => { c with countedAt := none, lockout := true, start := .none }).postRec 0x0203 rConv
        (le 2 s.cv.lastCause)
    else (s.updCv fun c => { c with countedAt := none, counted := s.fr.count :: recent, start := .waiting true }).cvStartReq true

/-- The counted restart of a rail, or its counted stop (R290; no CV_LOCKOUT, which is the converter's, log 41), with which a CV_SET
ends that has left nothing behind (R425, log 201). -/
def State.auxCounted (s : State) (r : Fin 4) : State :=
  let a := s.aux[r]
  let due : Bool := match a.countedAt with | some f => f ≤ s.fr.count | none => false
  if !due || a.st != .fault then s
  else
    let recent := a.counted.filter fun f => s.fr.count < f + 15000000
    if recent.length ≥ 3 then 
      (s.updAux r fun a => { a with countedAt := none, stopped := true, target := 0 }).cvSetsEnd (isAuxSet r) 0x12
    else (s.updAux r fun a => { a with counted := s.fr.count :: recent }).auxStart r a.target

/-! ### Test injection (R316-R325) -/

/-- An event to the event Queues of the issuing owner (R324). -/
def State.postOwner (s : State) (code src : Nat) (o : Option (Fin 16)) (payload : List Byte) : State :=
  let e : Event := ⟨code, src, s.srcClass src, s.now32, 0, fitTo 16 payload⟩
  match allQ.filter fun q => let k := s.qs[q]; k.isEvent && k.st == .run && !k.disabling && k.owner == o with
  | [] => { s with evDropped := s.evDropped + 1 }
  | qs => overL qs (fun q s => s.eventTo e q) s

/-- At the tick: an injection that has ended returns to 0 and is reported (R324). -/
def State.injTick (s : State) : State :=
  match s.inj.ending with
  | none => s
  | some ab =>
    ({ s with inj := { s.inj with status := if ab then 3 else 2, armed := false, value := 0, ending := none } }).postOwner
      0x0B01 s.inj.res s.inj.owner (le 1 (bit ab) ++ le 1 0 ++ le 2 s.inj.recs.length)

/-- The conditions that abort a running injection, seen in S1 (R324). -/
def State.injCheck (s : State) : State :=
  let pt := s.inj.f[(0 : Fin 12)]
  let sel := s.inj.f[(1 : Fin 12)]
  let lost : Bool := s.zone.hu != .normal ||
    (if pt == 4 then (match allAux[sel]? with | some r => (s.aux[r]).st != .on | none => true)
    else s.cv.mode != .buck ||
      (pt == 3 && (match allPh[sel]? with | some p => !isActive s.cv.ph[p] | none => true)))
  if s.inj.status == 1 && lost then s.injEnd true else s

/-- The next value of the 15-bit shift register of x^15 + x^14 + 1; its output is bit 14 (log 38). -/
def lfsrNext (x : BitVec 15) : BitVec 15 := (x <<< 1) ||| (if x.getLsbD 14 != x.getLsbD 13 then 1#15 else 0#15)

/-- A Frame in which the value of a sweep point stood: a Frame of its settle time, or one of W, whose signals join the
correlations (R319, R320). -/
def Inject.account (j : Inject) : Inject :=
  if !j.fed then j
  else if j.settleLeft != 0 then { j with settleLeft := j.settleLeft - 1 }
  else if j.measLeft != 0 then
    let x := j.phase - BitVec.ofNat 32 (j.code j.k)
    let c := sineTurn (x + 0x40000000#32)
    let d := sineTurn x
    { j with measLeft := j.measLeft - 1, corA := (j.corA.1 + j.sigA * c, j.corA.2 - j.sigA * d)
             corB := (j.corB.1 + j.sigB * c, j.corB.2 - j.sigB * d) }
  else j

/-- Signal A of PHD is the duty applied, S3's change in it (Table 8.6). -/
def State.injDuty (s : State) : Option ℚ :=
  if s.inj.f[(0 : Fin 12)] == 3 then allPh[s.inj.f[(1 : Fin 12)]]?.map fun p => (s.cv.ph[p]).duty else none

/-- S3: the value added in S2 of the next Frame (R319-R321). -/
def State.injS3 (s : State) : State :=
  let j := { s.inj with sigA := s.injDuty.getD s.inj.sigA }.account
  if j.status != 1 || j.armed || j.ending.isSome then s
  else
    -- PRBS points are never fed
    let amp := (singleVal j.f[(3 : Fin 12)]).getD 0
    if j.f[(2 : Fin 12)] == 0 then
      let st := { j with
        value := single (amp * sineTurn j.phase), phase := j.phase + BitVec.ofNat 32 (j.code j.k), fed := true }
      { s with inj := st }
    else if j.bitsLeft == 0 then s.injEnd false
    else
      let v := if j.lfsr.getLsbD 14 then amp else -amp
      if j.chipLeft ≤ 1 then
        { s with inj := { j with value := v, lfsr := lfsrNext j.lfsr, chipLeft := j.f[(9 : Fin 12)] + 1
                                 bitsLeft := j.bitsLeft - 1 } }
      else { s with inj := { j with value := v, chipLeft := j.chipLeft - 1 } }

/-- R318: the START count is reached. -/
def execInjectionStart (s : State) : Host.Outcome State Fault Refusal :=
  let j := s.inj
  .next (if s.live && j.status == 1 && j.armed && j.ending.isNone && j.startAt ≤ s.fr.count then
    ({ s with inj := ({ j with
        armed := false, k := 0, restarted := false, invalid := false, clamped := false, lfsr := BitVec.allOnes 15
        chipLeft := j.f[(9 : Fin 12)] + 1, bitsLeft := 32767 * (j.f[(10 : Fin 12)] + 1) } : Inject).arm }).injS3
  else s)

/-- The reported quantity of a point: the complex ratio of B to A, negated for a loop gain (Table 8.6, R320). -/
def State.sweepRatio (s : State) : Nat × Nat :=
  let j := s.inj
  let (a, b) := (j.corA, j.corB)
  let n := a.1 * a.1 + a.2 * a.2
  if n == 0 then ((Config.sweepRe s.free).toNat, (Config.sweepIm s.free).toNat)
  else
    let sg : ℚ := if j.f[(0 : Fin 12)] == 1 || j.f[(0 : Fin 12)] == 2 then 1 else -1
    (singleBits (sg * (b.1 * a.1 + b.2 * a.2) / n), singleBits (sg * (b.2 * a.1 - b.1 * a.2) / n))

/-- The record of a sweep point (Table 8.8). -/
def State.sweepRec (s : State) : List Byte :=
  let j := s.inj
  le 2 j.k ++ le 2 (bit (!j.invalid) + 2 * bit j.restarted + 4 * bit j.clamped) ++ le 4 (j.code j.k) ++
    le 4 s.sweepRatio.1 ++ le 4 s.sweepRatio.2

/-- R320: the window of a sweep point ends; the next point starts, or the sweep ends. -/
def execSweepPointEnd (s : State) : Host.Outcome State Fault Refusal :=
  let j := s.inj
  .next (if s.live && j.status == 1 && !j.armed && j.ending.isNone && j.f[(2 : Fin 12)] == 0 && j.settleLeft == 0 &&
      j.measLeft == 0 then
    let s1 := { s with free := s.free + 1, inj := { j with recs := j.recs ++ [s.sweepRec], restarted := false
                                                           invalid := false, clamped := false } }
    if j.k ≥ j.f[(6 : Fin 12)] then s1.injEnd false else { s1 with inj := ({ s1.inj with k := j.k + 1 } : Inject).arm }
  else s)

/-- The value of an injection field that a command would leave: its record's, else the present one (R437). -/
def State.injVal (s : State) (rs : List FRec) (o : Fin 12) : Nat :=
  match rs.find? fun r => r.fld == (0x87, o.val) with
  | some r => r.val
  | none => s.inj.f[o]

/-- Amplitude beyond the limit of its point (R317). -/
def State.ampBad (s : State) (pt sel : Nat) (amp : ℚ) : Bool :=
  if pt == 2 then decide (s.cvA Fld.IPH * s.activePh.length / 5 < amp)
  else if pt == 3 then
    (match allPh[sel]? with
      | some p => decide (|(s.cv.ph[p]).target| / 20 < amp) || decide (5 < amp)
      | none => true)
  else
    let target : ℚ := if pt == 4 then (match allAux[sel]? with | some r => ((s.aux[r]).target : ℚ) / 100 | none => 0)
      else s.cv.gen.target
    decide (1 / 2 < amp) || decide (target / 20 < amp)

/-- Frames from now to the next Frame whose 32-bit count is a START; half the range or more has passed (log 175). -/
def State.framesTo (s : State) (start : Nat) : Nat := (start + 2 ^ 32 - s.fr.count % 2 ^ 32) % 2 ^ 32
def State.countPassed (s : State) (start : Nat) : Bool := s.framesTo start == 0 || 2 ^ 31 ≤ s.framesTo start

/-- The rules of the injection fields (R317, R318, Table 8.7); AMP, FSTART and FSTOP have no value before the first that is written. -/
def injRules (s : State) (rs : List FRec) : List CRule :=
  let g := s.injVal rs
  let pt := g 0
  let sel := g 1
  let selBad := if pt == 3 then sel ≥ 16 else if pt == 4 then sel ≥ 4 else sel != 0
  let fld (o : Nat) : Fld := (0x87, o)
  [ ⟨[fld 0, fld 1], 0x22, selBad⟩,
    ⟨[fld 3], 0x22, g 3 == 0⟩,
    ⟨[fld 2, fld 4, fld 5], 0x22, (g 2 == 0 && (g 4 == 0 || g 5 == 0)) || (g 4 != 0 && g 5 != 0 && g 4 > g 5)⟩,
    ⟨[fld 0, fld 1, fld 3], 0x22, s.ampBad pt sel ((singleVal (g 3)).getD 0)⟩,
    ⟨[fld 0], 0x12, pt < 4 && s.cv.mode != .buck⟩,
    ⟨[fld 0, fld 1], 0x12, pt == 3 && (match allPh[sel]? with | some p => !isActive s.cv.ph[p] | none => true)⟩,
    ⟨[fld 0, fld 1], 0x12, pt == 4 && (match allAux[sel]? with
      | some r => (s.aux[r]).st != .on || (s.aux[r]).pdOwned
      | none => true)⟩,
    ⟨[fld 11], 0x12, g 11 != 0 && s.countPassed (g 11)⟩ ]

/-- INJ_START as a configuration command (R437); the values left in force are judged whether or not a record names them. The target
of AUXV is its rail, of the other points the converter (log 42). -/
def cfgInjStart (t : Taken) (s : State) : CfgSpec :=
  { codes := [0x87], res := rConv, rules := injRules s
    whole := fun rs => ((injRules s rs).map fun r => (r.status, r.fails)) ++
      [ (0x22, t.target != (if s.injVal rs 0 == 4 then 0x110 + s.injVal rs 1 else rConv)),
        (0x12, s.inj.status == 1 || s.zone.hu != .normal) ] }

/-- INJ_START (R317, R318): it is accepted with the RESULT of R437. -/
def cmdInjStart (t : Taken) (s : State) : State :=
  let f := Vector.ofFn fun (i : Fin 12) => s.injVal (cfgRecs t) i
  let start := f[(11 : Fin 12)]
  s.cfgThen t (cfgInjStart t s) fun s =>
      let at' := if start == 0 then (s.fr.count / 250 + 1) * 250 else s.fr.count + s.framesTo start
      ({ s with inj := { (default : Inject) with
          status := 1, armed := true, f := f, startAt := at', owner := t.owner
          res := t.target } }).complete t 1 none (cfgPassed t) (evt := true)

/-- INJ_STOP (R324): the injection on the target ends at the next tick. -/
def cmdInjStop (t : Taken) (s : State) : State :=
  s.guarded t [] fun s => (if s.inj.res == t.target then s.injEnd true else s).stage t .tick []

/-- INJ_READ (R323): records are read once the injection has ended. -/
def cmdInjRead (t : Taken) (s : State) : State :=
  s.guarded t [] fun s =>
    match s.mustWait t.q with
    | some f => s.await t (.readAfter f)
    | none =>
      let recs := if s.inj.status == 1 then [] else (s.inj.recs.drop (t.p 16 2)).take (t.p 18 2)
      s.readDone t (le 1 s.inj.status ++ le 1 0 ++ le 2 s.inj.recs.length) recs.flatten

/-- The value of a CE variable (Table 8.9); of a Phase or rail that is not running, 0 (R325). -/
def State.ceVar (s : State) (c : Nat) : ℚ :=
  let v := s.cv
  let run := v.law != .idle
  let g (x : ℚ) : ℚ := if run then x else 0
  if c == 0 then g v.gen.p else if c == 1 then g v.vfb else if c == 2 then g v.err else if c == 3 then g v.integ
  else if c == 4 then g v.iff' else if c == 5 then g v.demand else if c == 6 then g v.dff
  else if c == 7 then s.inj.value else if c == 8 then s.inj.sigA else if c == 9 then s.inj.sigB
  else if c == 0x0A then g (v.gen.v / s.frameMs) else if c == 0x0B then g (v.gen.a / s.frameMs ^ 2)
  else if h : 0x10 ≤ c ∧ c < 0x20 then (v.ph[c - 0x10]'(by omega)).target
  else if h : 0x20 ≤ c ∧ c < 0x30 then (v.ph[c - 0x20]'(by omega)).duty
  else if h : 0x30 ≤ c ∧ c < 0x34 then
    let a := s.aux[c - 0x30]'(by omega)
    if auxRuns a.st then a.gen.p else 0
  else if h : 0x34 ≤ c ∧ c < 0x38 then (s.aux[c - 0x34]'(by omega)).duty
  else 0

/-- After S3, one word of each CE-variable stream (R325), with the injected value that S2 of the Frame has used. -/
def State.feedCe (s : State) (used : ℚ) : State :=
  let s0 : State := { s with inj := { s.inj with value := used } }
  s.fireRecord.feedStreams fun c => if c.src == 3 then [singleBits (s0.ceVar c.item)] else []

/-! ### Meanings -/

def execCvSet (q : Fin 32) (d : CmdArgs) (s : State) : Host.Outcome State Fault Refusal :=
  .next (s.rowCmd cmdCvSet 0x0201 q d)
def execCvRead (q : Fin 32) (d : CmdArgs) (s : State) : Host.Outcome State Fault Refusal :=
  .next (s.rowCmd cmdCvRead 0x0205 q d)
def execInjStart (q : Fin 32) (d : CmdArgs) (s : State) : Host.Outcome State Fault Refusal :=
  .next (s.rowCmd cmdInjStart 0x0B01 q d)
def execInjStop (q : Fin 32) (d : CmdArgs) (s : State) : Host.Outcome State Fault Refusal :=
  .next (s.rowCmd cmdInjStop 0x0B02 q d)
def execInjRead (q : Fin 32) (d : CmdArgs) (s : State) : Host.Outcome State Fault Refusal :=
  .next (s.rowCmd cmdInjRead 0x0B03 q d)
def execCeStat (q : Fin 32) (d : CmdArgs) (s : State) : Host.Outcome State Fault Refusal :=
  .next (s.rowCmd cmdCeStat 0x0B04 q d)

end Sys2Proof.Machine
end

