-- ==== Sys2Proof/Machine/Admit.lean ====
section
/-! DEFINITION. The stagger scheduler: the admission queue in S1 of each Frame (R31, R32, R36, R66-R74, R148, R278). -/

namespace Sys2Proof.Machine

open Sys2Proof

/-- Rank of an entry: those that a reset puts at the head (R82), then Class, then Channel number (R67). -/
def State.admRank (s : State) (e : AdmEntry) : Nat :=
  (if e.src == .resetHead then 0 else clsCode (s.chClass e.ch)) * 64 + e.ch.val

/-- The entries in the order in which they are examined. -/
def State.admOrder (s : State) : List AdmEntry :=
  (List.range 256).flatMap fun k => s.adm.filter fun e => s.admRank e == k

/-- Ramps in progress in a Bank, a parallel set counting once. -/
def State.rampsIn (s : State) (b : Fin 4) : Nat :=
  (allCh.filter fun n => State.bank n == b && (s.ch[n]).st == .ramp && !s.isFollower n).length

/-- THROTTLE and SHUTDOWN (Table 18.3). -/
def State.throttled (s : State) : Bool := s.th.level ≥ 2

/-- R208: automatic retries that wait while the capping restore list holds a Channel of their Class or above. -/
def State.capWaits (s : State) (cl : Cls) : Bool :=
  let holds (k : Cls) : Bool := s.zone.restore.any fun r => s.chClass r.ch == k
  match cl with
  | .a => false
  | .b => holds .b
  | .c => holds .b || holds .c

/-- Whether R541 holds the first start after a protection off of a member. -/
def State.retryHeld (s : State) (n : Fin 64) : Bool :=
  (s.members n).any fun m =>
    let t := (s.ch[m]).tmb
    t.offAt.isSome && !t.counted && (s.tooSoon m || s.rateFull m)

/-- The holds that do not hold back later entries (R70). -/
def State.heldAlone (s : State) (e : AdmEntry) (banks : List (Fin 4)) : Bool :=
  let n := e.ch
  let b := State.bank n
  let cl := s.chClass n
  let lim := s.znf Fld.L b.val + 1
  (cl != .a && (s.throttled || (s.hinge.st != .solo && s.hinge.st != .active))) || (cl == .c && s.th.derated[b]) ||
    (s.zone.hardHold && !(s.ch[n]).tmb.classA) || (e.src == .autoRetry && s.capWaits cl) || !s.restartOk n || s.retryHeld n ||
    banks.contains b || s.rampsIn b ≥ (if cl == .a then lim + 1 else lim) || !s.bankPowered b ||
    (s.members n).any (fun m => (s.grp[chGroup m]).health ≥ 3)

/-- R278, R279: the ACTIVE count that a ramp calls for and whether the converter can supply it; none where no Phase is
requested. -/
def State.phasesFor (s : State) (n : Fin 64) (peak : ℚ) : Option (Nat × Bool) :=
  if s.cv.mode == .buck && !s.pump.domain48[State.bank n] then
    let iout := (allPh.map s.iPh).sum
    let raw := (Rat.floor ((iout + peak) / s.cvA Fld.IADD)).toNat + 1
    let top := min s.workingSet s.tmb.zone.nphMax
    some (min top raw, raw ≤ top)
  else none

/-- ACTIVE Phases without JOINING (R259). -/
def State.readyPh (s : State) : Nat := (s.activePh.filter fun p => (s.cv.ph[p]).join.isNone).length

/-- One Channel starts its ramp: time zero is the next tick, the reference slews at SR, and each member of a set clamps at its
share of ILIM (R148, R149, R168, R542). NRAMP stays at its largest value (R171, log 188). -/
def State.startRamp (s : State) (n : Fin 64) (tag : Word) : State :=
  (s.enter n .ramp .admitted (2 ^ causeCode .admitted) 0 tag).updCh n fun c => { c with
    t0 := s.fr.count + 1, refStart := min c.vP (s.vsup n), latch := false, offAt := none, sink := .none
    slope := (s.lf n Fld.SR : ℚ) / 10, clamp := (s.lf n Fld.ILIM : ℚ) / 100 / (s.setSize n : ℚ)
    nramp := min 4294967295 (c.nramp + 1), gateNext := .ramp, arc := { c.arc with points := [], seen := [] }
    energy := 0, charge := 0, peak := 0, vHist := [], run98 := 0 }

/-- The profile record of an entry as the mailbox holds it. -/
def State.entryRec (s : State) (e : AdmEntry) : ProfRec := e.profile.getD (s.profileRec e.ch)

/-- An entry is admitted: every member of its set ramps, the budget is debited, its CH_ON completes (R72, R147); its profile record
is marked as admitted (Table 8.4). -/
def State.admitRamp (s : State) (e : AdmEntry) : State :=
  let n := e.ch
  let s1 := { s with adm := s.adm.filter fun x => x.ch != n }
  let s2 := overL (s1.members n) (fun m s => s.startRamp m e.tag) s1
  let s3 := { s2 with zone := { s2.zone with budget := s2.zone.budget - (s.qOf n : ℚ) } }
  let s4 := if e.src == .manualRetry then s3.updCh n fun c => { c with k := 0 } else s3
  (s4.updCv fun c => { c with posted := c.posted ++ [{ s.entryRec e with admitted := true }] }).completeOuts (isAdmWait n)
    fun o s => s.complete o.cmd 1 (some s.fr.count) (evt := true)

/-- What the scheduler carries from entry to entry: the Banks in which it has admitted, whether an entry holds back the
rest. -/
structure AdmWalk where
  st : State
  banks : List (Fin 4)
  blocked : Bool

/-- Only Class A ramps are newly admitted: hold-up lasts, or S1 of this Frame has declared it (R36, Table 1.9). -/
def State.huFrozen (s : State) : Bool :=
  s.zone.hu != .normal || (match s.zone.huNext with | some (d, _) => d != .normal | none => false)

/-- One entry (R68-R71). Its Phase request lasts until it is admitted or leaves the queue (R278); in BOOST none is held, and the
converter cannot supply a ramp on its output side (R279). -/
def AdmWalk.examine (w : AdmWalk) (e : AdmEntry) : AdmWalk :=
  let s := w.st
  let n := e.ch
  let cl := s.chClass n
  if w.blocked || !(s.waiting n) || (s.huFrozen && cl != .a) then w
  else
    let ph := s.phasesFor n (s.entryRec e).amps
    let mute := s.cv.mode == .boost && s.pump.domain48[State.bank n]
    let want : Nat := match ph with | some (k, _) => k | none => 0
    let req : Bool := decide (want > s.activePh.length)
    let s0 := if req then s.updCv fun v => { v with addNext := some (max want (v.addNext.getD 0)) } else s
    let mark (x : AdmEntry) : AdmEntry := if x.ch == n then { x with phReq := ph.isSome && (req || x.phReq) } else x
    let s1 := { s0 with adm := s0.adm.map mark }
    let phOk : Bool := match ph with | some (k, ok) => ok && k ≤ s.readyPh | none => !mute
    let hold := cl != .a && (!phOk || e.profile.isNone || s.zone.budget < (s.qOf n : ℚ))
    if hold then { w with st := s1, blocked := true }
    else if s.heldAlone e w.banks || w.banks.length ≥ 4 then { w with st := s1 }
    else { st := s1.admitRamp e, banks := State.bank n :: w.banks, blocked := false }

/-- The admission step of S1, once admission is open; none while the actuators are frozen (log 24). -/
def State.admission (s : State) : State :=
  if !s.pw.admOpen || s.fr.freeze then s
  else (s.admOrder.foldl AdmWalk.examine ⟨s, [], false⟩).st

/-- A mailbox page of the CE. -/
def State.mailPage (s : State) (p : Bool) : CePage := if p then s.mail[(1 : Fin 2)] else s.mail[(0 : Fin 2)]

/-- S5 of a Frame: the predicted profile of every entry that waits is in the command area of the page not in use, as it stands in
this Frame, beside the setpoint (R17, R148; log 161). -/
def State.profilesPosted (s : State) : State :=
  let recs := s.adm.map fun e => s.profileRec e.ch
  { s with
    adm := s.adm.map fun e => { e with profile := some (s.profileRec e.ch) }
    mail := s.mail.set (if s.fr.page then 0 else 1) { s.mailPage (!s.fr.page) with recs := recs, target := s.buckCode }
      (by split <;> decide) }

end Sys2Proof.Machine
end

