-- ==== Sys2Proof/Machine/Battery.lean ====
section
/-! DEFINITION. The buffer battery estimator: charge counting, anchors, uncertainty, learned values, usable energy, storage
and BAT_READ (file 10). -/

namespace Sys2Proof.Machine

open Sys2Proof

def State.updBat (s : State) (f : Bat → Bat) : State := { s with bat := f s.bat }

/-! ### Open-circuit voltage (R365) -/

/-- Table 10.3: SoC in percent and voltage in 10 mV, LFP 4S and NMC 3S. -/
def ocvTable (chem : Nat) : List (Nat × Nat) :=
  [0, 5, 10, 20, 30, 40, 50, 60, 70, 80, 90, 95, 100].zip
    (if chem == 0 then [1000, 1240, 1280, 1300, 1310, 1314, 1316, 1320, 1326, 1330, 1334, 1340, 1360]
     else [960, 1020, 1050, 1080, 1098, 1110, 1122, 1140, 1158, 1176, 1200, 1218, 1245])

/-- A straight part of the table: SoC from s0 to s1, voltage from v0 to v1 in V. -/
structure OcvSeg where
  s0 : ℚ
  s1 : ℚ
  v0 : ℚ
  v1 : ℚ
deriving DecidableEq, Repr

def ocvSegs (chem : Nat) : List OcvSeg :=
  let t := ocvTable chem
  (t.zip (t.drop 1)).map fun (a, b) => ⟨a.1, b.1, (a.2 : ℚ) / 100, (b.2 : ℚ) / 100⟩

def OcvSeg.at (g : OcvSeg) (s : ℚ) : ℚ := g.v0 + (s - g.s0) * (g.v1 - g.v0) / (g.s1 - g.s0)

/-- Open-circuit voltage at an SoC. -/
def ocv (chem : Nat) (s : ℚ) : ℚ :=
  match (ocvSegs chem).find? fun g => s ≤ g.s1 with
  | some g => g.at (max s g.s0)
  | none => match (ocvSegs chem).getLast? with | some g => g.v1 | none => 0

/-- SoC of an open-circuit voltage; beyond the table its end. -/
def ocvInv (chem : Nat) (v : ℚ) : ℚ :=
  match (ocvSegs chem).find? fun g => v ≤ g.v1 with
  | some g => if v ≤ g.v0 then g.s0 else g.s0 + (v - g.v0) * (g.s1 - g.s0) / (g.v1 - g.v0)
  | none => 100

/-- Whether the slope at an SoC is at least 10 mV per percent; at a point of the table, that of the part below it (log 164). -/
def ocvSteep (chem : Nat) (s : ℚ) : Bool :=
  match (ocvSegs chem).find? fun g => s ≤ g.s1 with
  | some g => (g.v1 - g.v0) * 100 ≥ g.s1 - g.s0
  | none => true

/-- Integral of the open-circuit voltage less a drop, over SoC as a fraction. -/
def ocvArea (chem : Nat) (lo hi drop : ℚ) : ℚ :=
  ((ocvSegs chem).map fun g =>
    let a := max lo g.s0
    let b := min hi g.s1
    if a < b then (b - a) / 100 * ((g.at a + g.at b) / 2 - drop) else 0).sum

/-! ### Quantities -/

def State.edlc (s : State) : Bool := s.znf Fld.CHEM == 2
/-- QNOM in A s and CNOM in F. -/
def State.qNom (s : State) : ℚ := (s.znf Fld.QNOM : ℚ) * 360
def State.cNom (s : State) : ℚ := (s.znf Fld.CNOM : ℚ) / 10
def State.iRest (s : State) : ℚ := (s.znf Fld.IREST : ℚ) / 100
def State.vbStop (s : State) : ℚ := (s.znf Fld.VBSTOP : ℚ) / 10
/-- HUEFF of Table 9.1. -/
def State.huEff (s : State) : ℚ := (800 + s.znf Fld.HUEFF : ℚ) / 1000

/-- Battery temperature, none while unknown (R360). -/
def State.tBatt (s : State) : Option ℚ :=
  let v := s.znf Fld.BTSRC
  if v == 63 then some ((s.chf 0 Fld.AMBFIX : ℚ) - 40) else s.tempSrc v

/-- Load of a set in the last Period. -/
def State.setLoad (s : State) (n : Fin 64) : ℚ := ((s.members n).map fun m => (s.ch[m]).pload).sum

/-- pa of R371: Class A load drawn from the buffer in BOOST. -/
def State.paLoad (s : State) : ℚ :=
  ((allCh.filter fun n => s.chClass n == .a && ((s.ch[n]).st == .on || (s.ch[n]).st == .held)).map fun n =>
    if s.pump.domain48[State.bank n] then (s.ch[n]).pload / s.huEff else (s.ch[n]).pload).sum

/-- STATUS of Table 10.6. -/
def State.batStatus (s : State) : Nat :=
  let b := s.bat
  bit b.unconf + 2 * bit b.uncertain + 4 * bit b.relearn + 8 * bit b.corr + 16 * bit b.openCkt + 32 * bit s.edlc

def State.socBytes (s : State) : List Byte := if s.edlc then [0xFF, 0xFF] else repU 2 (100 * s.bat.pubSoc)
def State.uBytes (s : State) : List Byte := if s.edlc then [0xFF, 0xFF] else repU 2 (100 * s.bat.u)

/-- BAT_STATE, with its record. -/
def State.batState (s : State) : State :=
  s.postRec 0x0401 rZone (le 1 s.batStatus ++ le 1 s.bat.conf ++ s.socBytes ++ s.uBytes)

/-! ### Storage (R375, R376) -/

/-- The learned capacity of a code: 1 mAh, and 1 mF of an EDLC (Table 10.5). -/
def qUnit (chem : Nat) : ℚ := if chem == 2 then 1 / 1000 else 36 / 10

/-- A quantity as an unsigned code of n bytes. -/
def codeOf (n : Nat) (x : ℚ) : Nat := satU n (rnd x)

/-- A slot holds the values in the units of Table 10.5. -/
def State.batSlot (s : State) (seq : Nat) : BatSlot :=
  let b := s.bat
  let chem := s.znf Fld.CHEM
  { valid := true, seq := seq, chem := chem, unconf := b.unconf, relearn := b.relearn, capLearned := b.capLearned
    resLearned := b.resLearned, uncertain := b.uncertain, corr := b.corr, soc := codeOf 2 (100 * b.soc)
    u := codeOf 2 (100 * b.u), q := codeOf 4 (b.q / qUnit chem), uq := codeOf 2 (100 * b.uq), rl := codeOf 4 (1000000 * b.rl)
    rtemp := match b.rtemp with | some t => satS 2 (rnd (64 * t)) | none => 0x8000,
    thruD := codeOf 4 (b.thruD / 3600), thruC := codeOf 4 (b.thruC / 3600)
    conf := b.conf, span := codeOf 2 (100 * b.span), tAnchor := min (2 ^ 32 - 1) (b.tAnchor / 1000) }

/-- The 128 bytes of a slot (Table 10.5). -/
def BatSlot.bytes (x : BatSlot) : List Byte :=
  let flags := bit x.unconf + 2 * bit x.relearn + 4 * bit x.capLearned + 8 * bit x.resLearned + 16 * bit x.uncertain +
    32 * bit x.corr
  let body := le 4 x.seq ++ le 2 Config.formatVersion.toNat ++ le 1 x.chem ++ le 1 flags ++ le 2 x.soc ++ le 2 x.u ++ le 4 x.q ++
    le 2 x.uq ++ le 4 x.rl ++ le 2 x.rtemp ++ le 4 x.thruD ++ le 4 x.thruC ++
    le 1 x.conf ++ le 1 0 ++ le 2 x.span ++ le 4 x.tAnchor ++ List.replicate 84 0
  body ++ le 4 (crc32c body).toNat

/-- The slot written last: slot 1 where it is valid and newer. -/
def Bat.newer1 (b : Bat) : Bool := b.slot1.valid && (!b.slot0.valid || b.slot0.seq < b.slot1.seq)

/-- A slot is written, alternately, with the next sequence (Table 10.4). -/
def State.batStore (s : State) : State :=
  let b := s.bat
  let seq := (if b.newer1 then b.slot1.seq else if b.slot0.valid then b.slot0.seq else 0) + 1
  if !b.started then s
  else if b.newer1 || !b.slot0.valid then s.updBat fun b => { b with slot0 := s.batSlot seq }
  else s.updBat fun b => { b with slot1 := s.batSlot seq }

/-- A write of the battery values, never after a power-fail warning but by its own write (R76). -/
def State.batWrite (s : State) : State := if s.pw.pfw then s else s.batStore

/-- A temperature code in 1/64 °C, 0x8000 unknown. -/
def temp64 (w : Nat) : Option ℚ :=
  if w == 0x8000 then none else some ((if w < 0x8000 then (w : ℚ) else (w : ℚ) - 65536) / 64)

/-- Values of a slot with the additions of R374, and the floor of R375 after a torn newer slot. -/
def Bat.load (b : Bat) (x : BatSlot) (torn : Bool) : Bat :=
  -- what CONF says of the progress since the swap: the anchor, and resistance values that have replaced RLRN (R378, log 199)
  let rest : ℚ := (x.conf : ℚ) - 50 * min 1 ((x.span : ℚ) / 4000) - (if x.resLearned then 25 else 0)
  let u : ℚ := (x.u : ℚ) / 100
  let soc : ℚ := (x.soc : ℚ) / 100
  { b with
    started := true, chem := x.chem, soc := soc, u := min 50 ((if torn then max u 15 else u) + 5), q := x.q * qUnit x.chem
    uq := (x.uq : ℚ) / 100, rl := (x.rl : ℚ) / 1000000, rtemp := temp64 x.rtemp
    unconf := true, relearn := x.relearn, capLearned := x.capLearned, resLearned := x.resLearned
    uncertain := x.uncertain, corr := x.corr, pubSoc := soc, thruD := 3600 * (x.thruD : ℚ), thruC := 3600 * (x.thruC : ℚ)
    resNew := if x.relearn && x.resLearned then 16 else 0, anchored := x.relearn && decide (24 ≤ rest)
    conf := x.conf, span := (x.span : ℚ) / 100, spanLo := soc, spanHi := soc, tAnchor := 1000 * x.tAnchor }

/-- The newer slot, where it fails its CRC and the older one is valid (R375). -/
def Bat.tornSlot (b : Bat) : Option Bool :=
  if b.slot0.valid && !b.slot1.valid && b.slot0.seq < b.slot1.seq then some true
  else if b.slot1.valid && !b.slot0.valid && b.slot1.seq < b.slot0.seq then some false
  else none

/-- The estimator at a start (R374): the newer valid slot, or none. -/
def State.batStart (s : State) : State :=
  let torn := s.bat.tornSlot
  let b0 : Bat := { (default : Bat) with slot0 := s.bat.slot0, slot1 := s.bat.slot1, pubEuse := 0, torn := torn }
  let s1 := match torn with
    | some k => s.iceRecord 0x0422 rZone 1 (le 1 (bit k))
    | none => s
  if b0.slot0.valid || b0.slot1.valid then
    { s1 with bat := b0.load (if b0.newer1 then b0.slot1 else b0.slot0) torn.isSome }
  else
    ({ s1 with bat := { b0 with
      chem := s.znf Fld.CHEM, u := 20, q := if s.edlc then s.cNom else s.qNom, uq := if s.edlc then 20 else 30
      unconf := true } }).iceRecord 0x0421 rZone 1 []

/-! ### Each latch -/

/-- One latch of VBATT and IBATT (R359, R364, R370, R377). -/
def State.batLatch (s : State) : State :=
  let vOk := s.g4Ok[(19 : Fin 32)]
  let iOk := s.g4Ok[(20 : Fin 32)]
  let b0 := s.bat
  let v := s.vBatt
  let i := s.iBatt
  let seenV := b0.seenV || vOk
  let seenI := b0.seenI || iOk
  let b1 := { b0 with seenV := seenV, seenI := seenI }
  -- no valid slot: SoC is that of the first latched VBATT
  let b2 := if !b1.started && vOk then
      let soc := ocvInv b1.chem v
      { b1 with started := true, soc := soc, pubSoc := soc, spanLo := soc, spanHi := soc }
    else b1
  -- the latches of an input before its first valid one are not counted (R359)
  let lostNow : Bool := (seenV && !vOk) || (seenI && !iOk)
  let b3 := { b2 with
    sumI := if seenI then b2.sumI + i else b2.sumI, nLatch := b2.nLatch + bit seenI
    sumV := if seenV then b2.sumV + v else b2.sumV, nV := b2.nV + bit seenV
    badQ := if lostNow then b2.badQ + s.g4Fs 20 * (4 / 1000000) else b2.badQ }
  if !seenV || !seenI then { s with bat := b3 }
  else
    let itaper : ℚ := (s.znf Fld.ITAPER : ℚ) / 10
    let rest : Bool := decide (|i| < s.iRest)
    let full : Bool := decide ((1000 + s.znf Fld.VFULL : ℚ) / 100 ≤ v) && decide (-itaper ≤ i) && decide (i ≤ 0)
    let openNow : Bool := decide (v < 4) && decide (8 ≤ s.v12Bus)
    { s with bat := { b3 with
      sumVI := b3.sumVI + v * i
      restRun := if rest then b2.restRun + 1 else 0, restDone := b2.restDone && rest
      fullRun := if full then b2.fullRun + 1 else 0, fullDone := b2.fullDone && full
      hist := ((i, v) :: b2.hist).take 11, openRun := if openNow then b2.openRun + 1 else 0
      openCkt := b2.openCkt && decide (v < 4) } }

/-! ### Swap and resistance -/

/-- A battery swap, inferred or declared (R377). -/
def State.batSwapNow (s : State) : State :=
  ((s.updBat fun b => { b with
    relearn := true, unconf := true, u := max b.u 10, uq := max b.uq 30, resVals := [], resNew := 0, resLearned := false
    span := 0, spanLo := b.soc, spanHi := b.soc, lastAnchor := none, charge := 0, chargeDirty := false, anchored := false
    capWin := 0, capQ := 0, capN := 0, conf := 0 }).batState).batWrite

/-- An accepted resistance value (R370, R377, R378). -/
def State.resValue (s : State) (r : ℚ) : State :=
  let b := s.bat
  let l := (r :: b.resVals).take 16
  let t := s.tBatt
  let s1 := s.updBat fun b => { b with resVals := l, resNew := b.resNew + 1 }
  if l.length < 16 then s1
  else
    let m := median l
    let near : Bool := match t, b.rtemp with
      | some x, some y => decide (|x - y| ≤ 10)
      | _, _ => false
    if b.resLearned && near && |m - b.rl| * 100 > (s.znf Fld.RSWAP : ℚ) * b.rl then s1.batSwapNow
    else s1.updBat fun b => { b with rl := m, rtemp := t, resLearned := true }

/-- A current step within 10 Frames (R370); the latches before it take part in no further step (log 47). -/
def State.batStep (s : State) : State :=
  let b := s.bat
  let lim : ℚ := max 5 ((s.znf Fld.QNOM : ℚ) / 100)
  match b.hist with
  | [] => s
  | (i, v) :: rest =>
    match rest.find? fun x => decide (lim ≤ |i - x.1|) with
    | none => s
    | some x =>
      let s1 := s.updBat fun b => { b with hist := [(i, v)] }
      let r := -((v - x.2) / (i - x.1))
      if 5 / 10000 ≤ r && r ≤ 2 / 10 then s1.resValue r else s1

/-- Open circuit of R377. -/
def State.batOpen (s : State) : State :=
  if s.bat.openRun ≥ 25 && !s.bat.openCkt then (s.updBat fun b => { b with openCkt := true }).batSwapNow else s

/-- What the estimator does with a Frame's latch. -/
def State.batFrame (s : State) : State := s.batLatch.batStep.batOpen

/-! ### Each Period -/

/-- An anchor (R364, R369). kind 0 rest, 1 full charge. -/
def State.batAnchor (s : State) (kind : Nat) (soc u : ℚ) : State :=
  let b := s.bat
  let q2 := match b.lastAnchor with
    | some a =>
      if |soc - a| ≥ 40 && !b.chargeDirty then
        let q := |b.charge| / (|soc - a| / 100)
        some (b.q + max (-(b.q / 20)) (min (b.q / 20) ((q - b.q) / 4)))
      else none
    | none => none
  let s1 := s.updBat fun b => { b with
    soc := soc, u := u, unconf := false, corr := false, anchored := true, tAnchor := 0, lastAnchor := some soc, charge := 0
    chargeDirty := false, q := q2.getD b.q, uq := if q2.isSome then 3 else b.uq, capLearned := b.capLearned || q2.isSome
    restDone := b.restDone || kind == 0, fullDone := b.fullDone || kind == 1 }
  let s2 := s1.iceRecord 0x0420 rZone 0 (le 1 kind ++ le 1 0 ++ repU 2 (100 * soc))
  if kind == 1 then s2.batWrite else s2

/-- Counting and uncertainty of a Period (R361, R366); the SoC in percent moves by the charge over QLRN. -/
def State.batCount (s : State) : State :=
  let b := s.bat
  let dq := b.sumI * (4 / 1000000)
  let n : ℚ := b.nLatch
  let meanI := if b.nLatch == 0 then b.meanI else b.sumI / n
  let meanV := if b.nV == 0 then b.meanV else b.sumV / (b.nV : ℚ)
  let q := if b.q == 0 then 1 else b.q
  let soc1 := max 0 (min 100 (b.soc - dq / q * 100))
  let du := ((s.znf Fld.BIOFS : ℚ) / 100 + (s.znf Fld.BIGAIN : ℚ) / 1000 * |meanI|) / 1000 / q * 100 + b.badQ / q * 100
  s.updBat fun b => { b with
    soc := soc1, u := min 50 (b.u + du), meanI := meanI, meanV := meanV, charge := b.charge + dq
    -- R363: in a discharge Period the published SoC falls by counting alone
    pubSoc := if s.iRest < meanI then max 0 (min b.pubSoc (b.pubSoc - dq / q * 100)) else b.pubSoc
    chargeDirty := b.chargeDirty || b.badQ != 0, thruD := if dq > 0 then b.thruD + dq else b.thruD
    thruC := if dq < 0 then b.thruC - dq else b.thruC, tAnchor := b.tAnchor + 1
    sumI := 0, sumV := 0, sumVI := 0, nLatch := 0, nV := 0, badQ := 0 }

/-- Voltage correction (R368), in the Period in which STATE_UNCERTAIN is set too. -/
def State.batCorrect (s : State) : State :=
  let b := s.bat
  let quiet : Bool := decide (|b.meanI| ≤ s.iRest)
  let warm : Bool := match s.tBatt with | some t => decide (0 ≤ t) | none => false
  if b.corr && !quiet && b.resLearned && warm then
    let socv := ocvInv b.chem (b.meanV + b.meanI * b.rl)
    let ufl : ℚ := if ocvSteep b.chem socv then 3 else 6
    s.updBat fun b => { b with
      soc := b.soc + (socv - b.soc) / 60000, u := ufl + (b.u - ufl) * (1 - 1 / 60000) }
  else s

/-- The published SoC of the Period, which a correction does not raise in a discharge Period (R363), and the span covered since the
swap (R378). -/
def State.batPublish (s : State) : State :=
  s.updBat fun b => { b with
    pubSoc := if s.iRest < b.meanI then min b.pubSoc b.soc else b.soc
    spanLo := min b.spanLo b.soc, spanHi := max b.spanHi b.soc
    span := max b.span (max b.spanHi b.soc - min b.spanLo b.soc) }

/-- The anchors whose condition is first met in the Period (R364). -/
def State.batAnchors (s : State) : State :=
  let b := s.bat
  let rest := b.restRun ≥ s.znf Fld.TREST * 15000000 && !b.restDone
  let s1 := if rest then
      let soc := ocvInv b.chem b.meanV
      (s.batAnchor 0 soc (if ocvSteep b.chem soc then 3 / 2 else 5)).updBat fun b => { b with pubSoc := b.soc }
    else s
  if s1.bat.fullRun ≥ 15000000 && !s1.bat.fullDone then
    (s1.batAnchor 1 100 1).updBat fun b => { b with pubSoc := b.soc }
  else s1

/-- STATE_UNCERTAIN (R367, R368). -/
def State.batFlag (s : State) : State :=
  let b := s.bat
  if !b.uncertain && b.u > 8 then (s.updBat fun b => { b with uncertain := true, corr := true }).batState
  else if b.uncertain && b.u ≤ 7 then (s.updBat fun b => { b with uncertain := false }).batState
  else s

/-- The capacitance of an EDLC, learned over windows; the latest value stands (R373, log 44). -/
def State.batCap (s : State) (dq : ℚ) : State :=
  let b := s.bat
  let cq := b.capQ + dq
  let dv := b.capV0 - b.meanV
  if b.capWin == 0 then s.updBat fun b => { b with capWin := 1, capV0 := b.meanV, capQ := 0 }
  else if |dv| * 10 ≥ 1 then
    let c := cq / dv
    if c ≤ 0 then s.updBat fun b => { b with capWin := 0, capQ := 0 }
    else s.updBat fun b => { b with q := c, capN := b.capN + 1, capLearned := true, capWin := 0, capQ := 0
                                    uq := if b.capN + 1 ≥ 8 then 5 else b.uq }
  else if b.capWin + 1 ≥ 1000 then s.updBat fun b => { b with capWin := 0, capQ := 0 }
  else s.updBat fun b => { b with capWin := b.capWin + 1, capQ := cq }

/-- EUSE_LO of R371 and R373. -/
def State.euseLo (s : State) : ℚ :=
  let b := s.bat
  let ia : ℚ := if b.meanV ≤ 0 then 0 else s.paLoad / b.meanV
  let drop := ia * b.rl
  if b.openCkt && s.zone.hu != .normal then 0
  else if s.edlc then
    let vmin := s.vbStop + drop
    max 0 (b.q * (1 - b.uq / 100) * (b.meanV * b.meanV - vmin * vmin) / 2)
  else
    let lo := b.pubSoc - b.u
    let stp := ocvInv b.chem (s.vbStop + drop)
    if lo ≤ stp || ocv b.chem 100 < s.vbStop + drop then 0 else b.q * (1 - b.uq / 100) * ocvArea b.chem stp lo drop

/-- EUSE_LO published, and TA (R371, R372). -/
def State.batEnergy (s : State) : State :=
  let e := s.euseLo
  let dis : Bool := decide (s.iRest < s.bat.meanI)
  let gone : Bool := s.bat.openCkt && s.zone.hu != .normal
  let p := if dis && s.bat.pubAny && !gone then min s.bat.pubEuse e else e
  let pa := s.paLoad
  { (s.updBat fun b => { b with pubEuse := p, pubAny := true }) with
    zone := { s.zone with ta := if gone then some 0 else if pa ≤ 0 then none else some (p / pa) } }

/-- Confidence while RELEARN is set; at 100 % it clears (R378), and CONF keeps its last value (log 165). -/
def State.batConf (s : State) : State :=
  let b := s.bat
  if !b.relearn then s
  else
    let c := 25 * min 1 ((b.resNew : ℚ) / 16) + 50 * min 1 (b.span / 40) + if b.anchored then 25 else 0
    if c ≥ 100 then (s.updBat fun b => { b with conf := 100, relearn := false }).batWrite
    else s.updBat fun b => { b with conf := (rnd c).toNat }

/-- A declared swap, and a change of CHEM between battery and EDLC, which starts from the nominal value (log 48). -/
def State.batDeclared (s : State) : State :=
  let chem := s.znf Fld.CHEM
  let turn : Bool := (s.bat.chem == 2) != (chem == 2)
  let s1 := if s.bat.started then s.updBat fun b => { b with
      chem := chem, q := if turn then (if chem == 2 then s.cNom else s.qNom) else b.q
      uq := if turn then (if chem == 2 then 20 else 30) else b.uq
      uncertain := b.uncertain && chem != 2, corr := b.corr && chem != 2 } else s
  if s1.bat.swapPend then (s1.updBat fun b => { b with swapPend := false }).batSwapNow else s1

/-- The estimator's work in a Period (R359): counting, the anchors, the flag, the correction, what follows from them. -/
def State.batWork (s : State) : State :=
  let s0 := s.batDeclared
  let dq := s0.bat.sumI * (4 / 1000000)
  let vi := s0.bat.sumVI
  let n := s0.bat.nLatch
  let s1 := { s0 with zone := { s0.zone with pbatt := if n == 0 then s0.zone.pbatt else vi / n } }
  if !s1.bat.started then s1
  else
    let s2 := s1.batCount
    let s3 := if s2.edlc then s2.batCap dq else s2.batAnchors.batFlag.batCorrect.batFlag.batPublish
    let s4 := s3.batEnergy.batConf
    if s4.bat.periods + 1 ≥ 600000 && s4.inRun then (s4.updBat fun b => { b with periods := 0 }).batWrite
    else s4.updBat fun b => { b with periods := if s4.inRun then b.periods + 1 else b.periods }

/-! ### BAT_READ (Table 10.6): before the first Period of a start, the quantities as they stand (log 165) -/

/-- A time in s as u16, 0xFFFF where it is unlimited or at or above 65,535 s. -/
def timeBytes (t : Option ℚ) : List Byte := match t with | some x => repU 2 x | none => [0xFF, 0xFF]

def State.batData (s : State) : List Byte :=
  let b := s.bat
  let cap : ℚ := if s.edlc then b.q * 1000 else b.q / 36 * 10
  le 1 s.batStatus ++ le 1 0 ++ s.socBytes ++ s.uBytes ++ le 2 0 ++ repU 4 cap ++ repU 2 (100 * b.uq) ++ le 2 0 ++
    repU 4 (1000000 * b.rl) ++ repU 4 b.pubEuse ++ timeBytes s.zone.ta ++ repS 2 (100 * b.meanV) ++ repS 4 (1000 * b.meanI) ++
    tempBytes s.tBatt ++ le 1 b.conf ++ le 1 0 ++ le 4 (min (2 ^ 32 - 1) (b.tAnchor / 1000))

/-- The Period's work, and the readback as it leaves it (R359, R379). -/
def State.batPeriod (s : State) : State :=
  let s1 := s.batWork
  s1.updBat fun b => { b with read := s1.batData }

def cmdBatRead (t : Taken) (s : State) : State :=
  s.guarded t [] fun s =>
    match s.mustWait t.q with
    | some f => s.await t (.readAfter f)
    | none =>
      let (r, s1) := s.openResult
      s1.readDone t r (if s.bat.read.isEmpty then s.batData else s.bat.read)

def execBatRead (q : Fin 32) (d : CmdArgs) (s : State) : Host.Outcome State Fault Refusal :=
  .next (s.rowCmd cmdBatRead 0x0402 q d)

end Sys2Proof.Machine
end

