-- ==== Sys2Proof/Machine/Zone.lean ====
section
/-! DEFINITION. Zone energy: loss detection and the hold-up states, Cornice, staged shedding, the return to the backbone,
capping, the Tumbler hard cap, and the zone commands (file 09). -/

namespace Sys2Proof.Machine

open Sys2Proof

def State.updZone (s : State) (f : Zone → Zone) : State := { s with zone := f s.zone }

/-! ### Quantities -/

def State.vRet (s : State) : ℚ := (s.znf Fld.VRET : ℚ) / 10
def State.vLoss (s : State) : ℚ := (s.znf Fld.VLOSS : ℚ) / 10
def State.vRev (s : State) : ℚ := (s.znf Fld.VREV : ℚ) / 10

/-- Cornice group of a Channel: that of the shed-order entry of its set, else 0 (R337). -/
def State.cGroup (s : State) (n : Fin 64) : Nat :=
  match s.zone.order.find? fun w => w.toNat / 2 ^ 26 == (s.leader n).val with
  | some w => w.toNat / 2 ^ 24 % 4
  | none => 0

/-- Whether the lead of a Channel's group has run by a Frame (R338). -/
def State.leadRun (s : State) (n : Fin 64) (at' : Nat) : Bool :=
  s.zone.cornAt + 250 * s.znf Fld.LEAD (s.cGroup n) ≤ at'

/-- The sets of one Class in shed order: listed ones in list order, then the others from the highest number (R348). -/
def State.shedClass (s : State) (k : Cls) : List (Fin 64) :=
  let ok (n : Fin 64) : Bool := s.chClass n == k && !s.isFollower n
  let listed := (s.zone.order.map fun w => finOf 64 (w.toNat / 2 ^ 26) (by decide)).filter ok
  listed ++ (allCh.reverse.filter fun n => ok n && !listed.contains n)

def State.shedOrderOf (s : State) : List (Fin 64) := s.shedClass .c ++ s.shedClass .b

/-- Prefixes of a list, the shortest first. -/
def startsOf {α : Type} (l : List α) : List (List α) := (List.range (l.length + 1)).map l.take

/-! ### Transitions (R333-R337, R346) -/

/-- Channels that hold-up staging switched off join the restore list at NORMAL. -/
def State.restoreHeld (s : State) : State :=
  let ns := allCh.filter fun n => !s.isFollower n && (s.ch[n]).st == .off && (s.ch[n]).cause == .holdupShed
  s.updZone fun z => { z with
    restore := z.restore ++ (ns.filter fun n => !(z.restore.any fun r => r.ch == n)).map fun n => (⟨n, false⟩ : RestEnt) }

/-- The hold-up state changes: event and record, a Cornice message due, the decisions of the other regime dropped. The latches of
HURET are those of the state that it leads out of (log 162). -/
def State.huEnter (s : State) (dst : HuState) (cause : Nat) : State :=
  let was := s.zone.hu
  let s1 := s.updZone fun z => { z with
    hu := dst, huCause := cause, cornMsg := true, vbRun := 0, retRun := 0, retOk := 0,
    retStep := if dst == .ret then 1 else 0
    testEnd := if dst == .holdup then z.testEnd else none
    shedAt125 := if was == .normal || dst == .normal then [] else z.shedAt125
    capNote := if was == .normal || dst == .normal then false else z.capNote
    restoreAt125 := if was == .normal then [] else z.restoreAt125
    shortPosted := z.shortPosted && was != .normal }
  let s2 := s1.postRec 0x0301 rZone (le 1 (huCode dst) ++ le 1 cause ++ timeBytes s.zone.ta)
  let s3 := if was == .normal then s2.fireWhere fun c => c.trig == 3 else s2
  if dst == .normal then
    (s3.completeOuts (fun o => o.wait == .huTest) fun o s => s.finish o.cmd 0 (some s.fr.count)).restoreHeld
  else s3

/-- A transition decided in a Frame that takes effect at the next tick. -/
def State.huPlan (s : State) (dst : HuState) (cause : Nat) (iso : Option Bool) : State :=
  let leave := s.zone.hu == .normal
  s.updZone fun z => { z with
    huNext := some (dst, cause), isoNext := iso <|> z.isoNext
    cornNext := if leave then some true else if dst == .normal then some false else z.cornNext }

/-- The converter of a chip in SPENT is IDLE, as after a CV_SET of mode IDLE; one that is IDLE already is left alone (R335). -/
def State.huIdle (s : State) : State := if s.cv.mode == .idle && s.cv.modeNext.isNone then s else s.cvHalt

/-- A return to the backbone that is complete, or that ends with the start's outcome (R344, R345). -/
def State.huReturned (s : State) : State := s.huPlan .normal 0 none

/-- What takes effect at a tick: the state, the switch, the Cornice outputs; the start of a test (R336). -/
def State.zoneTick (s : State) : State :=
  let z := s.zone
  let iso := z.isoNext.getD z.iso
  let corn := z.cornNext.getD z.corn
  let s1 := s.updZone fun z => { z with
    huNext := none, isoNext := none, cornNext := none, iso := iso, corn := corn
    isoClosedAt := if iso && !z.iso then s.fr.count else z.isoClosedAt
    cornAt := if corn && !z.corn then s.fr.count else z.cornAt }
  match z.huNext with
  | none => s1
  | some (dst, cause) =>
    let s2 := s1.huEnter dst cause
    if dst == .holdup && cause == 3 then
      match s2.zone.testPending with
      | some d =>
        let s3 := s2.updZone fun z => { z with testPending := none, testEnd := some (s.fr.count + 250000 * d) }
        s3.startOuts fun o => o.wait == .huTest
      | none => s2
    else s2

/-- The converter start of R345 at the tick that closes the switch. -/
def State.zoneStart (s : State) : State :=
  let z := s.zone
  if s.drives && z.hu == .ret && z.retSpent && z.iso && z.isoClosedAt == s.fr.count && z.retStep == 1 then
    let s1 := s.updZone fun z => { z with retStep := 2 }
    if s.cvf Fld.STARTMODE == 1 then s1.cvStartReq false
    else (s1.updZone fun z => { z with corn := false }).huEnter .normal 0
  else s

/-! ### S1: detection (R327-R329, R334, R336) -/

/-- Mean of 20 raw 14-bit words of an 80 V input. -/
def mean80 (sum : Int) : ℚ := (sum : ℚ) / 20 / 8192 * 80

/-- Loss in NORMAL and RETURN: its cause code. A FAILED G4 gives no words, and none is declared (log 163). -/
def State.lossCause (s : State) (sumIn sumZone : Int) : Option Nat :=
  if s.gen48Failed then none
  else if mean80 sumIn < s.vLoss then some 1
  else if s.zone.iso && mean80 sumIn < mean80 sumZone - s.vRev then some 2
  else none

/-- The converter mode that Table 9.3 looks at: the mirrored one while the start of a takeover runs (R510). -/
def State.modeCounted (s : State) : CvMode := s.hinge.cvAs.getD (if s.cv.modeNext == some .idle then .idle else s.cv.mode)

/-- Loss declared in NORMAL (Table 9.3). -/
def State.lossNormal (s : State) (cause : Nat) : State :=
  if s.znf Fld.HUEN == 1 && s.modeCounted == .buck then (s.huPlan .holdup cause (some false)).cvTurn .boost
  else (s.huPlan .spent (if s.znf Fld.HUEN == 1 then 5 else 4) (some false)).huIdle

/-- Loss declared in RETURN. -/
def State.lossReturn (s : State) (cause : Nat) : State :=
  if s.cv.law == .boost then
    (s.huPlan .holdup cause (some false)).updCv fun c => { c with gen := c.gen.aim s.hvSet }
  else if s.modeCounted == .boost then (s.huPlan .holdup cause (some false)).cvTurn .boost
  else (s.huPlan .spent 5 (some false)).huIdle

/-- A test that cannot be declared ends refused. -/
def State.testRefused (s : State) : State :=
  if s.zone.testPending.isSome then
    (s.updZone fun z => { z with testPending := none }).completeOuts (fun o => o.wait == .huTest)
      fun o s => s.finish o.cmd 0x12 (some s.fr.count)
  else s

/-- The first latch of V48_IN of a start (R327). -/
def State.zoneFirst (s : State) : State × Bool :=
  if !s.g4Ok[(16 : Fin 32)] then (s, false)
  else
    let s1 := s.updZone fun z => { z with first := false }
    if s.vRet ≤ s.v48In then (s1.updZone fun z => { z with isoNext := some true, cornNext := some false }, false)
    else (s1.lossNormal 1, true)

/-- The detector at the start of S1; whether loss is declared. -/
def State.zoneDetect (s : State) (sumIn sumZone : Int) : State × Bool :=
  let z := s.zone
  if !s.drives || s.hinge.st == .handing then (s, false)
  else if z.first then s.zoneFirst
  else
    match z.hu with
    | .normal =>
      match s.lossCause sumIn sumZone with
      | some c => (s.testRefused.lossNormal c, true)
      | none =>
        if z.testPending.isSome then
          if s.znf Fld.HUEN == 1 && s.modeCounted == .buck then (s.lossNormal 3, true) else (s.testRefused, false)
        else (s, false)
    | .ret =>
      match s.lossCause sumIn sumZone with
      | some c => (s.lossReturn c, true)
      | none => (s, false)
    | _ => (s, false)

/-- The steps of Table 9.5. -/
def State.returnStep (s : State) : State :=
  let z := s.zone
  let run (b : Bool) : State := s.updZone fun z => { z with retOk := if b then z.retOk + 1 else 0 }
  if z.hu != .ret || z.retSpent || z.huNext.isSome then s
  else if z.retStep == 1 then
    let s1 := (run (decide (s.v48Zone ≤ s.v48In - 1) && decide (z.retAt < s.fr.count))).updCv
      fun c => { c with gen := c.gen.aim (s.v48In - 2) }
    if s1.zone.retOk ≥ 2 then s1.updZone fun z => { z with retStep := 2, retOk := 0, isoNext := some true } else s1
  else if z.retStep == 2 then
    let s1 := (run (z.iso && decide (z.isoClosedAt < s.fr.count) && decide (|s.v48Zone - s.v48In| ≤ 1 / 2))).updCv
      fun c => { c with gen := c.gen.aim (s.v48In - 2) }
    if s1.zone.retOk ≥ 2 then (s1.updZone fun z => { z with retStep := 3, retOk := 0 }).cvTurn .buck else s1
  else
    let t := s.buckV
    let s1 := run (s.cv.mode == .buck && decide (|s.v12Bus - t| * 50 ≤ t))
    if s1.zone.retOk ≥ 8 then s1.huReturned else s1

/-- S1 after the converter: the runs, depletion, a converter fault in HOLDUP, the return sequence. Hold-up is run by the chip that
drives (R336, R511). -/
def State.zoneS1 (s : State) : State :=
  let z := s.zone
  let s1 := s.updZone fun z => { z with
    retRun := if s.vRet ≤ s.v48In then min 2500000 (z.retRun + 1) else 0
    vbRun := if z.hu == .holdup && decide (s.v12Bus < s.vbStop) then z.vbRun + 1 else 0 }
  if !s.drives then s1
  else if z.hu == .holdup && z.huNext.isNone then
    if s1.cv.faultNow.isSome then (s1.huPlan .spent 7 none).huIdle
    else if s1.zone.vbRun ≥ 25 then (s1.huPlan .spent 6 none).huIdle
    else s1
  else s1.returnStep

/-! ### The Period (R339-R343, R350-R357) -/

/-- PLOAD of a set as the buffer sees it (R341). -/
def State.loadPred (s : State) (n : Fin 64) : ℚ :=
  if s.pump.domain48[State.bank n] && s.cv.mode == .boost then s.setLoad n / s.huEff else s.setLoad n

/-- Predicted time with some sets shed, in s; none where it is unlimited. -/
def State.timeWith (s : State) (l : List (Fin 64)) : Option ℚ :=
  let p := s.zone.pbatt - (l.map s.loadPred).sum
  if p ≤ 0 then none else some (s.bat.pubEuse / p)

def State.reaches (s : State) (t : Option ℚ) : Bool :=
  match t with
  | some x => decide ((s.znf Fld.HUTGT : ℚ) ≤ x)
  | none => true

/-- The staging step of a Period (R340-R343), for the tick of Frame 125. -/
def State.stageStep (s : State) : State :=
  if s.zone.hu != .holdup && s.zone.hu != .spent then s.updZone fun z => { z with tz := s.timeWith [] }
  else
    let ok (n : Fin 64) : Bool := (s.ch[n]).st == .on && s.leadRun n (s.fr.count + 125)
    let cs := (s.shedClass .c).filter ok
    let bs := (s.shedClass .b).filter ok
    let pre := match (startsOf bs).find? fun l => s.reaches (s.timeWith (cs ++ l)) with
      | some l => l
      | none => bs
    let extra := if s.cv.capFrames > 125 then
        match bs.find? fun n => s.pump.domain48[State.bank n] && !pre.contains n with
        | some n => [n]
        | none => []
      else []
    let out := cs ++ pre ++ extra
    let s1 := s.updZone fun z => { z with shedAt125 := out.map fun n => (n, .holdupShed), tz := s.timeWith out }
    if !s.reaches s.zone.ta && !s.zone.shortPosted then
      (s1.updZone fun z => { z with shortPosted := true }).postOnly 0x0302 rZone (le 2 0 ++ timeBytes s.zone.ta)
    else s1

/-- CAP in W, and CAP × (1 - CAPHYST). -/
def State.capW (s : State) : ℚ := 10 * (s.znf Fld.CAP : ℚ)
def State.capLow (s : State) : ℚ := s.capW * (1 - (s.znf Fld.CAPHYST : ℚ) / 100)

/-- Restore order (R352): Class B first, and in a Class the last shed first; sheds of one tick were in shed order. -/
def State.restoreOrder (s : State) : List (Fin 64) :=
  let pos (n : Fin 64) : Nat := s.shedOrderOf.findIdx (· == n)
  let later (a b : Fin 64) : Bool :=
    let x := clsCode (s.chClass a)
    let y := clsCode (s.chClass b)
    if x != y then x < y
    else if (s.ch[a]).lastTr != (s.ch[b]).lastTr then (s.ch[a]).lastTr > (s.ch[b]).lastTr
    else pos a ≥ pos b
  ((s.zone.restore.filter fun r => !r.queued).map (·.ch)).mergeSort later

/-- Entries whose PRED fits under a level, up to the first that does not. -/
def State.takeFit (s : State) (level : ℚ) : ℚ → List (Fin 64) → List (Fin 64)
  | _, [] => []
  | acc, n :: r => if level < acc + s.pred n then [] else n :: s.takeFit level (acc + s.pred n) r

/-- The capping step of a Period (R351, R352), for the tick of Frame 125. While hold-up is active it only counts: the Periods at or
below the restore level, and PZ at or below CAP again (R351, R352, R354). -/
def State.capStep (s : State) : State :=
  let cap := s.capW
  let pz := s.zone.pz
  let low := if decide (pz ≤ s.capLow) then s.zone.capRun + 1 else 0
  if s.zone.hu != .normal then
    s.updZone fun z => { z with capRun := low, capOver := z.capOver && s.znf Fld.CAP != 0 && decide (cap < pz) }
  else
    if s.znf Fld.CAP != 0 && cap < pz then
      let ns := s.shedOrderOf.filter fun n => (s.ch[n]).st == .on
      let fits (l : List (Fin 64)) : Bool := decide (pz - cap ≤ (l.map s.setLoad).sum)
      let s1 := s.updZone fun z => { z with capRun := 0 }
      match (startsOf ns).find? fits with
      | some l => s1.updZone fun z => { z with shedAt125 := l.map fun n => (n, .capShed) }
      | none => s1.updZone fun z => { z with shedAt125 := ns.map fun n => (n, .capShed), capNote := !z.capOver }
    else
      let off := s.znf Fld.CAP == 0
      let run := low
      let s1 := s.updZone fun z => { z with capOver := false, capRun := run }
      if off || run ≥ s.znf Fld.CAPDWELL then
        let ns := s.restoreOrder.take (s.znf Fld.NREST + 1)
        let out := if off then ns else s.takeFit s.capLow pz ns
        s1.updZone fun z => { z with restoreAt125 := out, capRun := if out.isEmpty then run else 0 }
      else s1

/-- Sheds at the tick of Frame 125 as off causes (R340, R351). -/
def State.shedRaises (s : State) : List Raise :=
  if s.fr.count % 250 != 125 || s.fr.freeze then []
  else s.zone.shedAt125.flatMap fun (n, c) => if (s.ch[n]).st == .on then s.offSet n c else []

/-- CAP_OVER where the step sheds all that it may and that is too little (R351). -/
def State.capNoted (s : State) : State :=
  if s.zone.capNote && !s.fr.freeze then
    (s.updZone fun z => { z with capOver := true, capNote := false }).postOnly 0x0303 rZone
      (repU 4 s.zone.pz ++ le 2 (s.znf Fld.CAP))
  else s.updZone fun z => { z with capNote := false }

/-- The sheds are counted and the decided restores enter the admission queue, at the tick of Frame 125. -/
def State.zone125 (s : State) : State :=
  if s.fr.count % 250 != 125 then s
  else
    let live := if s.fr.freeze then [] else s.zone.shedAt125.filter fun x => (s.ch[x.1]).st == .on
    let nh := (live.filter fun x => x.2 == .holdupShed).length
    let rs := s.zone.restoreAt125.filter fun n => (s.ch[n]).st == .off && s.zone.restore.any fun r => r.ch == n
    let s1 := s.updZone fun z => { z with
      shedAt125 := [], restoreAt125 := [], nHu := min 65535 (z.nHu + nh)
      nCap := min 65535 (z.nCap + (live.length - nh))
      restore := z.restore.map fun r => if rs.contains r.ch then { r with queued := true } else r }
    overL rs (fun n s => s.admAdd ⟨n, .restore, s.fr.count, false, none, 0⟩) s1.capNoted

/-- PZ of R350 and R355: the pcv of Frames outside BUCK is 0 already in its sum. -/
def State.zonePower (s : State) : State :=
  let p := ((allCh.filter fun n => s.pump.domain48[State.bank n]).map fun n => (s.ch[n]).pload).sum + s.cv.pcv +
    ((List.finRange 4).map fun (r : Fin 4) => s.aux[r].pMean).sum
  s.updZone fun z => { z with pz := p, pzt := p }

/-- The Tumbler hard cap at the tick that ends a Period (R338, R355, R356). -/
def State.hardCap (s : State) : State :=
  let above : Bool := decide (10 * (s.tmb.zone.hCap : ℚ) < s.zone.pzt)
  let n := if above then min 255 (s.zone.hcover + 1) else 0
  let s1 := s.updZone fun z => { z with hcover := n }
  let held : Bool := s.zone.corn && decide (s.fr.count < s.zone.cornAt + 1250)
  if n ≥ 4 && !held then
    match allCh.reverse.find? fun m => (s.ch[m]).st == .on && !(s.ch[m]).tmb.classA with
    | some m =>
      let s2 := (s1.updZone fun z => { z with nHard := min 65535 (z.nHard + 1) }).resolve (s1.offSet m .capShed 1)
      s2.iceRecord 0x0320 m.val 1 (le 4 0 ++ repU 4 s.zone.pzt)
    | none => s1
  else s1

/-- Class A load power of the last Period. -/
def State.classALoad (s : State) : ℚ :=
  ((allCh.filter fun n => s.chClass n == .a && ((s.ch[n]).st == .on || (s.ch[n]).st == .held)).map
    fun n => (s.ch[n]).pload).sum

/-- Lead remaining of a group in ms: the configured lead while the outputs are released (R357). -/
def State.leadLeft (s : State) (g : Nat) : ℚ :=
  let lead := s.znf Fld.LEAD g
  if s.zone.corn then (((250 * lead - (s.fr.count - s.zone.cornAt) : Nat) : ℚ)) / 250 else lead

/-- Bytes 4-31 of the Cornice payload (Table 9.4). -/
def State.cornBody (s : State) : List Byte :=
  let z := s.zone
  le 1 (huCode z.hu) ++ le 1 (if z.corn then 15 else 0) ++ le 2 z.huCause ++
    le 4 (if z.corn then z.cornAt % 2 ^ 32 else 0xFFFFFFFF) ++ timeBytes z.ta ++ timeBytes z.tz ++ s.socBytes ++
    repS 2 (100 * s.v48In) ++ repS 2 (100 * s.v12Bus) ++ repU 2 s.classALoad ++
    ((List.range 4).flatMap fun g => repU 2 (s.leadLeft g))

/-- The payload of the Period, and the Cornice message where one is due (R339, R357). -/
def State.cornPeriod (s : State) : State :=
  let z := s.zone
  let active := z.hu != .normal
  let due := s.drives && (z.cornMsg || (active && z.cornCount + 1 ≥ s.znf Fld.CBPER))
  let seq := if due then (z.cornSeq + 1) % 2 ^ 32 else z.cornSeq
  let pl := le 4 seq ++ s.cornBody
  let s1 := s.updZone fun z => { z with
    payload := pl, cornSeq := seq, cornMsg := false, cornCount := if due || !active then 0 else z.cornCount + 1 }
  if due then s1.sendMsg .a 4 0x3FF 0xFF 0 pl else s1

/-- The zone's part of the Period work, after the estimator and the meters. The message carries the TZ of the last staging
step (log 49). -/
def State.zonePeriod (s : State) : State :=
  let s1 := s.zonePower
  if s1.drives then s1.hardCap.cornPeriod.stageStep.capStep else s1.cornPeriod

/-! ### Steps with conditions of their own (log 23) -/

/-- RETURN is entered from HOLDUP or SPENT. -/
def State.enterReturn (s : State) : State :=
  let spent := s.zone.hu == .spent
  let s1 := s.huEnter .ret 0
  s1.updZone fun z => { z with retAt := s.fr.count, retSpent := spent, isoNext := if spent then some true else z.isoNext }

/-- R334: V48_IN has held VRET for HURET in HOLDUP outside a test, or in SPENT. -/
def execHoldupReturn (s : State) : Host.Outcome State Fault Refusal :=
  let z := s.zone
  .next (if s.live && s.drives && z.huNext.isNone && ((z.hu == .holdup && z.testEnd.isNone) || z.hu == .spent) &&
      z.retRun ≥ 250 * s.znf Fld.HURET then s.enterReturn else s)

/-- R336: the duration of a test ends. -/
def execHuTestEnd (s : State) : Host.Outcome State Fault Refusal :=
  let z := s.zone
  let due : Bool := match z.testEnd with | some f => f ≤ s.fr.count | none => false
  .next (if s.live && s.drives && z.huNext.isNone && z.hu == .holdup && due then s.enterReturn else s)

/-- R344: the sequence is not complete 25,000 Frames after RETURN was entered. -/
def execReturnTimeout (s : State) : Host.Outcome State Fault Refusal :=
  let z := s.zone
  .next (if s.live && s.drives && z.hu == .ret && !z.retSpent && z.huNext.isNone && z.retAt + 25000 ≤ s.fr.count then
    let s1 := (s.huEnter .holdup 8).updZone fun z => { z with isoNext := some false }
    if s1.cv.law == .boost then s1.updCv fun c => { c with gen := c.gen.aim s1.hvSet }
    else if s1.cv.mode != .idle then s1.cvTurn .boost else s1
  else s)

/-- R345: the start still waits 25,000 Frames after the switch closed. -/
def execSpentStartTimeout (s : State) : Host.Outcome State Fault Refusal :=
  let z := s.zone
  let running : Bool := match s.cv.start with | .running _ => true | _ => false
  .next (if s.live && s.drives && z.hu == .ret && z.retSpent && z.huNext.isNone && z.retStep == 2 && !running &&
      z.isoClosedAt + 25000 ≤ s.fr.count then s.huReturned else s)

/-! ### SHED_ORDER, ZONE_READ and HU_TEST -/

def parseWords : Nat → List Byte → List Nat
  | 0, _ => []
  | n + 1, b => getLe b 0 4 :: parseWords n (b.drop 4)

/-- The checks of cmdShedOrder beside the ones that every command has (R433). Entry bytes beyond the count
must be 0 (log 149). -/
def chkShedOrder (t : Taken) (s : State) : List (Nat × Bool) :=
  let n := t.p 16 2
  let es := parseWords n (if t.hasArea then t.body else t.d.param.drop 8)
  let chs := es.map fun w => w / 2 ^ 26
  let area := t.d.dlen.toNat - (if t.hasCred then 64 else 0)
  [ (0x22, n == 0 || n > 64 || (if t.hasArea then area < 4 * n || !paramClear [(16, 2)] t
      else n > 10 || !paramClear [(16, 2), (24, 4 * n)] t)),
    (0x22, !chs.Nodup || es.any (fun w => w / 2 ^ 16 % 256 != 0) ||
      chs.any fun c => s.isFollower (finOf 64 c (by decide))),
    (0x12, s.huActive) ]

/-- SHED_ORDER (R347, Table 12.7): up to 10 entries inline, else in the area. -/
def cmdShedOrder (t : Taken) (s : State) : State :=
  let n := t.p 16 2
  let es := parseWords n (if t.hasArea then t.body else t.d.param.drop 8)
  s.guarded t (chkShedOrder t s) fun s => s.stage t .period (es.zipIdx.map fun (w, i) => (⟨kOrder, rZone, 0, i⟩, w))

/-- Table 9.8 and the payload of the last Period. -/
def State.zoneData (s : State) : List Byte :=
  let z := s.zone
  le 1 (huCode z.hu + 4 * bit z.iso) ++ le 3 0 ++ repU 4 s.bat.pubEuse ++ repS 4 z.pbatt ++ repU 4 z.pz ++ repU 4 z.pzt ++
    le 2 (s.znf Fld.CAP) ++ le 2 s.tmb.zone.hCap ++ le 1 z.hcover ++ le 1 (min 255 z.restore.length) ++ le 2 z.nHu ++
    le 2 z.nCap ++ le 2 z.nHard ++ fitTo 32 z.payload

def cmdZoneRead (t : Taken) (s : State) : State :=
  s.guarded t [] fun s =>
    match s.mustWait t.q with
    | some f => s.await t (.readAfter f)
    | none =>
      let (r, s1) := s.openResult
      s1.readDone t r s.zoneData

/-- The checks of cmdHuTest beside the ones that every command has (R433). -/
def chkHuTest (t : Taken) (s : State) : List (Nat × Bool) :=
  let d := t.p 16 2
  [ (0x22, d == 0 || d > 60),
    (0x12, s.huActive || s.znf Fld.HUEN != 1 || s.cv.mode != .buck || s.zone.testPending.isSome ||
      s.outs.any fun o => o.cmd.op == 0x0305 && !o.wait.isDone) ]

/-- HU_TEST (R336). -/
def cmdHuTest (t : Taken) (s : State) : State :=
  s.guarded t (chkHuTest t s) fun s => s.await t .start

/-- The first Frame after a HU_TEST was executed: it is declared in this Frame's S1. -/
def State.huTestBegin (s : State) (t : Taken) : State :=
  (s.updZone fun z => { z with testPending := some (t.p 16 2) }).await t .huTest

def execShedOrder (q : Fin 32) (d : CmdArgs) (s : State) : Host.Outcome State Fault Refusal :=
  .next (s.rowCmd cmdShedOrder 0x0303 q d)
def execZoneRead (q : Fin 32) (d : CmdArgs) (s : State) : Host.Outcome State Fault Refusal :=
  .next (s.rowCmd cmdZoneRead 0x0304 q d)
def execHuTest (q : Fin 32) (d : CmdArgs) (s : State) : Host.Outcome State Fault Refusal :=
  .next (s.rowCmd cmdHuTest 0x0305 q d)

end Sys2Proof.Machine
end

