-- ==== Sys2Proof/Machine/Icecore.lean ====
section
/-! DEFINITION. Icecore: flush and clear, the start of the recorder, ICE_READ, ICE_FLUSH and ICE_CLEAR (file 16). Records
are opened and folded in Ops. -/

namespace Sys2Proof.Machine

open Sys2Proof

def State.updIce (s : State) (f : Ice → Ice) : State := { s with ice := f s.ice }

/-- A record in its ring slot, which loses what it held (R529). -/
def ringPut (ring : List IceRec) (r : IceRec) : List IceRec :=
  (ring.filter fun x => x.seq % 32768 != r.seq % 32768) ++ [r]

/-- The repeats that wait are written to the newest ring record (R527). -/
def foldLast (l : List IceRec) (n : Nat) : List IceRec :=
  match l.getLast? with
  | some r => l.dropLast ++ [{ r with rep := r.rep + n }]
  | none => l

/-- The buffered records are in the ring. -/
def Ice.commit (i : Ice) : Ice :=
  { i with ring := i.buf.foldl ringPut (foldLast i.ring i.foldPend), buf := [], foldPend := 0, flushing := false
           flushDue := false }

/-- The end of a flush: the GAP record of what found the buffer full, and CMD_DONE of the ICE_FLUSH commands that it covers (R528,
R530). -/
def State.iceFlushed (s : State) : State :=
  let cmds := s.ice.flushCmds
  overL cmds (fun t s => s.cmdDone t 0) (s.updIce fun i => { i.commit with flushCmds := [] }).iceGap

/-- A flush starts at the tick after a fault-class record entered the buffer; the capture trigger of such a record has fired for
its Frame, and fires here for one that this tick made (R127, R529). After the flush of a power-fail warning none starts until the warning clears (R531). -/
def State.iceTick (s : State) : State :=
  if s.ice.flushDue then
    s.fireRecord.updIce fun i => { i with flushDue := false, flushing := i.flushing || !s.pw.pfw }
  else s

/-- Records of issue order at or before a sequence. -/
def seqUpTo (head x : Nat) : Bool := (head + 2 ^ 32 - x) % 2 ^ 32 < 2 ^ 31

/-- Severity of an occurrence that the keep-alive domain held. -/
def keptSev (code : Nat) (payload : List Byte) : Nat :=
  if code == 0x0723 || code == 0x0C01 then 0 else if code == 0x0D01 then 2 else if code / 256 == 0x0F then 2 else eventSev code payload

/-- START and the records of the keep-alive domain, at each start (R522, R523, R526). A clear that a reset cut off is
resumed: the records it bounds are gone (R535). -/
def State.iceStart (s : State) : State :=
  let i := s.ice
  let after : Nat := match (i.ring.filter fun r => !i.torn.contains r.seq).getLast? with | some r => (r.seq + 1) % 2 ^ 32 | none => 0
  let next := if seqUpTo i.rsv after then i.rsv else after
  let skip := (next + 2 ^ 32 - after) % 2 ^ 32
  let ring := match i.clearedHead with
    | some h => i.ring.filter fun r => !seqUpTo h r.seq
    | none => i.ring
  let s1 := s.updIce fun i => { i with
    next := next, issued := i.issued + skip, buf := [], ring := ring, foldPend := 0, lost := 0, lostPend := 0
    flushing := false, flushDue := false, flushCmds := [], clearing := none, kept := [], keptLost := 0 }
  let boot := le 1 s.pw.cause ++ le 1 (bit s.upd.booted) ++ le 1 s.pw.wakeSrc ++ le 1 0 ++ le 4 s.pw.starts ++
    le 4 (if skip == 0 then 0 else after) ++ le 4 skip
  let s2 := s1.iceRecord 0x0001 rDevice 0 boot
  let s3 := overL i.kept (fun k s => s.iceRecord k.1 k.2.1 (keptSev k.1 k.2.2) k.2.2) s2
  if i.keptLost == 0 then s3 else s3.iceRecord 0x0003 rDevice 1 (le 4 i.keptLost)

/-- The flush ends (R529); a clear holds the flush back unless a power-fail warning stands (R534, R535). The battery values
follow the flush of a warning (R76, R376). -/
def execIceFlushDone (s : State) : Host.Outcome State Fault Refusal :=
  .next (
    if s.live && s.ice.flushing && (s.ice.clearing.isNone || s.pw.pfw) then
      when s.pw.batDue (fun s => { s.batStore with pw := { s.pw with batDue := false } }) s.iceFlushed
    else s)

/-- The clear has removed every record up to its HEAD (R534). -/
def execIceClearDone (s : State) : Host.Outcome State Fault Refusal :=
  .next (match s.ice.clearing with
    | some (t, h) =>
      if s.live && !s.pw.pfw then
        (s.updIce fun i => { i with clearing := none, ring := i.ring.filter fun r => !seqUpTo h r.seq }).cmdDone t 0
      else s
    | none => s)

/-! ### Commands -/

/-- The record of a sequence as a read returns it (R532): a slot without a readable record of that sequence gives CODE
0. -/
def State.iceLook (s : State) (seq : Nat) : IceRec :=
  let i := s.ice
  match i.buf.find? fun r => r.seq == seq with
  | some r => r
  | none =>
    match (foldLast i.ring i.foldPend).find? fun r => r.seq == seq with
    | some r => if i.torn.contains seq then ⟨seq, 0, 0, 0, 0, []⟩ else r
    | none => ⟨seq, 0, 0, 0, 0, []⟩

/-- The sequences that a read returns (R532). -/
def State.iceRange (s : State) (first count : Nat) : List Nat :=
  let head := s.iceSeq
  let old := s.ice.oldest
  let beyond : Bool := first != head && (first + 2 ^ 32 - head) % 2 ^ 32 < 2 ^ 31
  let d := (head + 2 ^ 32 - first) % 2 ^ 32
  let dOld := (head + 2 ^ 32 - old) % 2 ^ 32
  let back := min d dOld
  if beyond then [] else (List.range (min count (back + 1))).map fun k => (head + 2 ^ 32 - back + k) % 2 ^ 32

/-- The checks of cmdIceRead beside the ones that every command has (R433). -/
def chkIceRead (t : Taken) (s : State) : List (Nat × Bool) :=
  let n := t.p 20 2
  [(0x22, n == 0 || n > 256)]

def cmdIceRead (t : Taken) (s : State) : State :=
  let n := t.p 20 2
  s.guarded t (chkIceRead t s) fun s =>
    s.complete t 0 (some s.fr.count) (le 4 s.ice.oldest ++ le 4 s.iceSeq)
      ((s.iceRange (t.p 16 4) n).flatMap fun k => (s.iceLook k).bytes)

def cmdIceFlush (t : Taken) (s : State) : State :=
  s.guarded t [] fun s =>
    (s.complete t 1 none (evt := true)).updIce fun i => { i with flushing := i.flushing || !s.pw.pfw, flushCmds := i.flushCmds ++ [t] }

/-- Whether the clear token verifies apart from its HEAD (R445). -/
def State.tokenOk (s : State) (b : List Byte) : Bool :=
  getLe b 0 2 == 2 && getLe b 8 8 == Config.devId.toNat &&
    (match s.otp.pkclr with
      | some k => Config.ecdsaVerifies k (b.take 64) ((b.drop 64).take 96)
      | none => false)

/-- A verified clear: the CLEARED record is in the ring, and the removal runs (R534). -/
def State.iceClearStart (s : State) (t : Taken) : State :=
  let head := s.iceSeq
  let old := s.ice.oldest
  let o : Nat := match t.owner with | some o => o.val | none => 0xFF
  let s1 := (s.updIce fun i => { i with buf := [], foldPend := 0 }).iceOpen 0x0002 rDevice
    ((if s.pw.pfw then 16 else 0) + 1) (le 4 head ++ le 4 old ++ le 1 o ++ le 1 t.q.val)
  s1.updIce fun i => { i.commit with clearing := some (t, head), clearedHead := some head }

/-- The checks of cmdIceClear beside the ones that every command has (R433). -/
def chkIceClear (t : Taken) (s : State) : List (Nat × Bool) :=
  let b := t.body
  [(0x22, b.length < 160), (0x41, s.ice.flushing || s.ice.clearing.isSome)]

/-- ICE_CLEAR (R445, R534). -/
def cmdIceClear (t : Taken) (s : State) : State :=
  let b := t.body
  s.guarded t (chkIceClear t s) fun s =>
    let s1 := s.complete t 1 none (evt := true)
    if !s.tokenOk b then s1.cmdDone t 0x10
    else if getLe b 4 4 != s.iceSeq then s1.cmdDone t 0x12 (le 4 s.iceSeq)
    else s1.iceClearStart t

def execIceRead (q : Fin 32) (d : CmdArgs) (s : State) : Host.Outcome State Fault Refusal :=
  .next (s.rowCmd cmdIceRead 0x0601 q d)
def execIceFlush (q : Fin 32) (d : CmdArgs) (s : State) : Host.Outcome State Fault Refusal :=
  .next (s.rowCmd cmdIceFlush 0x0602 q d)
def execIceClear (q : Fin 32) (d : CmdArgs) (s : State) : Host.Outcome State Fault Refusal :=
  .next (s.rowCmd cmdIceClear 0x0603 q d)

end Sys2Proof.Machine
end

