-- ==== Sys2Proof/Machine/Thermal.lean ====
section
/-! DEFINITION. Housekeeping conversion, temperature sensors, thermal levels, throttle, shutdown and Bank derating (file 18,
R121-R123). Published temperatures are in 1/8 degC. -/

namespace Sys2Proof.Machine

open Sys2Proof

def State.updTh (s : State) (f : Thermal → Thermal) : State := { s with th := f s.th }

def allTs : List (Fin 24) := List.finRange 24
def allPair : List (Fin 12) := List.finRange 12
def allNtc : List (Fin 16) := List.finRange 16
def partner (t : Fin 24) : Fin 24 := if t.val % 2 == 0 then finOf 24 (t.val + 1) (by decide) else ⟨t.val - 1, by omega⟩

/-! ### Shutdown (R565, R568-R570) -/

/-- The partner of a Hinge pair was last seen in STANDBY with its mirror complete (R570). -/
def State.partnerReady (s : State) : Bool :=
  s.hinge.driving && s.hinge.partnerSeen && s.hinge.partner == 2 && s.hinge.partnerFlags.getLsbD 6

/-- A Channel of which the drive die sinks the gate: what was driven is OFF (log 50). -/
def Chan.cutOff (c : Chan) (now : Nat) : Chan :=
  { c with
    st := if driven c.st then .off else c.st, cause := if driven c.st then .reset else c.cause
    lastTr := if driven c.st then now else c.lastTr, gate := .low, gateNext := .low, sink := .none, cmpTrip := false
    retryAt := none, retryOwed := c.retryOwed && !driven c.st }

/-- Every gate, PHnn_EN and AUXn_EN is low. -/
def State.allOff (s : State) : State :=
  let ph (p : Phase) : Phase := p.enLow (if p.st == .active then .shed else p.st)
  { (s.mapCh fun _ c => c.cutOff s.fr.count) with
    adm := [], aux := s.aux.map Aux.off
    cv := { s.cv with mode := .idle, law := .idle, modeNext := none, start := .none, ph := s.cv.ph.map ph } }

/-- The shutdown latch sets. The logic die writes its records, TH_STATE of the level among them (R574), flushes and is held in
reset within the step (log 50), which ends the capture streams (R130). -/
def State.thShutdown (s : State) (code src : Nat) (value : Int) : State :=
  if s.th.latch then s
  else
    let release := s.partnerReady
    let s1 := s.updTh fun t => { t with latch := true, latchCode := code, latchSrc := src, latchVal := value
                                        latchAt := s.fr.count, level := 3 }
    let s2 := s1.setFault 6
    let s3 := s2.cvFault 11 0xFFFF
    let s4 := s3.iceRecord 0x0E04 rDevice 2 (le 1 code ++ le 1 src ++ le 2 (satS 2 (8 * value)))
    let pl := le 1 3 ++ le 1 s.th.tjPair ++ le 2 (satS 2 (8 * s.th.tj))
    let s5 := (((s4.iceRecord 0x0E01 rDevice 1 pl).postOnly 0x0E01 rDevice pl).iceFlushed).allOff
    let s6 := if release then { s5 with hinge := { s5.hinge with driving := false } }
      else s5.updZone fun z => { z with
        iso := false, corn := true, cornAt := if z.corn then z.cornAt else s.fr.count, isoNext := none, cornNext := none }
    { s6 with cap := State.reset.cap
              pw := { s6.pw with mode := .shutdown, logic := .inReset, admOpen := false }
              fr := { s6.fr with running := false } }

/-! ### The housekeeping round (R121, R123, R568) -/

/-- Slot of the first self-check conversion that deviates by more than 4 LSB: 0 V, then 3/4 of full scale. -/
def hkBadSlot (h : HkIn) : Option Nat :=
  ((List.finRange 8).find? fun (k : Fin 8) =>
    let c : Int := h.check[k].toNat
    let e : Int := if k.val < 4 then 0 else 3072
    4 < |c - e|).map fun k => 56 + k.val

/-- A round is taken into the last eight. -/
def Hk.take (k : Hk) (h : HkIn) : Hk :=
  let l := k.rounds ++ [h]
  let bad := hkBadSlot h
  let run := if bad.isSome then k.checkRun + 1 else 0
  { k with
    rounds := l.drop (l.length - 8), checkRun := run, lastCheck := bad.getD k.lastCheck
    checkBad := k.checkBad || run ≥ 2
    hotRun := Vector.ofFn fun i => if 10560 ≤ h.ts[i] && h.ts[i] ≤ 12800 then k.hotRun[i] + 1 else 0 }

/-- HK_ROUND. Two rounds in a row with a bad conversion each set the self-check fault, whichever conversion deviates (R123,
log 140). -/
def execHkRound (h : HkIn) (s : State) : Host.Outcome State Fault Refusal :=
  let s1 := { s with hk := s.hk.take h }
  let s2 := if !s.hk.checkBad && s1.hk.checkBad then s1.iceRecord 0x0521 rDevice 2 (le 1 s1.hk.lastCheck) else s1
  .next (if s.live then
    match allTs.find? fun i => s2.hk.hotRun[i] ≥ 2 with
    | some i => s2.thShutdown 0 i.val (h.ts[i] / 8)
    | none => s2
  else s)

/-! ### Publishing (R122) -/

def meanOf (l : List Int) : ℚ := if l.isEmpty then 0 else (l.sum : ℚ) / l.length

/-- The temperature of an NTC in °C by the B equation: 10 kΩ at 25 °C with B 3,435 K, against a pull-up of 10 kΩ to the
reference, which is full scale (R571). -/
def ntcTemp (code : BitVec 12) : ℚ :=
  let r : ℚ := (code.toNat : ℚ) / (4096 - code.toNat)
  1 / (20 / 5963 + Config.lnNtc r / 3435) - 5463 / 20

/-- The mean of the temperatures that the last samples give, in 1/8 °C (log 171). -/
def Hk.ntcMean (k : Hk) (j : Fin 16) : ℚ :=
  (k.rounds.map fun (h : HkIn) => 8 * ntcTemp h.ntc[j]).sum / k.rounds.length

/-- The means of the last 8 samples. -/
def Hk.publish (k : Hk) : Hk :=
  match k.rounds.getLast? with
  | none => k
  | some last => { k with
      seen := true
      ts := Vector.ofFn fun i => rnd (meanOf (k.rounds.map fun h => h.ts[i]) / 8)
      tsRaw := last.tsRaw
      ntc := Vector.ofFn fun i => rnd (k.ntcMean i)
      volts := Vector.ofFn fun i => rnd (meanOf (k.rounds.map fun h => h.volts[i])) }

/-! ### Sensors (R561-R563) -/

/-- The rows open, short and stuck of Table 18.2. -/
def tsKind (v : Int) (own other : List (BitVec 12 × Int)) : Option Nat :=
  let stuck : Bool := own.length ≥ 1000 && (match own with
    | x :: r => r.all fun y => y.1 == x.1
    | [] => false)
  let vs := other.map (·.2)
  let moved : Bool := match vs with
    | x :: r => 16 ≤ r.foldl max x - r.foldl min x
    | [] => false
  if v > 1600 then some 0 else if v < -480 then some 1 else if stuck && moved then some 2 else none

/-- The judgement of every sensor for the Period. -/
def State.judgeTs (s : State) : Vector TsSt 24 :=
  let k := s.hk
  let hist : Vector (List (BitVec 12 × Int)) 24 := Vector.ofFn fun i =>
    ((k.tsRaw[i], k.ts[i]) :: (s.th.ts[i]).hist).take 1000
  let kinds : Vector (Option Nat) 24 := Vector.ofFn fun i => tsKind k.ts[i] hist[i] hist[partner i]
  Vector.ofFn fun i =>
    let p := partner i
    let apart : Bool := (kinds[p]).isNone && k.ts[i] + 120 < k.ts[p]
    { broken := match kinds[i] with
        | some x => some x
        | none => if apart then some 3 else if k.checkBad then some 4 else none
      hist := hist[i] }

/-- A pair's value: a broken sensor reads as 150 degC. -/
def pairValue (ts : Vector TsSt 24) (v : Vector Int 24) (p : Fin 12) : Int :=
  let rd (i : Fin 24) : Int := if (ts[i]).broken.isSome then 1200 else v[i]
  max (rd ⟨2 * p.val, by omega⟩) (rd ⟨2 * p.val + 1, by omega⟩)

/-- TH_SENSOR records of sensors and NTCs whose judgement changed (Table 18.5). -/
def State.sensorNote (s : State) (num : Nat) (old new : Option Nat) (v : Int) : State :=
  if old == new then s else s.iceRecord 0x0E02 rDevice 1 (le 1 num ++ le 1 (new.getD 5) ++ le 2 (satS 2 (8 * v)))

/-- Sensors, pairs and TJMAX of the Period. -/
def State.thSense (s : State) : State :=
  let ts := s.judgeTs
  let pairs : Vector Int 12 := Vector.ofFn fun p => pairValue ts s.hk.ts p
  let both : Vector Nat 12 := Vector.ofFn fun p =>
    if (ts[(⟨2 * p.val, by omega⟩ : Fin 24)]).broken.isSome && (ts[(⟨2 * p.val + 1, by omega⟩ : Fin 24)]).broken.isSome then
      (s.th.bothRun[p]) + 1 else 0
  let top := allPair.foldl (fun (b : Fin 12) p => if pairs[p] > pairs[b] then p else b) 0
  let s1 := s.updTh fun t => { t with
    ts := ts, pairs := pairs, bothRun := both, tj := pairs[top], tjPair := top.val
    checkRun := if s.hk.checkBad then t.checkRun + 1 else 0 }
  overL allTs (fun i s' => s'.sensorNote i.val (s.th.ts[i]).broken (ts[i]).broken s.hk.ts[i])
    { s1 with hk := { s1.hk with checkBad := false } }

/-! ### Levels (R564-R567, R574) -/

def State.anyBroken (s : State) : Bool := s.th.ts.toList.any fun t => t.broken.isSome

/-- The level entered by the conditions alone. -/
def State.levelIn (s : State) : Nat := if s.th.tj ≥ 1160 || s.anyBroken then 2 else if s.th.tj ≥ 1080 then 1 else 0

/-- The level of the Period. -/
def State.levelNext (s : State) : Nat :=
  let t := s.th
  let e := s.levelIn
  if e ≥ t.level then e
  else if t.level == 2 then (if t.coolRun + 1 ≥ 1000 && t.tj < 1120 then e else 2)
  else if t.tj < 1040 then e else 1

/-- The level step, with TH_STATE. -/
def State.thLevel (s : State) : State :=
  let old := s.th.level
  let new := s.levelNext
  let s1 := s.updTh fun t => { t with
    level := new, coolRun := if new == 2 && t.tj < 1120 then t.coolRun + 1 else 0
    throttleN := if new == 2 then (if old == 2 then t.throttleN + 1 else 0) else 0
    shedNext := new == 2 && (old != 2 || (t.throttleN + 1) % 100 == 0)
    restoreN := if new == 2 || old == 2 then 0 else t.restoreN + 1 }
  if new == old then s1
  else
    let pl := le 1 new ++ le 1 s.th.tjPair ++ le 2 (satS 2 (8 * s.th.tj))
    (s1.iceRecord 0x0E01 rDevice (if new == 2 then 2 else 1) pl).postOnly 0x0E01 rDevice pl

/-- One entry of the thermal restore list per 100 Periods after THROTTLE ends (log 51). -/
def State.thRestore (s : State) : State :=
  if s.th.level ≥ 2 || s.zone.hu != .normal || s.th.restoreN < 100 then s
  else
    match s.th.restore.reverse.find? fun n => !s.waiting n && !s.th.derated[State.bank n] with
    | some n => (s.updTh fun t => { t with restoreN := 0 }).admAdd ⟨n, .restore, s.fr.count, false, none, 0⟩
    | none => s

/-! ### NTCs and derating (R571, R572) -/

/-- Whether some field names an NTC. -/
def State.ntcUsed (s : State) (k : Fin 16) : Bool :=
  s.znf Fld.BTSRC == k.val || allPh.any (fun p => s.cvf Fld.PHNTC p.val == k.val) ||
    allCh.any fun n => s.chf n Fld.AMBSRC == k.val || s.chf n Fld.FTSRC == k.val

def ntcKind (v : Int) : Option Nat := if v < -400 then some 0 else if v > 1600 then some 1 else none

/-- NTC judgement, the Banks they hold derated, and the records. In a Period with a failed self-check every NTC counts as
broken, as every other temperature reading does (R123). -/
def State.thNtc (s : State) : State :=
  let bad : Vector (Option Nat) 16 := s.hk.ntc.map fun v =>
    match ntcKind v with
    | some x => some x
    | none => if s.th.checkRun != 0 then some 4 else none
  let run : Vector Nat 16 := Vector.ofFn fun k => if (bad[k]).isSome then 0 else min 1000 (s.th.ntcOkRun[k] + 1)
  let by' : Vector Bool 16 := Vector.ofFn fun k =>
    if (bad[k]).isSome && s.ntcUsed k then true else s.th.derBy[k] && run[k] < 1000
  let der : Vector Bool 4 := Vector.ofFn fun b => allNtc.any fun k => k.val / 4 == b.val && by'[k]
  let s1 := s.updTh fun t => { t with
    ntcBad := bad, ntcOkRun := run, derBy := by', derated := der
    derateNext := der }
  let s2 := overL allNtc (fun k s' => s'.sensorNote (32 + k.val) s.th.ntcBad[k] bad[k] s.hk.ntc[k]) s1
  overL (List.finRange 4) (fun (b : Fin 4) s' =>
    if der[b] == s.th.derated[b] then s'
    else
      let who : Nat := match allNtc.find? fun k => k.val / 4 == b.val && (by'[k] != s.th.derBy[k]) with
        | some k => k.val
        | none => 4 * b.val
      s'.iceRecord 0x0E03 (0x40 + b.val) 1 (le 1 (bit (!der[b])) ++ le 1 who)) s2

/-- The thermal work of a Period. -/
def State.thPeriod (s : State) : State :=
  let s1 := ({ s with hk := s.hk.publish }).thSense.thNtc
  match allPair.find? fun p => s1.th.bothRun[p] ≥ 8 with
  | some p => s1.thShutdown 1 p.val s1.th.pairs[p]
  | none =>
    if s1.th.checkRun ≥ 8 then s1.thShutdown 1 s1.th.tjPair s1.th.tj
    else s1.thLevel.thRestore

/-! ### The tick of Frame 125 (R566, R572) -/

/-- Sets that the throttle and a derating switch off at this tick. -/
def State.thSets (s : State) : List (Fin 64) :=
  if s.fr.count % 250 != 125 then []
  else
    let one := if s.th.shedNext then (s.shedOrderOf.find? fun n => (s.ch[n]).st == .on).toList else []
    let der := allCh.filter fun n => s.th.derateNext[State.bank n] && (s.ch[n]).st == .on && s.chClass n == .c &&
      !s.isFollower n
    (one ++ der).dedup

def State.thRaises (s : State) : List Raise :=
  if s.fr.freeze then [] else s.thSets.flatMap fun n => s.offSet n .thermal

/-- The count of the Channels shed; the sheds are then no longer due. -/
def State.th125 (s : State) : State :=
  if s.fr.count % 250 != 125 then s
  else s.updTh fun t => { t with
    shedNext := false, derateNext := Vector.replicate 4 false
    nShed := min 65535 (t.nShed + s.thRaises.length) }

/-! ### Readback (Table 18.4) -/

def State.thermalBlock (s : State) : List Byte :=
  let t := s.th
  let ok := allNtc.filter fun k => (t.ntcBad[k]).isNone
  let top := ok.foldl (fun (b : Option (Fin 16)) k => match b with
    | none => some k
    | some j => if s.hk.ntc[k] > s.hk.ntc[j] then some k else some j) none
  le 1 t.level ++ le 1 t.tjPair ++ le 2 (satS 2 (8 * t.tj)) ++
    (match top with
      | some k => le 2 (satS 2 (8 * s.hk.ntc[k])) ++ le 1 k.val
      | none => [0x00, 0x80, 0xFF]) ++
    le 1 ((List.finRange 4).map fun (b : Fin 4) => bit t.derated[b] * 2 ^ b.val).sum ++
    le 4 (allTs.map fun i => bit (t.ts[i]).broken.isSome * 2 ^ i.val).sum ++
    le 2 (allNtc.map fun k => bit (t.ntcBad[k]).isSome * 2 ^ k.val).sum ++ le 2 t.nShed ++
    (t.pairs.toList.flatMap fun p => le 2 (satS 2 (8 * p)))

end Sys2Proof.Machine
end

