-- ==== Sys2Proof/Machine/Pd.lean ====
section
/-! DEFINITION. The USB PD source ports: states, advertising, Requests, transitions, zone conditions, VCONN, moisture, faults
and the PD commands (file 19). Voltages are in 20 mV and currents in 10 mA, as the port's readback has them. -/

namespace Sys2Proof.Machine

open Sys2Proof

def allPd : List (Fin 2) := List.finRange 2
def otherPd (p : Fin 2) : Fin 2 := ⟨1 - p.val, by omega⟩

/-- Code of a port state in the row order of Table 19.3. -/
def pdCode : PdState → Nat
  | .disabled => 0
  | .unattached => 1
  | .attached => 2
  | .typecOnly => 3
  | .contract => 4
  | .transition => 5
  | .moist => 6
  | .suspended => 7
  | .fault => 8

/-- A sink is attached. -/
def pdAttached (s : PdState) : Bool := s == .attached || s == .typecOnly || s == .contract || s == .transition

def State.pdRailV (s : State) (p : Fin 2) : ℚ := s.vAux (pdRail p)

/-- A message is sent. -/
def State.pdSend (s : State) (p : Fin 2) (m : PdOut) : State :=
  s.updPd p fun k => { k with nMsgs := k.nMsgs + 1, lastMsg := some m }

/-- A change of state, with PD_STATE (R578). -/
def State.pdEnter (s : State) (p : Fin 2) (st : PdState) (cause : Nat) : State :=
  (s.updPd p fun k => { k with st := st }).postRec 0x0901 (rPd p) (le 1 (pdCode st) ++ le 1 cause ++ repU 2 (100 * s.vBus p))

/-! ### Advertising (R579, R582, R585) -/

/-- Power that the port offers in W. -/
def State.pdPower (s : State) (p : Fin 2) : ℚ :=
  let m : ℚ := s.pdf p Fld.PMAX
  match (s.pd[p]).waitLimit with
  | some w => min m w
  | none => m

/-- Current of an object at a voltage in V, in 10 mA, a multiple of 50 mA. -/
def State.pdCur (s : State) (p : Fin 2) (v : ℚ) : Nat :=
  let i : ℚ := min (if (s.pd[p]).cable5 then 5 else 3) (s.pdPower p / v)
  5 * (Rat.floor (i * 20)).toNat

/-- The objects to advertise. -/
def State.pdoList (s : State) (p : Fin 2) : List Pdo :=
  let k := s.pd[p]
  let fx (v : Nat) : Pdo := ⟨false, v * 50, v * 50, s.pdCur p v⟩
  let five := fx 5
  if k.zoneCond == 2 || k.wetAt.isSome then [{ five with cur := min 150 five.cur }]
  else if k.zoneCond == 1 || k.corrosion then [{ five with cur := min 300 five.cur }]
  else
    let m := s.pdf p Fld.FIXMASK
    let opt (b v : Nat) : List Pdo := if m / 2 ^ b % 2 == 1 then [fx v] else []
    let pps (v : Nat) : List Pdo := if s.pdf p Fld.PPSEN == 1 then [⟨true, 165, v * 50, s.pdCur p v⟩] else []
    five :: ((opt 0 9 ++ opt 1 15 ++ opt 2 20 ++ pps 11 ++ pps 21).filter fun o => o.cur != 0)

/-- Source_Capabilities. -/
def State.pdAdvertise (s : State) (p : Fin 2) : State :=
  (s.updPd p fun k => { k with pdos := s.pdoList p }).pdSend p .sourceCap

/-! ### Ends of a contract (R577, R581, R587) -/

/-- What belongs to an attached sink is void. -/
def PdPort.void (k : PdPort) : PdPort :=
  { k with obj := 0, pps := false, volt := 0, cur := 0, nextObj := 0, nextPps := false, nextVolt := 0, nextCur := 0
           srcWait := false, rdGone := false, waits := 0, waitLimit := none, pdos := [], regRun := 0, ccPeriods := 0
           ccBroke := true }

/-- VBUS goes off: the rail returns to OFF, VCONN is removed and the discharge sink runs (log 52). -/
def State.pdDrop (s : State) (p : Fin 2) : State :=
  (s.updPd p fun k => { k.void with vconn := false, cable5 := false, wetAt := none, discharge := true }).auxOff (pdRail p)

/-- Hard Reset: the contract is void, and the port is ATTACHED at 5 V again (log 53). -/
def State.pdHardReset (s : State) (p : Fin 2) (sent : Bool) : State :=
  let r := pdRail p
  let s1 := if sent then s.pdSend p .hardReset else s
  let s2 := s1.updPd p fun k => { k.void with life := { k.life with hard := k.life.hard + 1 } }
  let s3 := (s2.updAux r fun a => { a with icc := some 3 }).auxAim r 500
  (s3.pdEnter p .attached 6).pdAdvertise p

/-! ### Attach, detach (R578, R583, R586, R587) -/

/-- VCONN is applied and the cable is asked for its identity before the first Source_Capabilities. -/
def execAttach (p : Fin 2) (a : AttachIn) (s : State) : Host.Outcome State Fault Refusal :=
  .next (if s.live && (s.pd[p]).st == .unattached then
    let vc := s.pdf p Fld.VCONNEN == 1 && a.ra && a.vconnIn
    let s1 := s.updPd p fun k => { k.void with
      cc2 := a.cc2, vconn := vc, cable5 := vc && a.cable5, discharge := false
      life := { k.life with attach := k.life.attach + 1 } }
    let s2 := (s1.updAux (pdRail p) fun x => { x with icc := some 3 }).auxStart (pdRail p) 500
    let s3 := if vc then s2.pdSend p .discoverIdentity else s2
    (s3.pdEnter p .attached 1).pdAdvertise p
  else s)

/-- Rd first absent in TRANSITION: the target is held at the stopping point. -/
def execRdAbsent (p : Fin 2) (s : State) : Host.Outcome State Fault Refusal :=
  let k := s.pd[p]
  let r := pdRail p
  .next (if s.live && k.st == .transition && !k.rdGone then
    let g := (s.aux[r]).gen
    let m : Motion := ⟨g.p, g.v, g.a⟩
    let stop := (m.runAll (stopPlan g.v g.a (s.auxLims r))).1
    (s.updPd p fun k => { k with rdGone := true }).updAux r fun a => { a with gen := a.gen.aim stop }
  else s)

/-- Rd is back within 12 ms: the slew resumes. -/
def execRdReturn (p : Fin 2) (s : State) : Host.Outcome State Fault Refusal :=
  let k := s.pd[p]
  .next (if s.live && k.st == .transition && k.rdGone then
    (s.updPd p fun k => { k with rdGone := false }).auxAim (pdRail p) (2 * (if k.srcWait then k.volt else k.nextVolt))
  else s)

/-- PD_DETACH, with the microseconds from the confirmation to vSafe0V. -/
def State.pdDetached (s : State) (p : Fin 2) (vSafeUs : Nat) : State :=
  let k := s.pd[p]
  let pl := le 1 (pdCode k.st) ++ le 1 (bit (k.st == .transition)) ++ repU 2 (100 * s.vBus p) ++ le 4 vSafeUs
  (s.pdDrop p).postRec 0x0905 (rPd p) pl

/-- Detach is confirmed. -/
def execDetach (p : Fin 2) (vSafeUs : Nat) (s : State) : Host.Outcome State Fault Refusal :=
  .next (if s.live && pdAttached (s.pd[p]).st then (s.pdDetached p vSafeUs).pdEnter p .unattached 2 else s)

/-- The capability retries end without a reply. -/
def execNoPdReply (p : Fin 2) (s : State) : Host.Outcome State Fault Refusal :=
  let k := s.pd[p]
  .next (if s.live && k.st == .attached && k.nextObj == 0 then s.pdEnter p .typecOnly 1 else s)

/-! ### Requests (R580, R581) -/

/-- Power in W of a voltage in 20 mV and a current in 10 mA. -/
def pdWatt (volt cur : Nat) : ℚ := (volt * cur : Nat) / 5000

/-- Headroom of R291 in W. -/
def State.pdHeadroom (s : State) (p : Fin 2) : ℚ := (s.axf (pdRail p) Fld.PAUX : ℚ) - (s.aux[pdRail p]).pNow

/-- The object that a Request names, where it keeps the object's current and, for PPS, its range (log 54). -/
def State.pdNamed (s : State) (p : Fin 2) (r : PdRequest) : Option (Pdo × Nat) :=
  if r.obj == 0 then none
  else match (s.pd[p]).pdos[r.obj - 1]? with
    | some o =>
      if r.cur > o.cur then none
      else if !o.pps then some (o, o.volt)
      else if o.low ≤ r.volt && r.volt ≤ o.volt then some (o, r.volt) else none
    | none => none

/-- Whether the zone or the rail cannot spare the power now: the three cases of Wait in R580. -/
def State.pdMustWait (s : State) (p : Fin 2) (dp : ℚ) : Bool :=
  (decide (0 < dp) && decide (s.pdHeadroom p < dp)) ||
    (s.znf Fld.CAP != 0 && decide (s.capW - s.zone.pz < dp)) || (s.pd[otherPd p]).st == .transition

/-- Wait, with PD_WAIT; the eighth in a row limits what is advertised. -/
def State.pdWait (s : State) (p : Fin 2) (dp : ℚ) : State :=
  let k := s.pd[p]
  let h := s.pdHeadroom p
  let s1 := ((s.updPd p fun k => { k with waits := k.waits + 1 }).pdSend p .wait).postRec 0x0903 (rPd p)
    (repU 2 (10 * dp) ++ repU 2 (10 * h))
  if k.waits + 1 ≥ 8 then
    (s1.updPd p fun k => { k with waits := 0, waitLimit := some (pdWatt k.volt k.cur + h) }).pdAdvertise p
  else s1

/-- Accept: tSrcTransition runs. A port in ATTACHED stays there until PS_RDY (log 55). -/
def State.pdAccept (s : State) (p : Fin 2) (r : PdRequest) (o : Pdo) (volt : Nat) : State :=
  let s1 := (s.updPd p fun k => { k with
    nextObj := r.obj, nextPps := o.pps, nextVolt := volt, nextCur := r.cur, srcWait := true, waits := 0, regRun := 0 }).pdSend
    p .accept
  if (s.pd[p]).st == .contract then s1.pdEnter p .transition 0 else s1

def execRequest (p : Fin 2) (r : PdRequest) (s : State) : Host.Outcome State Fault Refusal :=
  let k := s.pd[p]
  .next (if s.live && (k.st == .attached || k.st == .contract) && k.nextObj == 0 then
    match s.pdNamed p r with
    | none => (s.updPd p fun k => { k with waits := 0 }).pdSend p .reject
    | some (o, volt) =>
      let dp := pdWatt volt r.cur - pdWatt k.volt k.cur
      if s.pdMustWait p dp then s.pdWait p dp else s.pdAccept p r o volt
  else s)

/-- tSrcTransition has elapsed: the new target and ICC. -/
def execSrcTransition (p : Fin 2) (s : State) : Host.Outcome State Fault Refusal :=
  let k := s.pd[p]
  let i : ℚ := (k.nextCur : ℚ) / 100
  .next (if s.live && k.nextObj != 0 && k.srcWait && (k.st == .transition || k.st == .attached) then
    let s1 := (s.updPd p fun k => { k with srcWait := false, regRun := 0 }).updAux (pdRail p)
      fun a => { a with icc := some (if k.nextPps then i else min (5 / 4 * i) (25 / 4)) }
    if k.rdGone then s1 else s1.auxAim (pdRail p) (2 * k.nextVolt)
  else s)

/-- PS_RDY: the accepted Request is the contract. -/
def State.pdReady (s : State) (p : Fin 2) : State :=
  let s1 := (s.updPd p fun k => { k with
    obj := k.nextObj, pps := k.nextPps, volt := k.nextVolt, cur := k.nextCur, nextObj := 0, regRun := 0, ccPeriods := 0, ccBroke := true
    life := { k.life with contract := k.life.contract + 1 } }).pdSend p .psRdy
  let s2 := s1.pdEnter p .contract 0
  let k := s2.pd[p]
  let flags := bit k.pps + 2 * bit k.cable5 + 4 * bit k.vconn + 8 * bit k.corrosion + 16 * bit (k.zoneCond != 0) +
    32 * bit k.cc2
  s2.postRec 0x0902 (rPd p) (le 1 k.obj ++ le 1 flags ++ le 2 k.volt ++ le 2 k.cur)

/-- A fixed contract in CC for 250 Periods, or a PPS contract without a Request within the timeout. -/
def execContractHardReset (p : Fin 2) (s : State) : Host.Outcome State Fault Refusal :=
  let k := s.pd[p]
  .next (if s.live && k.st == .contract && (k.pps || k.ccPeriods ≥ 250) then s.pdHardReset p true else s)

/-- Messages other than Request. -/
def execPdReceivedMessage (p : Fin 2) (m : PdMsg) (s : State) : Host.Outcome State Fault Refusal :=
  .next (if s.live && pdAttached (s.pd[p]).st then
    match m with
    | .hardReset => s.pdHardReset p false
    | .getSourceCap => s.pdAdvertise p
    | .getSourceCapExtended => s.pdSend p .sourceCapExtended
    | .getStatus => s.pdSend p .status
    | .getPpsStatus => s.pdSend p .ppsStatus
    | .discoverIdentityReply five => if (s.pd[p]).vconn then s.updPd p fun k => { k with cable5 := five } else s
    | .other _ => s.pdSend p .notSupported
  else s)

/-! ### VCONN (R583) -/

/-- The limit has acted for 1 ms: the switch opens, and the cable counts as a 3 A cable. -/
def execVconnLimit (p : Fin 2) (s : State) : Host.Outcome State Fault Refusal :=
  .next (if (s.pd[p]).vconn then s.updPd p fun k => { k with vconn := false, cable5 := false } else s)

def execVconnInputLow (s : State) : Host.Outcome State Fault Refusal :=
  .next { s with pd := s.pd.map fun k => { k with vconn := false } }

/-! ### Moisture (R584, R585) -/

/-- The pins that a test in a state measures: CC1, CC2, SBU1, SBU2. -/
def PdPort.pins (k : PdPort) : List (Fin 4) :=
  if k.st == .unattached || k.st == .moist then [0, 1, 2, 3]
  else if k.vconn then [2, 3] else [if k.cc2 then 0 else 1, 2, 3]

/-- A measured pin is wet; impedances in 100 ohm. -/
def State.pinWet (s : State) (p : Fin 2) (imp : Vector Nat 4) (i : Fin 4) : Bool :=
  let z : Nat := imp[i]
  let rd : Bool := (s.pd[p]).st == .unattached && i.val < 2 && ((41 ≤ z && z ≤ 61) || (8 ≤ z && z ≤ 12))
  z < 100 * s.pdf p Fld.MOISTR && !rd

/-- PD_MOIST. -/
def State.pdMoist (s : State) (p : Fin 2) (wet : List (Fin 4)) (low : Nat) : State :=
  let k := s.pd[p]
  s.postRec 0x0904 (rPd p) (le 1 (wet.map fun i => 2 ^ i.val).sum ++ le 1 (bit (k.st == .moist) + 2 * bit k.corrosion) ++
    le 4 (min (2 ^ 32 - 1) low))

/-- The port enters MOIST. -/
def State.pdToMoist (s : State) (p : Fin 2) (wet : List (Fin 4)) (low : Nat) : State :=
  let s1 := if pdAttached (s.pd[p]).st then s.pdDrop p else s
  let s2 := s1.updPd p fun k => { k with
    vconn := false, dryRun := 0, wetAt := none, life := { k.life with moist := k.life.moist + 1 } }
  (s2.pdEnter p .moist 3).pdMoist p wet low

/-- A test of a port, in the states of R584. -/
def State.pdTest (s : State) (p : Fin 2) (imp : Vector Nat 4) : State :=
  let k := s.pd[p]
  let pins := k.pins
  let wet := pins.filter fun i => s.pinWet p imp i
  let low := (pins.map fun i => imp[i]).foldl min (2 ^ 32 - 1)
  let isWet := !wet.isEmpty
  let corr := k.corrosion || (isWet && k.wetRun + 1 ≥ 600)
  let s1 := s.updPd p fun k => { k with
    imp := Vector.ofFn fun i => if pins.contains i then imp[i] else k.imp[i]
    wetRun := if isWet then min 600 (k.wetRun + 1) else 0, corrosion := corr, testNow := false }
  let s2 := if corr && !k.corrosion then s1.pdMoist p wet low else s1
  if k.st == .unattached then (if isWet then s2.pdToMoist p wet low else s2)
  else if k.st == .moist then
    if isWet then s2.updPd p fun k => { k with dryRun := 0 }
    else if k.dryRun + 1 ≥ 3 then (s2.updPd p fun k => { k with dryRun := 0 }).pdEnter p .unattached 3
    else s2.updPd p fun k => { k with dryRun := k.dryRun + 1 }
  else if !isWet then s2.updPd p fun k => { k with wetAt := none }
  else match k.wetAt with
    | none => s2.updPd p fun k => { k with wetAt := some s.fr.count }
    | some f => if f + 15000000 ≤ s.fr.count then s2.pdToMoist p wet low else s2

def execMoistureTest (p : Fin 2) (imp : Vector Nat 4) (s : State) : Host.Outcome State Fault Refusal :=
  let k := s.pd[p]
  .next (if s.live && (pdAttached k.st || k.st == .unattached || k.st == .moist) &&
      (s.pdf p Fld.MOISTEN == 1 || k.testNow) then s.pdTest p imp else s)

/-! ### Faults (R588) -/

/-- The port opens Rp, and VBUS is discharged; a rail in FAULT keeps its state. -/
def State.pdFault (s : State) (p : Fin 2) : State :=
  let r := pdRail p
  let st := (s.aux[r]).st
  let s1 := s.pdDrop p
  let s2 := if st == .fault then s1.updAux r fun a => { a with st := .fault, countedAt := (s.aux[r]).countedAt } else s1
  s2.pdEnter p .fault 5

/-- VBUS above the contract's bound, or present where VBUS is off; in DISABLED the rail is under host control (R577; log 172). -/
def State.vbusBad (s : State) (p : Fin 2) : Bool :=
  let k := s.pd[p]
  let v := s.vBus p
  let top : ℚ := (max k.volt k.nextVolt : Nat) / 50
  if pdAttached k.st then k.volt != 0 && decide (top * 11 / 10 + 1 / 2 < v)
  else (k.st == .unattached || k.st == .moist || k.st == .suspended) && !k.discharge && decide (8 / 10 ≤ v)

/-- The restart of a rail that a port owns returns the port to UNATTACHED with VBUS off (log 56). -/
def State.pdRestart (s : State) (p : Fin 2) : State :=
  let r := pdRail p
  if (s.pd[p]).st == .fault && (s.aux[r]).pdOwned && (s.aux[r]).st == .start then (s.auxOff r).pdEnter p .unattached 5
  else s

/-- R286, R290: the counted restart of the converter (rail 0) or of an AUX rail (1-4). -/
def execCountedRestart (rail : Fin 5) (s : State) : Host.Outcome State Fault Refusal :=
  .next (if !s.live then s
    else if h : rail.val = 0 then s.cvCounted
    else
      let s1 := s.auxCounted ⟨rail.val - 1, by omega⟩
      if rail.val == 3 then s1.pdRestart 0 else if rail.val == 4 then s1.pdRestart 1 else s1)

/-! ### Every Frame and every Period -/

/-- The row of Table 19.4 or of the capping of moisture that applies to a port. -/
def State.pdZone (s : State) (p : Fin 2) : Nat :=
  let k := s.pd[p]
  if (s.hinge.st != .solo && s.hinge.st != .active) || s.pw.dormStep != 0 then 3
  else if k.huHit then (if s.pdf p Fld.HUMODE == 0 then 3 else 2)
  else if s.throttled then 1 else 0

/-- PDEN in force (R577): 0 ends a contract as a detach does (log 204). -/
def State.pdEnable (s : State) (p : Fin 2) : State :=
  let k := s.pd[p]
  let on := s.pdf p Fld.PDEN == 1
  let r := pdRail p
  if on && k.st == .disabled then
    ((((s.auxOff r).cvSetsEnd (isAuxSet r) 0x12).updAux r fun a => { a with pdOwned := true }).updPd p fun k => { k with discharge := true }).pdEnter p
      .unattached 0
  else if !on && k.st != .disabled then
    let s1 := if k.st == .contract || k.st == .transition
      then ({ s with free := s.free + 1 } : State).pdDetached p (Config.vSafeUs s.free).toNat else s.pdDrop p
    (s1.updAux r fun a => { a with pdOwned := false, icc := none, stopped := false }).pdEnter p .disabled 0
  else s

/-- What the ports do at a tick: enabling, zone conditions, new capabilities. -/
def State.pdTickOne (s : State) (p : Fin 2) : State :=
  let s1 := s.pdEnable p
  let k := s1.pd[p]
  let z := s1.pdZone p
  let s2 := s1.updPd p fun k => { k with zoneCond := z }
  let s3 := if z == 3 && (pdAttached k.st || k.st == .unattached) then
      ((if pdAttached k.st then s2.pdDrop p else s2).updPd p fun k => { k with vconn := false }).pdEnter p .suspended 4
    else if z != 3 && k.st == .suspended then s2.pdEnter p .unattached 4
    else s2
  let k3 := s3.pd[p]
  if (k3.st == .contract || k3.st == .attached) && k3.nextObj == 0 && (s3.pdoList p != k3.pdos || k.zoneCond != z) then s3.pdAdvertise p else s3

def State.pdTick (s : State) : State := overL allPd (fun p s => s.pdTickOne p) s

/-- S1 of a port, after the rails: faults, PS_RDY, discharge, energy. -/
def State.pdS1One (s : State) (p : Fin 2) : State :=
  let r := pdRail p
  let a := s.aux[r]
  let t : ℚ := (a.target : ℚ) / 100
  let out := a.st != .cc
  let run := (s.pd[p]).nextObj != 0 && !(s.pd[p]).srcWait && !(s.pd[p]).rdGone
  let s1 := s.updPd p fun k => { k with
    regRun := if run && decide (|s.pdRailV p - t| * 50 ≤ t) then k.regRun + 1 else 0
    discharge := k.discharge && decide (8 / 10 ≤ s.vBus p)
    ccPeriods := if s.fr.count % 250 != 0 then k.ccPeriods else if k.st == .contract && !k.pps && !k.ccBroke then k.ccPeriods + 1 else 0
    ccBroke := out || (s.fr.count % 250 != 0 && k.ccBroke)
    life := if pdAttached k.st then { k.life with energy := k.life.energy + a.pNow * 4 / 1000000 } else k.life }
  let k := s1.pd[p]
  if k.st == .disabled || k.st == .fault then s1
  else if (a.faultNow && a.pdOwned) || s1.vbusBad p then s1.pdFault p
  else if run && k.regRun ≥ 8 then s1.pdReady p
  else s1

def State.pdS1 (s : State) : State := overL allPd (fun p s => s.pdS1One p) s

/-- The Period: hold-up reaching a port (R582), CC of fixed contracts, the stored counters (R590). -/
def State.pdPeriodOne (s : State) (p : Fin 2) : State :=
  let active := s.zone.hu != .normal
  let staging := s.zone.hu == .holdup || s.zone.hu == .spent
  let lead : Bool := s.zone.cornAt + 250 * s.znf Fld.LEAD (s.pdf p Fld.PCGRP) ≤ s.fr.count + 125
  let bShed := s.zone.shedAt125.any fun x => x.2 == .holdupShed && s.chClass x.1 == .b
  let hit := staging && (if s.pdf p Fld.PCLASS == 3 then lead else bShed)
  let ten : Bool := s.inRun && (s.fr.count - s.pw.runAt) / 250 % 600000 == 599999
  s.updPd p fun k => { k with
    huHit := active && (k.huHit || hit)
    firn := if ten && !s.pw.pfw then k.life else k.firn }

def State.pdPeriod (s : State) : State := overL allPd (fun p s => s.pdPeriodOne p) s

/-- Step 2 of Dormant entry: contracts end with VBUS discharged. -/
def State.pdSleep (s : State) : State :=
  overL allPd (fun p s => if pdAttached (s.pd[p]).st then (s.pdDrop p).pdEnter p .suspended 4 else s) s

/-- The ports at a start: their counters from Firn, UNATTACHED where PDEN is 1 (R577, Table 19.3); CORROSION holds until it is
cleared by command (R585; log 172). -/
def State.pdStart (s : State) : State :=
  { s with pd := Vector.ofFn fun p =>
    { (default : PdPort) with life := (s.pd[p]).firn, firn := (s.pd[p]).firn, corrosion := (s.pd[p]).corrosion } }

/-! ### PD_CTL and PD_READ (R589) -/

/-- The action of a PD_CTL applies. -/
def State.pdAction (s : State) (p : Fin 2) (a : Nat) : State :=
  let k := s.pd[p]
  if a == 0 then
    let s1 := s.updPd p fun k => { k with waitLimit := none, waits := 0 }
    if k.st == .contract || k.st == .attached then s1.pdAdvertise p else s1
  else if a == 1 then (if pdAttached k.st then s.pdHardReset p true else s)
  else if a == 2 then (if k.st == .unattached then s.updPd p fun k => { k with testNow := true } else s)
  else if a == 3 then
    if k.st == .fault then
      (((s.auxOff (pdRail p)).updAux (pdRail p) fun x => { x with stopped := false, counted := [] }).updPd p
        fun k => { k with discharge := true }).pdEnter p .unattached 0
    else s
  else if k.corrosion then
    (s.updPd p fun k => { k with corrosion := false, wetRun := 0 }).pdMoist p [] (k.imp.toList.foldl min (2 ^ 32 - 1))
  else s

/-- The checks of cmdPdCtl beside the ones that every command has (R433). -/
def chkPdCtl (t : Taken) (s : State) : List (Nat × Bool) :=
  let a := t.p 16 1
  let k := s.pd[pdIx t]
  [(0x22, a > 4), (0x12, (a == 1 && !pdAttached k.st) || (a == 2 && k.st != .unattached))]

def cmdPdCtl (t : Taken) (s : State) : State :=
  let a := t.p 16 1
  s.guarded t (chkPdCtl t s) fun s =>
    s.stage t .tick [(⟨kPd, (pdIx t).val, a, 0⟩, 0)]

/-- Table 19.5. -/
def State.pdData (s : State) (p : Fin 2) : List Byte :=
  let k := s.pd[p]
  let flags := bit k.pps + 2 * bit k.cable5 + 4 * bit k.vconn + 8 * bit k.corrosion + 16 * bit (k.zoneCond != 0) +
    32 * bit k.cc2
  le 1 (pdCode k.st) ++ le 1 flags ++ le 2 k.volt ++ le 2 k.cur ++ repU 2 (100 * s.vBus p) ++
    repU 2 (100 * s.iAux (pdRail p)) ++ (k.imp.toList.flatMap fun z => le 4 (min (2 ^ 32 - 1) z)) ++ le 4 k.life.attach ++
    le 4 k.life.contract ++ le 4 k.life.hard ++ le 4 k.life.moist ++ repU 4 (k.life.energy / 3600) ++ List.replicate 18 0

def cmdPdRead (t : Taken) (s : State) : State :=
  s.guarded t [] fun s =>
    match s.mustWait t.q with
    | some f => s.await t (.readAfter f)
    | none =>
      let (r, s1) := s.openResult
      s1.readDone t r (s.pdData (pdIx t))

def execPdReadvertise (q : Fin 32) (d : CmdArgs) (s : State) : Host.Outcome State Fault Refusal :=
  .next (s.rowCmd cmdPdCtl 0x0902 q (withAction d 0))
def execPdHardReset (q : Fin 32) (d : CmdArgs) (s : State) : Host.Outcome State Fault Refusal :=
  .next (s.rowCmd cmdPdCtl 0x0902 q (withAction d 1))
def execPdMoistureTestNow (q : Fin 32) (d : CmdArgs) (s : State) : Host.Outcome State Fault Refusal :=
  .next (s.rowCmd cmdPdCtl 0x0902 q (withAction d 2))
def execPdClearFault (q : Fin 32) (d : CmdArgs) (s : State) : Host.Outcome State Fault Refusal :=
  .next (s.rowCmd cmdPdCtl 0x0902 q (withAction d 3))
def execPdClearCorrosion (q : Fin 32) (d : CmdArgs) (s : State) : Host.Outcome State Fault Refusal :=
  .next (s.rowCmd cmdPdCtl 0x0902 q (withAction d 4))
def execPdRead (q : Fin 32) (d : CmdArgs) (s : State) : Host.Outcome State Fault Refusal :=
  .next (s.rowCmd cmdPdRead 0x0903 q d)

end Sys2Proof.Machine
end

