-- ==== Sys2Proof/Machine/Hinge.lean ====
section
/-! DEFINITION. Hinge pair redundancy: permission, heartbeat, states, the swap, the mirror, self-test, its commands and
events (file 15). -/

namespace Sys2Proof.Machine

open Sys2Proof

def State.updHinge (s : State) (f : Hinge → Hinge) : State := { s with hinge := f s.hinge }

/-! ### What link frames and HINGE_READ show -/

/-- The chip acts as primary: its role, and on a conflict the lower node address (R516). -/
def State.primary (s : State) : Bool :=
  !s.hinge.secondary && (!s.hinge.conflict || s.otp.nodeAddr.getD 0 < Config.partnerNode.toNat)

/-- The converter runs and no start is in progress. -/
def State.cvInReg (s : State) : Bool :=
  s.cv.mode != .idle && (match s.cv.start with | .none => true | _ => false)

/-- Byte 1 of a link frame (Table 15.2). -/
def State.hingeFlags (s : State) : Nat :=
  let h := s.hinge
  bit h.permitted + 2 * bit s.primary + 4 * bit s.drives + 8 * bit (h.cleanRun != 0) + 16 * bit h.quiet + 32 * bit h.revert +
    64 * bit h.mirror.complete + 128 * bit s.cvInReg

/-- The 16 bytes of STATUS (Table 15.7). -/
def State.hingeStatus (s : State) : List Byte :=
  le 4 s.hinge.epoch.toNat ++ le 1 16 ++ le 1 (hingeCode s.hinge.st) ++ le 1 s.hingeFlags ++ le 1 0 ++
    le 4 s.hinge.swSeq.toNat ++ le 4 s.now32

/-- STATUS to ARBNODE with ARBSRC EUVOS (R517). -/
def State.sendStatus (s : State) : State :=
  if s.hinge.hen && s.hinge.euvos then s.sendMsg .a 6 (s.hgf Fld.ARBNODE) 0xFF 0 s.hingeStatus else s

/-- Payload of HINGE_STATE. -/
def State.hingeStatePayload (s : State) (cause : Nat) : List Byte :=
  le 1 (hingeCode s.hinge.st) ++ le 1 cause ++ le 2 0 ++ le 4 s.hinge.swSeq.toNat

/-- A Hinge state is entered: event, record and STATUS (R517, R520). Only a STANDBY shows REVERT. -/
def State.hingeEnter (s : State) (dst : HingeState) (cause : Nat) : State :=
  let s1 := s.updHinge fun h => { h with st := dst, revert := h.revert && dst == .standby }
  (s1.postRec 0x0801 rDevice (s1.hingeStatePayload cause)).sendStatus

/-- HINGE_SWAP (Table 15.10). -/
def State.postSwap (s : State) (result : Nat) : State :=
  let o := (Config.swapOverlap s.free).toNat
  ({ s with free := s.free + 1 }).postRec 0x0802 rDevice (le 1 result ++ le 3 0 ++ le 4 s.hinge.swSeq.toNat ++ le 2 o)

/-- At a start or wake (Table 15.5): HEN, ROLE and ARBSRC take effect; under EUVOS no permission is held until the first
PERMIT (R497). Reset hold and the level of HINGE_GNT are the drive die's and stay; the last EPOCH stays too (log 169). -/
def State.hingeStart (s : State) : State :=
  let hen := s.hgf Fld.HEN == 1
  let eu := s.hgf Fld.ARBSRC == 1
  let old := s.hinge
  let h : Hinge := { (default : Hinge) with
    hen := hen, secondary := s.hgf Fld.ROLE == 1, euvos := eu, permitted := if eu then false else old.gntLevel
    gntLevel := old.gntLevel, resetHold := old.resetHold, epoch := old.epoch, st := .solo }
  let s1 := { s with hinge := h }
  if hen then s1.hingeEnter .standby 0 else s1

/-! ### Mirror records (Table 15.4) -/

/-- Fields that are per chip and not mirrored (R496), and the BUCK target, which the converter's record carries. -/
def perChip (k : FKey) : Bool :=
  k == kBuckTarget || k.code == 0x78 || k.code == 0xF9 || k.code == 0xF1 ||
    (k.code == 0x73 && [Fld.PHMASK, Fld.SPMASK, Fld.TSW, Fld.PHSHUNT, Fld.RPH0, Fld.PHNTC].contains (k.code, k.ord))

def State.chanRec (s : State) (n : Fin 64) : LinkRec :=
  let c := s.ch[n]
  .chan n (BitVec.ofNat 3 (chStCode c.st)) (BitVec.ofNat 5 (causeCode c.cause)) (BitVec.ofNat 2 (clsCode (s.chClass n)))
    (s.chf n Fld.HOLD == 1) (s.waiting n) (if c.st == .ramp then s.fr.count - c.t0 else 0) (if c.st == .ramp then c.energy else 0)

def State.convRec (s : State) : LinkRec :=
  .conv (BitVec.ofNat 2 (cvModeCode s.cv.mode)) s.buckCode s.cv.gen.p s.cv.gen.v s.cv.gen.a

def State.zoneRec (s : State) : LinkRec :=
  .zone (BitVec.ofNat 2 (huCode s.zone.hu)) s.zone.huCause s.zone.iso s.zone.corn (s.fr.count - s.zone.cornAt)

/-- Channel and converter records: what a NAK asks for (R507). -/
def State.targetRecs (s : State) : List LinkRec := allCh.map s.chanRec ++ [s.convRec, s.zoneRec]

/-- Every on-change record as it stands now. -/
def State.changeRecs (s : State) : List LinkRec :=
  s.targetRecs ++ (allCh.map fun n => LinkRec.thresholds n (s.ch[n]).cmp (s.ch[n]).creep.creepk) ++
    ((s.settings.filter fun p => !perChip p.1).map fun p => LinkRec.setting p.1.code p.1.res p.1.ord p.1.idx p.2)

/-- The records of every Period. -/
def State.periodRecs (s : State) : List LinkRec :=
  let b := s.bat
  let flags := bit b.unconf + 2 * bit b.relearn + 4 * bit b.capLearned + 8 * bit b.resLearned + 16 * bit b.uncertain +
    32 * bit b.corr
  let creep (n : Fin 64) : LinkRec :=
    let c := (s.ch[n]).creep
    .creep n c.fsoa c.creepk c.red c.rho c.zratio
  [ .nodes (s.ch.map (·.tc)) (s.ch.map (·.ti)),
    .capping (s.znf Fld.CAP) (s.zone.restore.map (·.ch)) s.zone.capRun,
    .battery b.soc b.u b.q b.uq b.rl b.conf (BitVec.ofNat 6 flags) ] ++ allCh.map creep ++
  [ .means (s.ch.map (·.meanI)) (s.ch.map (·.meanV)) (Vector.ofFn fun (i : Fin 5) => s.g4v ⟨16 + i.val, by omega⟩),
    .digest s.tmb.digest ]

/-- The targets that an OFFER's CRC covers: Channels, converter, isolation switch, Cornice (R506). -/
def State.frozenTargets (s : State) : List Nat :=
  let (m, t) : Nat × Nat := if s.drives then (cvModeCode s.cv.mode, s.buckCode) else
    match s.hinge.mirror.conv with
    | some (m, t, _) => (cvModeCode m, t)
    | none => (0, 0)
  (allCh.map fun n => chStCode (s.ch[n]).st) ++ [m, t, bit s.zone.iso, bit s.zone.corn]

def State.offerRec (s : State) : LinkRec :=
  .offer s.hinge.swSeq (BitVec.ofNat 32 s.fr.count) (Config.targetCrc s.frozenTargets)

def chStOf (x : BitVec 3) : ChState :=
  match ([.off, .ramp, .on, .tripped, .lockout, .held, .fetFault] : List ChState)[x.toNat]? with
  | some c => c
  | none => .off

def causeOf (x : BitVec 5) : Cause :=
  match ([.none, .tumblerRamp, .comparator, .shortRamp, .rampTimeout, .wireModel, .arc, .setMember, .gateFail, .fetShort,
    .thermal, .holdupShed, .capShed, .pumpFail, .senseFail, .reset, .command, .admitted] : List Cause)[x.toNat]? with
  | some c => c
  | none => .none

def huOf (x : BitVec 2) : HuState :=
  if x == 0 then .normal else if x == 1 then .holdup else if x == 2 then .ret else .spent

def cvModeOf (x : BitVec 2) : CvMode := if x == 1 then .buck else if x == 2 then .boost else .idle

/-- A mirrored Channel: the targets at takeover. -/
def State.takeChan (s : State) (n : Fin 64) (st : ChState) (cause : Cause) (queued : Bool) (age : Nat) (energy : ℚ) :
    State :=
  let g : Gate := if st == .on || st == .held then .full else if st == .ramp then .ramp else .low
  let s1 := s.updCh n fun c => { c with
    st := st, cause := cause, gateNext := g, t0 := s.fr.count - age, energy := if st == .ramp then energy else c.energy
    lastTr := if c.st == st then c.lastTr else s.fr.count
    retryAt := if st == .tripped then c.retryAt else none, retryOwed := c.retryOwed && st == .tripped }
  if queued then s1.admAdd ⟨n, .host, s.fr.count, false, none, 0⟩
  else { s1 with adm := s1.adm.filter fun e => e.ch != n }

/-- Mirrored wire-model nodes raise the chip's own (Table 15.4); until the first complete resync they are also kept. -/
def State.takeNodes (s : State) (tc ti : Vector Int 64) : State :=
  let s1 := s.updHinge fun h => { h with mirror := { h.mirror with
    nodes := if h.mirror.nodesOk then none else some (tc, ti) } }
  s1.mapCh fun n c => { c with tc := max c.tc tc[n], ti := max c.ti ti[n] }

/-- At the first complete resync of a start the mirrored nodes replace those of R211, where no Channel is HELD (R504). -/
def State.firstNodes (s : State) : State :=
  match s.hinge.mirror.nodes with
  | some (tc, ti) =>
    let s1 := s.mapCh fun n c => if c.st == .held then c else { c with tc := tc[n], ti := ti[n] }
    s1.updHinge fun h => { h with mirror := { h.mirror with nodes := none } }
  | none => s

def Mirror.withMeans (m : Mirror) (i v : Vector ℚ 64) (g : Vector ℚ 5) : Mirror :=
  { m with meanI := i, meanV := v, g4 := g }

/-- A mirror record received by a chip that does not drive. -/
def State.mirrorRec (r : LinkRec) (s : State) : State :=
  match r with
  | .chan n st cause _ hold queued age energy =>
    let s1 := s.takeChan n (chStOf st) (causeOf cause) queued age energy
    ({ s1 with settings := storeSet ⟨0x43, n.val, 1, 0⟩ (bit hold) s1.settings }).storeSettings
  | .thresholds n cmp ck => s.updCh n fun c => { c with cmp := cmp, cmpNext := cmp, creep := { c.creep with creepk := ck } }
  | .conv m t p v a =>
    s.updHinge fun h => { h with mirror := { h.mirror with conv := some (cvModeOf m, t, p, v, a) } }
  | .zone hu cause iso corn age => s.updZone fun z =>
    { z with hu := huOf hu, huCause := cause, iso := iso, corn := corn, cornAt := s.fr.count - age }
  | .setting code res ord idx v =>
    if perChip ⟨code, res, ord, idx⟩ then s
    else ({ s with settings := storeSet ⟨code, res, ord, idx⟩ v s.settings }).storeSettings
  | .nodes tc ti => s.takeNodes tc ti
  | .capping cap restore dwell =>
    (({ s with settings := storeSet ⟨0x97, rZone, Fld.CAP.2, 0⟩ cap s.settings }).storeSettings).updZone fun z =>
      { z with restore := restore.map (fun n => (⟨n, false⟩ : RestEnt)), capRun := dwell }
  | .battery soc u q uq rl conf f =>
    { s with bat := { s.bat with
      started := true, soc := soc, u := u, q := q, uq := uq, rl := rl, conf := conf, unconf := f.getLsbD 0
      relearn := f.getLsbD 1, capLearned := f.getLsbD 2, resLearned := f.getLsbD 3, uncertain := f.getLsbD 4
      corr := f.getLsbD 5 } }
  | .creep n fsoa ck red rho z =>
    s.updCh n fun c => { c with creep := { c.creep with fsoa := fsoa, creepk := ck, red := red, rho := rho, zratio := z } }
  | .means i v g => s.updHinge fun h => { h with mirror := h.mirror.withMeans i v g }
  | .digest w => s.updHinge fun h => { h with mirror := { h.mirror with digest := some w } }
  | .offer _ _ _ => s
  | .ack => s
  | .nak => s
  | .resyncEnd => s

/-- R509: while both chips drive, a trip on the other chip is applied here. -/
def State.sharedTrip (r : LinkRec) (s : State) : State :=
  match r with
  | .chan n st cause _ _ _ _ _ =>
    if chStOf st == .tripped && driven (s.ch[n]).st then s.raise1 n (causeOf cause) .tripped else s
  | _ => s

/-! ### Release and take -/

/-- The outputs are released (R495, R498, R508): no gate, discharge, AUX or PD output acts. The converter runs on with its
reference held for at most 25,000 Frames (R510). A HANDOVER is done. -/
def State.hingeRelease (s : State) (cause : Nat) : State :=
  let swap := s.hinge.swap && s.hinge.st == .handing
  let s1 := s.updHinge fun h => { h with
    driving := false, resetHold := false, releaseNext := false, swap := false, cvAs := none
    nSwaps := if swap then min 65535 (h.nSwaps + 1) else h.nSwaps
    handEnd := if s.cv.mode == .idle then none else some (s.fr.count + 25000)
    mirror := { h.mirror with
      seq := none, complete := true, nodesOk := true
      conv := some (s.cv.mode, s.buckCode, s.cv.gen.p, s.cv.gen.v, s.cv.gen.a) }
    cleanRun := 0, failRun := 0, decisions := [], decPrev := [] }
  let s2 := s1.mapCh fun _ c => { c with sink := .none }
  let s3 := overL (List.finRange 4) (fun r s =>
    (s.auxOff r).completeOuts (fun o => isAuxSet r o.wait) fun o s => s.finish o.cmd 0x12 (some s.fr.count)) s2
  let s4 := s3.hingeEnter (if s.hinge.permitted then .standby else .out) cause
  s4.completeOuts (fun o => o.wait == .handover) fun o s => s.finish o.cmd 0 (some s.fr.count)

/-- The converter of a taking chip starts under R281 with its own Phases, in BUCK, or straight in BOOST (R510). -/
def State.cvTake (s : State) (m : CvMode) : State :=
  if m == .idle || s.cv.mode == m then s
  else
    let s1 := s.updCv fun c => { c with
      mode := m, modeNext := none, start := .running s.fr.count, startLeft := s.nMin - 1, enableNs := -s.frameNs, regRun := 0
      shed := none, holdEnd := none }
    (((s1.addPhases 1 true).initLaw m (if m == .boost then s.hvSet else s.buckV)).rotate).updHinge
      fun h => { h with cvAs := some m }

/-- The first drive tick (R505, R507): the staged targets apply; a Channel in RAMP goes on from the mirrored time zero and
energy with its reference at the latched output. -/
def State.takeOver (s : State) : State :=
  let s1 := s.updHinge fun h => { h with
    driving := true, resetHold := false, handEnd := none, sentRecs := [], noPulseRun := 0, missRun := 0, partnerLost := !h.linkUp }
  let s2 := s1.mapCh fun n c =>
    if c.st == .ramp then
      { c with
        gate := c.gateNext, latch := false, refStart := min c.vP (s.vsup n), ref := min c.vP (s.vsup n)
        slope := (s.lf n Fld.SR : ℚ) / 10, clamp := (s.lf n Fld.ILIM : ℚ) / 100 / (s.setSize n : ℚ) }
    else { c with gate := c.gateNext, latch := false }
  if s.hinge.cold then s2
  else
    let s3 := s2.updZone fun z => { z with first := false }
    match s.hinge.mirror.conv with
    | some (m, t, _, _, _) =>
      (s3.putBuck t).cvTake (if s.zone.hu == .holdup then .boost else m)
    | none => s3

/-- A STANDBY enters TAKING. -/
def State.hingeTake (s : State) (cause : Nat) (swap : Bool) : State :=
  (s.updHinge fun h => { h with swap := swap, takeCause := cause, cold := cause == 4 }).hingeEnter .taking cause

/-! ### Frames of the link (R499-R509) -/

/-- A partner that stands ready for a swap. -/
def State.partnerStandby (s : State) : Bool := s.hinge.linkUp && s.hinge.partner == 2 && s.hinge.partnerFlags.getLsbD 3

/-- S5 of a Frame: HANDING is entered for a lost permission at once, for REVERT and HANDOVER at a quiet point and never in
hold-up (R506, R511, R515, R518). Every command whose process goes on in the partner completes with 0x01 (R506, log 205). -/
def State.enterHanding (s : State) (cause : Nat) : State :=
  let s1 := s.updHinge fun h => { h with swSeq := h.swSeq + 1, swap := true, missRun := 0, releaseNext := false }
  let s2 := s1.completeOuts (fun o => o.wait.passes) fun o s => s.complete o.cmd 1 none (evt := o.wait.admits)
  let s3 := s2.updHinge fun h => { h with outRecs := h.outRecs ++ [s2.offerRec] }
  s3.hingeEnter .handing cause

/-- Class A commands outstanding beside a HANDOVER. -/
def State.quietA (s : State) : Bool :=
  let own := (s.outs.filter fun o => o.wait == .handover && (s.qs[o.cmd.q]).cls == .a).length
  s.outstandingA ≤ own

def State.hingeS5 (s : State) : State :=
  if !s.hinge.hen then s
  else
    let tripped := allCh.any fun n => (s.ch[n]).lastTr == s.fr.count && protCause (s.ch[n]).cause && (s.ch[n]).st != .on
    let noisy := s.hinge.noisy || (allCh.any fun n => (s.ch[n]).st == .ramp) || tripped || !s.quietA
    let last := s.fr.count % 250 == 249
    let quiet := last && !noisy
    let s1 := s.updHinge fun h => { h with noisy := noisy && !last, quiet := if last then !noisy else h.quiet }
    if s.hinge.st != .active then s1
    else if !s.hinge.permitted then s1.enterHanding 6
    else if quiet && s.zone.hu == .normal then
      if !s.primary && s.hinge.partnerFlags.getLsbD 5 && s.hinge.partner == 2 then s1.enterHanding 1
      else if s.outs.any (fun o => o.wait == .handover) then
        let s2 := s1.startOuts fun o => o.wait == .handover
        s2.enterHanding 1
      else s1
    else s1

/-- The link frame of a tick: control records, then what changed since the last frame, all records for a resync. The
bound of 176 bytes on the record area is not kept (log 58). -/
def State.sendLink (s : State) : State :=
  let h := s.hinge
  let cur := s.changeRecs
  let changed := if !s.drives then [] else if h.resync then cur else cur.filter fun r => !h.sentRecs.contains r
  let ctl := h.outRecs ++ (if h.acking then [.ack] else [])
  let recs := (if h.resync then changed ++ s.periodRecs ++ [.resyncEnd] else changed) ++ ctl
  let f : LinkFrame := ⟨true, BitVec.ofNat 3 (hingeCode h.st), BitVec.ofNat 8 s.hingeFlags, h.swSeq, h.mirSeq, recs⟩
  s.updHinge fun h => { h with
    outRecs := [], resync := false, sent := some f, mirSeq := h.mirSeq + BitVec.ofNat 32 recs.length
    sentRecs := if s.drives then cur else [] }

/-- The state changes of a tick. -/
def State.hingeMove (s : State) (pulse : Bool) (beat : Bool) : State :=
  let h := s.hinge
  match h.st with
  | .handing => if !h.permitted then s.hingeRelease 6 else if h.releaseNext then s.hingeRelease 9 else s
  | .active => s
  | .taking =>
    if !h.driving then
      if !h.permitted then s.hingeEnter .out 6
      else if h.swap then (s.takeOver).updHinge fun h => { h with acking := true }
      else if pulse then s.hingeEnter .standby h.takeCause
      else
        let s1 := (s.takeOver).updHinge fun h => { h with nTakeovers := min 65535 (h.nTakeovers + 1) }
        s1.hingeEnter .active h.takeCause
    else if !h.permitted then s.hingeRelease 6
    else
      let seen := beat && (h.partner == 2 || h.partner == 5)
      if seen || h.missRun ≥ 2 then
        let s1 := s.updHinge fun h => { h with
          acking := false, swap := false, nSwaps := min 65535 (h.nSwaps + 1), accSeq := h.swSeq }
        (s1.hingeEnter .active 1).postSwap (if seen then 0 else 1)
      else s
  | .standby =>
    if !h.permitted then s.hingeEnter .out 6
    else if beat && (h.partner == 2 || h.partner == 5) && !h.partnerFlags.getLsbD 2 && h.mirror.complete then
      s.hingeTake 3 false
    else s
  | .out => s
  | .solo => s

/-- The tick of the pair (R498-R508): a Frame without a heartbeat is counted, the states move, the link frame goes out. -/
def State.hingeTick (s : State) : State :=
  if !s.hinge.hen then s
  else
    let h := s.hinge
    let any := h.pulseNow || h.holdNow
    let s1 := s.updHinge fun h => { h with
      missRun := if h.gotBeat then 0 else h.missRun + 1
      nMissed := if h.gotBeat then h.nMissed else min (2 ^ 32 - 1) (h.nMissed + 1)
      noPulseRun := if any then 0 else h.noPulseRun + 1
      pulseNow := false, holdNow := false, gotBeat := false
      cvAs := if s.cvInReg || s.cv.mode == .idle then none else h.cvAs }
    (s1.hingeMove h.pulseNow h.gotBeat).sendLink

/-- An OFFER (R507): accepted with a SWSEQ above the last one accepted, the mirror complete and permission held; a CRC that
differs from the mirror's is answered by NAK. -/
def State.takeOffer (s : State) (seq crc : Word) : State :=
  let h := s.hinge
  if h.st == .standby && h.accSeq.toNat < seq.toNat && h.mirror.complete && h.permitted then
    if crc == Config.targetCrc s.frozenTargets then
      (s.updHinge fun h => { h with swSeq := seq, accSeq := seq }).hingeTake 1 true
    else s.updHinge fun h => { h with outRecs := h.outRecs ++ [.nak] }
  else s

/-- A control record of a link frame. -/
def State.controlRec (f : LinkFrame) (r : LinkRec) (s : State) : State :=
  match r with
  | .offer seq _ crc => s.takeOffer seq crc
  | .ack => if s.hinge.st == .handing then s.updHinge fun h => { h with releaseNext := true } else s
  | .nak =>
    if s.hinge.st == .handing then
      (s.updHinge fun h => { h with outRecs := s.targetRecs ++ [s.offerRec] }).postSwap 3
    else s
  | .resyncEnd =>
    if s.drives then s
    else s.firstNodes.updHinge fun h => { h with
      mirror := { h.mirror with complete := true, nodesOk := true }, swSeq := f.swSeq, accSeq := f.swSeq }
  | _ => s

/-- A heartbeat ends a lost link (R500, R520). -/
def State.linkBeat (s : State) (f : LinkFrame) : State :=
  let up := s.hinge.linkUp
  let pulses := s.hinge.noPulseRun == 0 || s.hinge.pulseNow || s.hinge.holdNow
  let s1 := s.updHinge fun h => { h with
    gotBeat := true, missRun := 0, linkUp := true, partnerLost := false, partnerSeen := true
    partnerDrove := h.partnerDrove || f.flags.getLsbD 2, partner := f.state, partnerFlags := f.flags
    resync := h.resync || (s.drives && !f.flags.getLsbD 6 && (f.state == 2 || f.state == 5)) }
  let s2 := if up then s1 else s1.postRec 0x0804 rDevice (le 1 1 ++ le 1 (bit pulses))
  let clash := f.flags.getLsbD 1 && !s.hinge.secondary
  if clash && !s.hinge.conflict then
    (s2.updHinge fun h => { h with conflict := true }).postRec 0x0805 rDevice (le 2 Config.partnerNode.toNat)
  else s2

/-- The mirror sequence: a gap clears mirror complete, which is the request for a resync (R504). -/
def State.linkSeq (s : State) (f : LinkFrame) : State :=
  if s.drives || f.recs.isEmpty then s
  else
    let gap : Bool := match s.hinge.mirror.seq with
      | some e => e != f.mirSeq
      | none => false
    s.updHinge fun h => { h with mirror := { h.mirror with
      seq := some (f.mirSeq + BitVec.ofNat 32 f.recs.length), complete := h.mirror.complete && !gap } }

/-- A link frame received: one whose CRC or lanes fail is no heartbeat and is counted. -/
def State.linkFrame (s : State) (f : LinkFrame) : State :=
  if !s.live || !s.hinge.hen then s
  else if !f.crcOk then s.updHinge fun h => { h with nCrc := min (2 ^ 32 - 1) (h.nCrc + 1), crcPeriod := h.crcPeriod + 1 }
  else
    let s1 := (s.linkBeat f).linkSeq f
    let s2 := if s1.drives then overL f.recs State.sharedTrip s1 else overL f.recs State.mirrorRec s1
    let s3 := overL f.recs (State.controlRec f) s2
    if s3.hinge.st == .taking && !s3.hinge.driving && !s3.hinge.swap && f.state == 1 then
      s3.hingeEnter .standby s3.hinge.takeCause
    else s3

/-! ### The Period: self-test and per-Period records (R504, R514-R517) -/

/-- Sense: own means against the mirrored ones. -/
def State.testSense (s : State) : Bool :=
  let m := s.hinge.mirror
  (allCh.all fun n =>
    let c := s.ch[n]
    c.st == .off || (decide (|c.meanI - m.meanI[n]| * 50 ≤ s.chFs n) && decide (|c.meanV - m.meanV[n]| * 50 ≤ 80))) &&
    (List.finRange 5).all fun (i : Fin 5) =>
      let k : Fin 32 := ⟨16 + i.val, by omega⟩
      decide (|s.g4v k - m.g4[i]| * 100 ≤ |s.g4Fs k|)

/-- Gate readback: GATE_FULL where mirrored ON or HELD, GATE_LOW where mirrored off. -/
def State.testGates (s : State) : Bool :=
  allCh.all fun n =>
    let c := s.ch[n]
    if c.st == .on || c.st == .held then c.gateFull else if c.st == .ramp then true else c.gateLow

/-- The fail mask of Table 15.9, its rows in order from bit 0. A Keyring fault resets the logic die (R555), so that no Period
with one comes to its end here. -/
def State.selfTest (s : State) : Nat :=
  let h := s.hinge
  let core := !h.badPeriod && s.th.level < 2 && s.grp.toList.all fun g => g.health ≤ 1
  let dec := h.decPrev.all fun n => !((s.ch[n]).st == .on || (s.ch[n]).st == .ramp || (s.ch[n]).st == .held)
  bit (!s.testSense) + 2 * bit (!s.testGates) + 4 * bit (!((List.finRange 4).all s.bankPowered)) +
    8 * bit (!(h.mirror.complete && h.crcPeriod ≤ 2)) + 16 * bit (!core) + 32 * bit (h.mirror.digest != some s.tmb.digest) +
    64 * bit (!dec)

/-- The self-test of the Period that ends, on the means published for the one before (R514, R515). -/
def State.hingeTest (s : State) : State :=
  if !s.hinge.hen then s
  else if s.hinge.st == .standby || s.hinge.st == .out then
    let mask := s.selfTest
    let s1 := s.updHinge fun h => { h with
      failMask := mask, cleanRun := if mask == 0 then min (2 ^ 32 - 1) (h.cleanRun + 1) else 0
      failRun := if mask == 0 then 0 else min 65535 (h.failRun + 1), decPrev := h.decisions, decisions := []
      crcPeriod := 0, badPeriod := false }
    let s2 := if mask == 0 then s1
      else s1.postRec 0x0803 rDevice (le 1 mask ++ le 1 0 ++ le 2 s1.hinge.failRun)
    let h := s2.hinge
    if h.st == .standby then
      if h.failRun ≥ 8 || (h.mirror.digest.isSome && h.mirror.digest != some s.tmb.digest) then s2.hingeEnter .out 7
      else if s.primary && s.hgf Fld.REVEN == 1 && h.permitted && h.cleanRun ≥ 1000 then
        s2.updHinge fun h => { h with revert := true }
      else s2
    else if h.permitted && h.linkUp && h.mirror.complete && h.cleanRun ≥ 250 then s2.hingeEnter .standby 7
    else s2
  else s.updHinge fun h => { h with crcPeriod := 0, badPeriod := false, decisions := [], decPrev := [], failMask := 0 }

/-- What the Period sends: the per-Period records of a driving chip, and STATUS. -/
def State.hingePeriod (s : State) : State :=
  if !s.hinge.hen then s
  else (if s.drives then s.updHinge fun h => { h with outRecs := h.outRecs ++ s.periodRecs } else s).sendStatus

/-! ### HINGE messages (R497, R498, R505, R517) -/

/-- A HINGE message of a KIND from a node with a LEN of 16: taken from ARBNODE with a new EPOCH, else dropped and counted.
ok says whether the network path accepted it. -/
def State.hingeMsg (s : State) (kind : Nat) (src : Nat) (p : List Byte) : State :=
  let epoch := getLe p 0 4
  if !(s.hinge.hen && s.hinge.euvos) || src != s.hgf Fld.ARBNODE || p.length != 16 || getLe p 4 1 != kind ||
      !(1 ≤ kind && kind ≤ 3) || epoch ≤ s.hinge.epoch.toNat then
    { s with net := { s.net with hingeDrops := s.net.hingeDrops + 1 } }
  else
    let s1 := s.updHinge fun h => { h with epoch := BitVec.ofNat 32 epoch }
    if kind == 1 then s1.updHinge fun h => { h with permitted := true }
    else if kind == 2 then s1.updHinge fun h => { h with permitted := false }
    else if s.hinge.st == .standby && s.hinge.permitted then s1.hingeTake 5 false
    else s1

/-! ### Meanings -/

/-- R497, R498: under PIN the level that held for 2 samples is the permission. While the logic die is off or in reset the
drive die releases outputs in reset hold itself, and the change is recorded at the next start (R526). SHUTDOWN takes no
notice (R569). -/
def execHingeGnt (level : Bool) (s : State) : Host.Outcome State Fault Refusal :=
  .next (
    if s.pw.mode == .shutdown || s.pw.mode == .off then s
    else
      let changed := level != s.hinge.gntLevel
      let s1 := s.updHinge fun h => { h with gntLevel := level, permitted := if h.euvos then h.permitted else level }
      let s2 := if s1.hinge.resetHold && !level && !s1.hinge.euvos then s1.updHinge fun h => { h with resetHold := false } else s1
      if changed && s.pw.logic != .running && s.hinge.hen then s2.keepEvent 0x0801 rDevice (s2.hingeStatePayload 6) else s2)

/-- R508, R512: a handing chip and a drive die in reset hold release at the first partner pulse. Without a pair the pin is
tied. -/
def execPartnerPulse (hold : Bool) (s : State) : Host.Outcome State Fault Refusal :=
  .next (
    if !s.hinge.hen then s
    else
      let s1 := s.updHinge fun h => { h with
        pulseNow := h.pulseNow || !hold, holdNow := h.holdNow || hold, pulseEver := true, resetHold := false
        partnerDrove := h.partnerDrove || !hold }
      if s.live && s.hinge.st == .handing && s.hinge.driving then s1.hingeRelease 9 else s1)

/-- A link frame (R500, R504). -/
def execHeartbeat (f : LinkFrame) (s : State) : Host.Outcome State Fault Refusal := .next (s.linkFrame f)

/-- Whether a frame carries a record of a kind. -/
def LinkRec.isOffer : LinkRec → Bool
  | .offer _ _ _ => true
  | _ => false

/-- A link frame that carries an OFFER (R506, R507). -/
def execOffer (f : LinkFrame) (s : State) : Host.Outcome State Fault Refusal :=
  .next (if f.recs.any LinkRec.isOffer then s.linkFrame f else s)

/-- A link frame that carries an ACK (R508). -/
def execAck (f : LinkFrame) (s : State) : Host.Outcome State Fault Refusal :=
  .next (if f.recs.contains .ack then s.linkFrame f else s)

/-- A link frame that carries a NAK (R507). -/
def execNak (f : LinkFrame) (s : State) : Host.Outcome State Fault Refusal :=
  .next (if f.recs.contains .nak then s.linkFrame f else s)

/-- A link frame that carries a RESYNC_END (R504). -/
def execResyncEnd (f : LinkFrame) (s : State) : Host.Outcome State Fault Refusal :=
  .next (if f.recs.contains .resyncEnd then s.linkFrame f else s)

/-- 25 consecutive missed heartbeats (R500, Table 15.5). -/
def execHingeLinkLost (s : State) : Host.Outcome State Fault Refusal :=
  .next (
    if s.live && s.hinge.hen && s.hinge.linkUp && s.hinge.missRun ≥ 25 then
      let pulses := s.hinge.noPulseRun == 0
      let s1 := (s.updHinge fun h => { h with linkUp := false, partnerLost := h.partnerLost || h.st == .active }).postRec
        0x0804 rDevice (le 1 0 ++ le 1 (bit pulses))
      if s.hinge.st == .standby && pulses then s1.hingeEnter .out 8 else s1
    else s)

/-- R505: the partner is absent. -/
def execPartnerAbsent (s : State) : Host.Outcome State Fault Refusal :=
  let h := s.hinge
  .next (
    if s.live && h.st == .standby && h.permitted && h.partnerDrove && h.missRun ≥ 2 && h.noPulseRun ≥ 2 && !h.pulseNow &&
        !h.holdNow && !h.gotBeat && h.mirror.complete then s.hingeTake 2 false
    else s)

/-- Table 15.5: 2 missed heartbeats from the taking chip and no partner pulse; the swap is aborted. -/
def execHandingRegain (s : State) : Host.Outcome State Fault Refusal :=
  let h := s.hinge
  .next (
    if s.live && h.st == .handing && h.driving && h.missRun ≥ 2 && !h.gotBeat && h.noPulseRun ≥ 1 && !h.pulseNow &&
        !h.holdNow then
      let s1 := s.updHinge fun h => { h with
        swap := false, releaseNext := false, outRecs := [], nAborts := min 65535 (h.nAborts + 1) }
      ((s1.hingeEnter .active 10).postSwap 2).completeOuts (fun o => o.wait == .handover)
        fun o s => s.finish o.cmd 0x12 (some s.fr.count)
    else s)

/-- R505: the start is cold; the primary takes at once, the secondary after 250 Frames. -/
def execColdStartTake (s : State) : Host.Outcome State Fault Refusal :=
  let h := s.hinge
  let due : Bool := match h.step17 with
    | some f => f + (if s.primary then 0 else 250) ≤ s.fr.count
    | none => false
  .next (if s.live && h.st == .standby && h.permitted && due == true && !h.pulseEver then s.hingeTake 4 false else s)

/-- R510: the former handing chip's converter sheds its Phases and goes IDLE. -/
def execConverterHandoverEnd (s : State) : Host.Outcome State Fault Refusal :=
  .next (
    match s.hinge.handEnd with
    | none => s
    | some f =>
      if s.live && !s.drives && (s.hinge.partnerFlags.getLsbD 7 || f ≤ s.fr.count) then
        (s.updHinge fun h => { h with handEnd := none }).updCv fun c => { c with dorm := some s.fr.count, shed := none }
      else s)

/-- The checks of cmdHingeCmd beside the ones that every command has (R433). -/
def chkHingeCmd (t : Taken) (s : State) : List (Nat × Bool) :=
  let a := t.p 16 1
  let st := s.hinge.st
  [ (0x22, a > 2), (0x12, a == 0 && !(st == .active && s.partnerStandby)), (0x12, a == 1 && st != .active) ]

/-- HINGE_CMD (R518). -/
def cmdHingeCmd (t : Taken) (s : State) : State :=
  let a := t.p 16 1
  s.guarded t (chkHingeCmd t s) fun s => if a == 0 then s.await t .handover else s.stage t .tick [(⟨kHinge, rDevice, a, 0⟩, 0)]

/-- The actions of HINGE_CMD that apply at a tick. -/
def State.hingeAction (s : State) (a : Nat) : State :=
  if a == 1 then s.updHinge fun h => { h with resync := h.st == .active }
  else s.updHinge fun h => { h with nSwaps := 0, nAborts := 0, nTakeovers := 0, nMissed := 0, nCrc := 0 }

/-- HINGE_READ data (R519; log 176). -/
def State.hingeData (s : State) : List Byte :=
  let h := s.hinge
  le 1 (hingeCode h.st) ++ le 1 s.hingeFlags ++ le 1 h.partner.toNat ++ le 1 h.failMask ++ le 4 h.swSeq.toNat ++
    le 4 h.cleanRun ++ le 2 h.nSwaps ++ le 2 h.nAborts ++ le 2 h.nTakeovers ++ le 4 h.nMissed ++ le 4 h.nCrc ++ le 6 0

def cmdHingeRead (t : Taken) (s : State) : State :=
  s.guarded t [] fun s =>
    match s.mustWait t.q with
    | some f => s.await t (.readAfter f)
    | none =>
      let (r, s1) := s.openResult
      s1.readDone t r s.hingeData

def execHingeHandover (q : Fin 32) (d : CmdArgs) (s : State) : Host.Outcome State Fault Refusal :=
  .next (s.rowCmd cmdHingeCmd 0x0802 q (withAction d 0))
def execHingeResync (q : Fin 32) (d : CmdArgs) (s : State) : Host.Outcome State Fault Refusal :=
  .next (s.rowCmd cmdHingeCmd 0x0802 q (withAction d 1))
def execHingeCounterClear (q : Fin 32) (d : CmdArgs) (s : State) : Host.Outcome State Fault Refusal :=
  .next (s.rowCmd cmdHingeCmd 0x0802 q (withAction d 2))
def execHingeRead (q : Fin 32) (d : CmdArgs) (s : State) : Host.Outcome State Fault Refusal :=
  .next (s.rowCmd cmdHingeRead 0x0803 q d)

end Sys2Proof.Machine
end

