-- ==== Sys2Proof/Machine/Reset.lean ====
section
/-! DEFINITION. What survives a loss of the logic die and a loss of supply, and the logic-die reset as one operation
(R79-R82, R171, R512, R555, R642, Table 11.8). -/

namespace Sys2Proof.Machine

open Sys2Proof

def State.updPw (s : State) (f : Power → Power) : State := { s with pw := f s.pw }
def State.updKrg (s : State) (f : Krg → Krg) : State := { s with krg := f s.krg }
def State.updFr (s : State) (f : Frm → Frm) : State := { s with fr := f s.fr }
def State.updClk (s : State) (f : Clk → Clk) : State := { s with clk := f s.clk }
def State.updPump (s : State) (f : Pumps → Pumps) : State := { s with pump := f s.pump }

/-! ### What is kept -/

/-- Creep records in Firn: baselines, result slots, history (Table 1.4). -/
def CreepSt.carry (c : CreepSt) : CreepSt :=
  { (default : CreepSt) with
    ron0 := if c.baseLate then 0 else c.ron0, zth0 := if c.baseLate then 0 else c.zth0
    ronLearned := c.ronLearned && !c.baseLate, zthLearned := c.zthLearned && !c.baseLate, slot0 := c.slot0
    slot1 := c.slot1, histRho := c.histRho, hist := c.hist, histSeq := c.histSeq
    lifeRon := c.lifeRon, lifeZth := c.lifeZth, baseSeq := c.baseSeq, basePlen := c.basePlen }

/-- A Channel over a loss of the logic die: state and outputs on the drive die, Tumbler's counters, the trip count, the
Firn records; meters are cleared (R171). -/
def Chan.carry (c : Chan) : Chan :=
  { (default : Chan) with
    st := c.st, cause := c.cause, mask := c.mask, gate := c.gate, gateNext := c.gateNext, sink := c.sink, sinkAt := c.sinkAt
    latch := c.latch, cmp := c.cmp, cmpNext := c.cmp, cmpTrip := c.cmpTrip, k := c.k, retryOwed := c.retryOwed, tmb := { c.tmb with permit := none }
    creep := c.creep.carry }

/-- A sense Group: retirements are in Firn (R101); corrections start again, and the settings of group 0x05 are at their
defaults (log 65). -/
def Group.carry (g : Group) : Group :=
  let slice (x : Slice) : Slice := { (default : Slice) with retired := x.retired }
  { Group.fresh with slices := g.slices.map slice, retired := g.retired, vacant := g.vacant, health := g.health }

/-- The converter: the last-fault records, and the learned values as their slots hold them (R260). -/
def Conv.carry (c : Conv) : Conv :=
  Conv.load { (default : Conv) with rec0 := c.rec0, rec1 := c.rec1, slot0 := c.slot0, slot1 := c.slot1 }

/-- Icecore: the ring, the reservation and what a clear has bounded; what the keep-alive domain holds (R526, R531). -/
def Ice.carry (i : Ice) : Ice :=
  { (default : Ice) with
    next := i.next, issued := i.issued, rsv0 := i.rsv0, rsv1 := i.rsv1, ring := i.ring, clearedHead := i.clearedHead, torn := i.torn
    kept := i.kept, keptLost := i.keptLost }

def Upd.carry (u : Upd) : Upd :=
  { (default : Upd) with
    slotA := u.slotA, slotB := u.slotB, shadow := u.shadow, rec0 := u.rec0, rec1 := u.rec1, set0 := u.set0, set1 := u.set1, kept := u.kept }

/-- The Queues with the bindings that Firn holds. -/
def State.boundQs (s : State) : Vector Queue 32 :=
  match s.upd.savedQ with
  | some (a, b) => (s.qs.set 4 a).set 29 b
  | none => s.qs

def PdPort.carry (p : PdPort) : PdPort := { (default : PdPort) with life := p.firn, firn := p.firn, corrosion := p.corrosion }

/-- A Queue: its binding (R382). -/
def Queue.carry (k : Queue) : Queue :=
  { (default : Queue) with isEvent := k.isEvent, cls := k.cls, path := k.path, owner := k.owner, dlog := k.dlog, dest := k.dest }

/-- What Firn, OTP and flash hold, everything else as before power. -/
def State.stored (s : State) : State :=
  { State.reset with
    settings := s.settings
    grp := s.grp.map Group.carry
    ch := s.ch.map fun c => { (default : Chan) with creep := c.creep.carry }
    cv := s.cv.carry
    zone := { (default : Zone) with order := s.zone.order }
    bat := { (default : Bat) with slot0 := s.bat.slot0, slot1 := s.bat.slot1, torn := s.bat.torn }
    qs := s.boundQs.map Queue.carry
    owners := s.owners
    resOwner := s.resOwner
    ccount := s.ccountFirn
    ccountFirn := s.ccountFirn
    ice := { s.ice.carry with kept := [], keptLost := 0 }
    pd := s.pd.map PdPort.carry
    upd := s.upd.carry
    otp := s.otp
    mem := { (default : Mem) with firnSpares := s.mem.firnSpares, firnFor := s.mem.firnFor + (s.fr.drive - s.mem.firnAt) }
    snap0 := s.snap0
    snap1 := s.snap1
    free := s.free
    pending := s.pending
    acoh := 4 }

/-- What holds on a logic-die reset beside Firn: the drive die and the keep-alive domain. -/
def State.kept (s : State) : State :=
  let hold (b : Fin 9) : Bool :=
    (b == 7 && s.hpt.getLsbD 7) || (b == 5 && s.ch.toList.any fun c => c.st == .fetFault) ||
      (b == 4 && s.grp.toList.any fun g => g.health ≥ 2)
  { s.stored with
    ch := Vector.ofFn fun (n : Fin 64) => { (s.ch[n]).carry with cmpGain := s.cmpGain n }
    fr := { (default : Frm) with drive := s.fr.drive }
    mem := { (default : Mem) with
      firnSpares := s.mem.firnSpares, sramAt := s.fr.drive, firnAt := s.mem.firnAt, firnFor := s.mem.firnFor }
    ccount := s.ccount
    ice := s.ice.carry
    zone := { (default : Zone) with order := s.zone.order, iso := s.zone.iso, corn := s.zone.corn }
    hinge := { s.hinge with driving := false, mirror := default, outRecs := [], sent := none }
    tmb := { s.tmb with blocks := 0, clamps := 0 }
    krg := s.krg
    pw := s.pw
    hpt := BitVec.ofNat 9 (((List.finRange 9).map fun b => bit (hold b) * 2 ^ b.val).sum) }

/-! ### Table 2.10 -/

/-- A Channel across a logic-die reset; keep says that the Class or HOLD keeps it in ON. -/
def Chan.atReset (c : Chan) (keep : Bool) (disch drive : Nat) : Chan :=
  let off : Chan := { c with
    st := .off, cause := .reset, mask := BitVec.ofNat 32 (2 ^ causeCode .reset), gate := .low, gateNext := .low
    sink := sinkOf disch, sinkAt := drive }
  match c.st with
  | .on => if keep then { c with st := .held, cause := .reset, mask := BitVec.ofNat 32 (2 ^ causeCode .reset) } else off
  | .ramp => off
  | .held => c
  | _ => { c with gate := .low, gateNext := .low }

/-- A set is held as its leader is Class A or carries HOLD. -/
def State.holds (s : State) (n : Fin 64) : Bool := s.chClass n == .a || s.lf n Fld.HOLD == 1

/-- Keyring at a logic-die reset: BOOT from its release on, a new registration (Table 17.12, R553). The watchdog RC counts
until both PLLs lock (R557). -/
def Krg.atReset (k : Krg) : Krg :=
  if k.st == .boot || k.st == .run then
    { k with st := .boot, count := 0, reg := 0, keys := default, given := 0, dup := 0, bad := 0, lastDup := 0
             regLock := false, clkMain := false, clkFail := false, goodCounts := 0 }
  else k

/-- The states that a start compares with (R641). -/
def State.refStates (s : State) : Vector ChState 64 :=
  if s.fr.running then s.ch.map (·.st) else s.pw.refState

/-- A logic-die reset with its cause, after which the logic die is off, in reset, or at step 4 (R79-R82, R642). In a pair
a chip that drives enters reset hold (R512); in one that stands by Table 2.10 applies, and it drives no gate. While the logic die is off or
held in SHUTDOWN there is nothing to reset. -/
def State.logicReset (s : State) (cause : Nat) (die : LogicDie) (step : Nat) : State :=
  if s.pw.mode == .off || s.pw.mode == .shutdown || s.pw.mode == .dormant || s.pw.logic == .off then s
  else
    let pair := s.hinge.hen && (s.hinge.driving || s.hinge.resetHold)
    let ref := s.refStates
    let s0 := s.compPending
    let heads := allCh.filter fun n => (s0.ch[n]).st == .ramp && s.chClass n == .a && !s.isFollower n && !s.hinge.hen
    let s1 := if pair then s0
      else (s0.mapCh fun n c =>
        let x := c.atReset (s.holds n) (s.lf n Fld.DISCH) s.fr.drive
        if s.hinge.hen then { x with gate := .low, sink := .none } else x).placeSinks
    let s2 := s1.kept
    { s2 with
      hinge := { s2.hinge with resetHold := pair }
      krg := s2.krg.atReset
      pw := { (default : Power) with
        mode := .start, logic := die, step := step, cause := cause, pfw := s.pw.pfw, resetNLow := s.pw.resetNLow
        starts := s.pw.starts, refState := ref, headA := s.pw.headA ++ heads
        faultHeld := s.faultN || s.pw.faultHeld } }

/-- A reset after which the start goes on at step 4 (Table 2.9). Its sources act only while the logic die runs. -/
def State.resetTo4 (s : State) (cause : Nat) : State :=
  if s.pw.logic == .running then s.logicReset cause .running 3 else s

/-- A keep-alive POR: the whole device (R81, R618). -/
def State.porReset (s : State) : State :=
  let s1 := s.stored
  { s1 with pw := { (default : Power) with resetNLow := s.pw.resetNLow, starts := s.pw.starts } }

end Sys2Proof.Machine
end

