-- ==== Sys2Proof/Machine/Tumbler.lean ====
section
/-! DEFINITION. The Tumbler limits and the Keyring watchdog (17): lock and tightening, the digest, the readback registers,
seals, keys, registration and the Keyring faults. -/

namespace Sys2Proof.Machine

open Sys2Proof

/-! ### The limit fields (Table 17.1) -/

/-- Row of Table 17.1. -/
def tmbRow : TmbField → Nat
  | .classA => 0
  | .maxCode => 1
  | .tInrush => 2
  | .soaCeil => 3
  | .tcCeil => 4
  | .tiCeil => 5
  | .retryMin => 6
  | .rateMax => 7
  | .buckWin => 8
  | .boostWin => 9
  | .slewCap => 10
  | .nphMax => 11
  | .hCap => 12

def tmbIsWin (f : TmbField) : Bool := f == .buckWin || f == .boostWin
def tmbIsZone (f : TmbField) : Bool := tmbRow f ≥ 8

/-- Value of an unprogrammed field. -/
def tmbDefault (f : TmbField) (hi : Bool) : Nat :=
  match f with
  | .classA => 0
  | .maxCode => 63
  | .tInrush => 1000
  | .soaCeil => 65535
  | .tcCeil => 250
  | .tiCeil => 200
  | .retryMin => 1
  | .rateMax => 15
  | .buckWin => if hi then 1600 else 1000
  | .boostWin => if hi then 5400 else 2400
  | .slewCap => 1000
  | .nphMax => 16
  | .hCap => 65535

/-- Range of a field. -/
def tmbRange (f : TmbField) : Nat × Nat :=
  match f with
  | .classA => (0, 1)
  | .maxCode => (1, 63)
  | .tInrush => (1, 1000)
  | .soaCeil => (1, 65535)
  | .tcCeil => (60, 250)
  | .tiCeil => (60, 200)
  | .retryMin => (1, 65535)
  | .rateMax => (1, 15)
  | .buckWin => (800, 1600)
  | .boostWin => (2400, 5600)
  | .slewCap => (1, 1000)
  | .nphMax => (1, 16)
  | .hCap => (1, 65535)

def tmbInRange (f : TmbField) (v : Nat) : Bool := (tmbRange f).1 ≤ v && v ≤ (tmbRange f).2

/-- Whether value a is tighter than value b; a window's edges count each for itself (log 73). -/
def tmbTighter (f : TmbField) (hi : Bool) (a b : Nat) : Bool :=
  if f == .retryMin || (tmbIsWin f && !hi) then a > b else a < b

/-- A field's entry in a list of OTP or boot values. -/
def tmbFind (l : List (TmbField × Nat × Bool × Nat)) (f : TmbField) (ch : Nat) (hi : Bool) : Option Nat :=
  (l.find? fun e => e.1 == f && e.2.1 == ch && e.2.2.1 == hi).map fun e => e.2.2.2

/-- The tighter of the OTP and the boot value (R536). A boot value outside the field's range is none (log 73). -/
def State.tmbPick (s : State) (f : TmbField) (ch : Nat) (hi : Bool) : Nat :=
  let o := (tmbFind s.otp.tmb f ch hi).getD (tmbDefault f hi)
  match tmbFind s.tmb.boot f ch hi with
  | some b => if tmbInRange f b && tmbTighter f hi b o then b else o
  | none => o

/-- A window in force; one that the boot values would empty stays as OTP has it (log 73). -/
def State.tmbPickWin (s : State) (f : TmbField) : Nat × Nat :=
  let lo := s.tmbPick f 0 false
  let hi := s.tmbPick f 0 true
  if lo < hi then (lo, hi)
  else ((tmbFind s.otp.tmb f 0 false).getD (tmbDefault f false), (tmbFind s.otp.tmb f 0 true).getD (tmbDefault f true))

/-! ### Registers (Tables 17.3 to 17.9) -/

def State.tmbBuckReg (s : State) : Nat := s.tmb.zone.buckHi * 65536 + s.tmb.zone.buckLo
def State.tmbBoostReg (s : State) : Nat := s.tmb.zone.boostHi * 65536 + s.tmb.zone.boostLo
def State.tmbZoneReg (s : State) : Nat :=
  s.tmb.zone.hCap * 65536 + s.tmb.zone.nphMax % 32 * 1024 + s.tmb.zone.slewCap % 1024
def TmbCh.l0 (t : TmbCh) : Nat :=
  bit t.classA * 2 ^ 31 + t.rateMax % 16 * 2 ^ 24 + t.maxCode % 64 * 2 ^ 18 + t.tcCeil % 256 * 2 ^ 10 + t.tInrush % 1024
def TmbCh.l1 (t : TmbCh) : Nat := t.retryMin * 65536 + t.soaCeil
def TmbCh.l2 (t : TmbCh) : Nat := t.tiCeil

/-- TMB_STAT (Table 17.3). -/
def State.tmbStat (s : State) : Nat :=
  min 255 s.tmb.blocks * 2 ^ 24 + min 255 s.tmb.clamps * 2 ^ 16 + bit s.fr.freeze * 4 + bit s.tmb.bootTab * 2 +
    bit s.tmb.locked

/-- TMB_CHn_CNT (Table 17.9). -/
def State.tmbCnt (s : State) (n : Fin 64) : Nat :=
  let c := s.ch[n]
  let t := c.tmb
  let cnt := (t.starts.filter fun a => s.fr.drive < a + 15000000).length
  let wait := match t.offAt with
    | some a => (a + t.retryMin * frames01s - s.fr.drive + (frames01s - 1)) / frames01s
    | none => 0
  min 15 cnt * 2 ^ 28 + bit (c.st == .ramp) * 65536 + min 65535 wait

/-- TMB_DIGEST over 780 bytes (R546). -/
def State.tmbDigest (s : State) : Word :=
  crc32c (le 4 s.tmbBuckReg ++ le 4 s.tmbBoostReg ++ le 4 s.tmbZoneReg ++
    s.ch.toList.flatMap fun c => le 4 c.tmb.l0 ++ le 4 c.tmb.l1 ++ le 4 c.tmb.l2)

/-! ### Lock and tightening -/

/-- Tumbler locks at the tick of Frame count 0 (R537). -/
def State.tmbLock (s : State) : State :=
  let lim (n : Fin 64) (t : TmbCh) : TmbCh :=
    let p (f : TmbField) : Nat := s.tmbPick f n.val false
    { t with
      classA := (match s.otp.classA with | some m => m.getLsbD n.val | none => false)
      maxCode := p .maxCode, tInrush := p .tInrush, soaCeil := p .soaCeil, tcCeil := p .tcCeil, tiCeil := p .tiCeil
      retryMin := p .retryMin, rateMax := p .rateMax }
  let s1 := s.mapCh fun n c => { c with tmb := lim n c.tmb }
  let buck := s.tmbPickWin .buckWin
  let boost := s.tmbPickWin .boostWin
  let z : TmbZone := ⟨buck.1, buck.2, boost.1, boost.2, s.tmbPick .slewCap 0 false, s.tmbPick .nphMax 0 false,
    s.tmbPick .hCap 0 false⟩
  let s2 := { s1 with tmb := { s1.tmb with locked := true, bootTab := !s1.tmb.boot.isEmpty, zone := z } }
  { s2 with tmb := { s2.tmb with digest := s2.tmbDigest } }

/-- Wire-model limits that lie beyond a ceiling are clamped and recorded (Table 17.2). -/
def State.tmbCeilings (s : State) (n : Fin 64) (tc ti : Bool) : State :=
  if s.isFollower n then s
  else
    let c := (s.ch[n]).tmb
    let a := s.lf n Fld.TCMAX
    let b := s.lf n Fld.TIMAX
    let s1 := when (tc && a > c.tcCeil) (fun s => s.tmbClamp n 2 a) s
    when (ti && b > c.tiCeil) (fun s => s.tmbClamp n 3 b) s1

/-- The records of a lock (Table 17.17). -/
def State.tmbLockRecs (s : State) : State :=
  overL allCh (fun n s => s.tmbCeilings n true true)
    (s.iceRecord 0x0F01 rDevice 0 (le 4 s.tmb.digest.toNat ++ le 1 (bit s.tmb.bootTab)))

/-- The value in force. -/
def State.tmbCur (s : State) (f : TmbField) (n : Fin 64) (hi : Bool) : Nat :=
  let t := (s.ch[n]).tmb
  let z := s.tmb.zone
  match f with
  | .classA => bit t.classA
  | .maxCode => t.maxCode
  | .tInrush => t.tInrush
  | .soaCeil => t.soaCeil
  | .tcCeil => t.tcCeil
  | .tiCeil => t.tiCeil
  | .retryMin => t.retryMin
  | .rateMax => t.rateMax
  | .buckWin => if hi then z.buckHi else z.buckLo
  | .boostWin => if hi then z.boostHi else z.boostLo
  | .slewCap => z.slewCap
  | .nphMax => z.nphMax
  | .hCap => z.hCap

/-- One value put in force. -/
def State.tmbPut (s : State) (f : TmbField) (n : Fin 64) (hi : Bool) (v : Nat) : State :=
  let onCh (g : TmbCh → TmbCh) : State := s.updCh n fun c => { c with tmb := g c.tmb }
  let onZone (g : TmbZone → TmbZone) : State := { s with tmb := { s.tmb with zone := g s.tmb.zone } }
  match f with
  | .classA => s
  | .maxCode => onCh fun t => { t with maxCode := v }
  | .tInrush => onCh fun t => { t with tInrush := v }
  | .soaCeil => onCh fun t => { t with soaCeil := v }
  | .tcCeil => onCh fun t => { t with tcCeil := v }
  | .tiCeil => onCh fun t => { t with tiCeil := v }
  | .retryMin => onCh fun t => { t with retryMin := v }
  | .rateMax => onCh fun t => { t with rateMax := v }
  | .buckWin => onZone fun z => if hi then { z with buckHi := v } else { z with buckLo := v }
  | .boostWin => onZone fun z => if hi then { z with boostHi := v } else { z with boostLo := v }
  | .slewCap => onZone fun z => { z with slewCap := v }
  | .nphMax => onZone fun z => { z with nphMax := v }
  | .hCap => onZone fun z => { z with hCap := v }

/-- Whether the internal write port may put a value in force: tighter, in range, no window emptied, CLASSA never
(R538). -/
def State.tmbAccepts (s : State) (f : TmbField) (n : Fin 64) (hi : Bool) (v : Nat) : Bool :=
  f != .classA && tmbInRange f v && tmbTighter f hi v (s.tmbCur f n hi) &&
    (!tmbIsWin f || (if hi then s.tmbCur f n false < v else v < s.tmbCur f n true))

/-- TUMBLER_TIGHTEN: a write of the Supervisor's internal port after lock (R538), but for one whose word the die-to-die link loses
(R11). -/
def execTumblerTighten (f : TmbField) (ch : Nat) (hi : Bool) (val : Nat) (s : State) : Host.Outcome State Fault Refusal :=
  .next (
    if (tmbIsZone f || ch < 64) && s.live && s.tmb.locked &&
        (tmbIsZone f || !s.linkLost.contains (.limit (finOf 64 ch (by decide)))) then
      let n : Fin 64 := if h : ch < 64 then ⟨ch, h⟩ else 0
      let hi' := hi && tmbIsWin f
      let src := if tmbIsZone f then rZone else n.val
      let head := le 1 (tmbRow f) ++ le 1 (bit hi') ++ le 2 0 ++ le 4 val
      if s.tmbAccepts f n hi' val then
        let s1 := s.tmbPut f n hi' val
        let s2 := { s1 with tmb := { s1.tmb with digest := s1.tmbDigest } }
        (s2.iceRecord 0x0F04 src 0 (head ++ le 4 s2.tmb.digest.toNat)).tmbCeilings n (f == .tcCeil) (f == .tiCeil)
      else s.iceRecord 0x0F05 src 1 head
    else s)

/-! ### Keyring: periods and registers -/

def krgCode : KrgState → Nat
  | .off => 0
  | .boot => 1
  | .run => 2
  | .dormant => 3
  | .safe => 4

/-- Period P in counts (R550, Table 17.10). -/
def State.krgP (s : State) : Nat := if s.krg.st == .run then (64 - s.otp.kper.getD 0 % 64) * 1000 else 64000

/-- Window W in counts (R550). -/
def State.krgW (s : State) : Nat :=
  if s.krg.st == .run then
    let v := s.otp.kwin.getD 0 % 8
    ((if v == 0 then 4 else v) * s.krgP + 7) / 8
  else 0

/-- KRG_CFG, KRG_STAT, KRG_TASK, KRG_FMASK (Tables 17.14 to 17.16). -/
def State.krgCfgReg (s : State) : Nat :=
  bit (s.otp.kstart == some true) * 1024 + bit (s.otp.kclk == some true) * 512 + s.otp.kwin.getD 0 % 8 * 64 +
    s.otp.kper.getD 0 % 64
def State.krgStatReg (s : State) : Nat :=
  krgCode s.krg.st * 2 ^ 29 + bit s.krg.clkMain * 2 ^ 28 + bit s.krg.clkFail * 2 ^ 27 + s.krg.rstCnt % 8 * 2 ^ 24 +
    s.krg.lastKind % 16 * 2 ^ 16 + s.krg.count % 65536
def State.krgTaskReg (s : State) : Nat := s.krg.reg.toNat * 65536 + s.krg.lastDup.toNat
def State.krgFmaskReg (s : State) : Nat := s.krg.fMiss.toNat * 65536 + s.krg.fBad.toNat

/-- Keyring counts and takes seals: in BOOT or RUN with the logic die out of reset (log 74). -/
def State.krgCounts (s : State) : Bool :=
  s.pw.logic == .running && (s.krg.st == .boot || s.krg.st == .run)

/-- What a Frame adds to the counter: 4 edges of 1 MHz, up to the last count of the period. The count at which a seal is
registered is the row's own (log 170). -/
def State.krgTick (s : State) : State :=
  if s.krgCounts then s.updKrg fun k => { k with count := min (s.krgP - 1) (k.count + 4) } else s

/-! ### Keyring faults -/

/-- KRG_FAULT is kept ahead of the other kept events, so that it follows START (R555). -/
def State.keepKrgFault (s : State) (payload : List Byte) : State :=
  let old := s.ice.kept.takeWhile fun e => e.1 == 0x0F10
  let rest := s.ice.kept.dropWhile fun e => e.1 == 0x0F10
  { s with ice := { s.ice with kept := old ++ [(0x0F10, rDevice, payload)] ++ rest } }

/-- A Keyring fault at a count (R555, R556). The run of 1,000 ms may have ended within the period (log 75). -/
def State.krgFault (s : State) (kind c : Nat) (miss bad : BitVec 16) : State :=
  let k := s.krg
  let clean := k.st == .run && k.goodCounts + c ≥ 1000000
  let n := min 7 ((if clean then 0 else k.rstCnt) + 1)
  let payload := le 1 kind ++ le 1 (krgCode k.st) ++ le 2 c ++ le 2 miss.toNat ++ le 2 bad.toNat ++ le 2 k.dup.toNat ++
    le 4 k.pseq.toNat
  let s1 := s.updKrg fun k =>
    { k with rstCnt := n, goodCounts := 0, lastKind := kind, fMiss := miss, fBad := bad, lastDup := k.dup }
  let s2 := (s1.setFault 7).keepKrgFault payload
  if n ≥ 4 then ((s2.keepEvent 0x0F13 rDevice (le 1 n)).logicReset 3 .inReset 3).updKrg fun k => { k with st := .safe }
  else s2.resetTo4 3

/-- A good seal at a count (R552, R553, R555). -/
def State.krgGood (s : State) (c : Nat) : State :=
  let k := s.krg
  let run := k.st == .run
  let s1 := when (k.dup != 0)
    (fun s => s.iceRecord 0x0F11 rDevice 1 (List.replicate 8 0 ++ le 2 k.dup.toNat ++ le 4 k.pseq.toNat)) s
  let good := if run then k.goodCounts + c else 0
  let s2 := s1.updKrg fun k =>
    { k with
      st := .run, count := 0, pseq := k.pseq + 1, given := 0, bad := 0, dup := 0, lastDup := k.dup
      regLock := k.regLock || run, goodCounts := min 1000000 good, rstCnt := if good ≥ 1000000 then 0 else k.rstCnt }
  if run then { s2 with hpt := s2.hpt &&& ~~~(1#9 <<< 7) } else s2

/-- KEYRING_SEAL: a seal registered at a count (Table 17.13). -/
def execKeyringSeal (count : Nat) (s : State) : Host.Outcome State Fault Refusal :=
  .next (
    if s.krgCounts then
      let k := s.krg
      let miss := k.reg &&& ~~~(k.given ||| (if s.fr.ceHalted then 1 else 0))
      if count ≥ s.krgP then s.krgFault 2 s.krgP 0 0
      else if count < s.krgW then s.krgFault 1 count 0 0
      else if k.st == .run && miss != 0 then s.krgFault 3 count miss 0
      else if k.st == .run && k.bad != 0 then s.krgFault 4 count 0 k.bad
      else s.krgGood count
    else s)

/-- EXPIRE: the counter reaches P without a seal (R552). -/
def execExpire (s : State) : Host.Outcome State Fault Refusal :=
  .next (if s.krgCounts then s.krgFault 2 s.krgP 0 0 else s)

/-! ### The task port -/

/-- KEYRING_KEY_WRITE: a task writes its key (R554). -/
def execKeyringKeyWrite (task : Fin 16) (val : Half) (s : State) : Host.Outcome State Fault Refusal :=
  .next (
    if s.krgCounts then
      let one := fun (t : Nat) => (1#16 <<< t)
      s.updKrg fun k =>
        let known := k.reg.getLsbD task.val
        if known && val == k.keys[task] ^^^ k.pseq.setWidth 16 then
          if k.given.getLsbD task.val then { k with dup := k.dup ||| one task.val }
          else { k with given := k.given ||| one task.val }
        else { k with bad := k.bad ||| one (if known then task.val else 15) }
    else s)

/-- KEYRING_REGISTER: a task and its key, in BOOT or before the enable write (R553). -/
def execKeyringRegister (task : Fin 16) (key : Half) (s : State) : Host.Outcome State Fault Refusal :=
  .next (
    if s.pw.logic == .running && (s.krg.st == .boot || s.krg.st == .off) && !s.krg.regLock then
      s.updKrg fun k => { k with reg := k.reg ||| (1#16 <<< task.val), keys := k.keys.set task.val key }
    else s)

/-- KEYRING_ENABLE: the enable write of a software start (Table 17.12). -/
def execKeyringEnable (s : State) : Host.Outcome State Fault Refusal :=
  .next (
    if s.pw.logic == .running && s.krg.st == .off && s.otp.kstart == some true then
      s.updKrg fun k => { k with st := .run, count := 0, given := 0, bad := 0, dup := 0, goodCounts := 0 }
    else s)

/-- KRG_CLOCK: the selected clock fails; Keyring goes on with the other (R557). -/
def execKrgClock (s : State) : Host.Outcome State Fault Refusal :=
  .next (
    if s.krgCounts && s.pw.step ≥ 5 && !s.krg.clkFail then
      let failed := if s.krg.clkMain then 0 else 1
      let s1 := (s.updKrg fun k => { k with clkMain := !k.clkMain, clkFail := true }).setFault 8
      if s1.live then s1.iceRecord 0x0F12 rDevice 2 (le 1 failed) else s1.keepEvent 0x0F12 rDevice (le 1 failed)
    else s)

end Sys2Proof.Machine
end

