-- ==== Sys2Proof/Machine/Boot.lean ====
section
/-! DEFINITION. The boot ROM, image verification, provisioning, the update commands and the settings across versions
(20). -/

namespace Sys2Proof.Machine

open Sys2Proof

def State.updUpd (s : State) (f : Upd → Upd) : State := { s with upd := f s.upd }

/-! ### Images (Tables 20.2, 20.3) -/

/-- The n bytes from off on are all 0. -/
def zeroAt (b : List Byte) (off n : Nat) : Bool := ((b.drop off).take n).all (· == 0)

/-- A section entry: type, offset, length, load address, and whether its reserved bytes are 0. -/
structure Sect where
  typ : Nat
  off : Nat
  len : Nat
  load : Nat
  clean : Bool
  iv : List Byte
  tag : List Byte
deriving DecidableEq, Repr

def imgTotal (b : List Byte) : Nat := getLe b 12 4
def imgSvn (b : List Byte) : Nat := getLe b 6 2
def imgVersion (b : List Byte) : Nat := if b.length < 1024 then 0 else getLe b 8 4
def imgSfmt (b : List Byte) : Nat := getLe b 16 2
def imgSfmtMin (b : List Byte) : Nat := getLe b 18 2
def imgKidx (b : List Byte) : Nat := getLe b 20 1
def imgNsec (b : List Byte) : Nat := getLe b 21 1

def sectAt (b : List Byte) (i : Nat) : Sect :=
  let o := 128 + 48 * i
  ⟨getLe b o 1, getLe b (o + 4) 4, getLe b (o + 8) 4, getLe b (o + 12) 4, zeroAt b (o + 1) 3 && zeroAt b (o + 44) 4,
    (b.drop (o + 16)).take 12, (b.drop (o + 28)).take 16⟩

def imgSects (b : List Byte) : List Sect := (List.range (min 7 (imgNsec b))).map (sectAt b)

/-- The largest length of a section type. -/
def sectMax (typ : Nat) : Nat :=
  if typ == 1 then 3 * 2 ^ 20 else if typ == 2 || typ == 3 then 2 ^ 18 else if typ == 4 then 2 ^ 16
  else if typ == 5 then 2 ^ 15 else 2 ^ 12

/-- MAGIC, HVER, TOTAL, reserved bytes and the presence of a type 7 section (R595). -/
def hdrOk (b : List Byte) : Bool :=
  let has7 := (imgSects b).any fun x => x.typ == 7
  let flags := getLe b 22 2
  b.length ≥ 1024 && getLe b 0 4 == 0x56425A31 && getLe b 4 2 == 1 && imgSvn b ≤ 127 &&
    1024 ≤ imgTotal b && imgTotal b ≤ 2 ^ 24 && 5 ≤ imgNsec b && imgNsec b ≤ 7 && flags ≤ 1 &&
    zeroAt b 32 96 && zeroAt b (128 + 48 * imgNsec b) (48 * (7 - imgNsec b)) && zeroAt b 464 48 && zeroAt b 704 320 &&
    (imgSects b).all (·.clean) && (flags == 1) == has7 && (!has7 || getLe b 24 8 != 0)

/-- Types, sizes and places of the sections (R595, Table 20.3). -/
def layoutOk (b : List Byte) : Bool :=
  let l := imgSects b
  let count (k : Nat) : Nat := (l.filter fun x => x.typ == k).length
  [1, 2, 3, 4, 5].all (fun k => count k == 1) && count 6 ≤ 1 && count 7 ≤ 1 &&
    l.all (fun x => 1 ≤ x.typ && x.typ ≤ 7 && x.off % 16 == 0 && 1024 ≤ x.off && x.off + x.len ≤ imgTotal b &&
      x.len ≤ sectMax x.typ && (x.typ < 6 || x.load == 0)) &&
    l.zipIdx.all fun (x, i) => l.zipIdx.all fun (y, j) => i == j || x.off + x.len ≤ y.off || y.off + y.len ≤ x.off

/-- PKHk, when programmed and not revoked (R593). -/
def Otp.keyHash (o : Otp) (k : Nat) : Option (List Byte) :=
  if k == 0 then (if o.rev0 then none else some Config.pkh0)
  else if k == 1 then (if o.rev1 then none else o.pkh1)
  else none

/-- The first failed check of the header, in the order of R595 (log 77): a reason of Table 20.5, 0 where all hold. -/
def State.hdrReason (s : State) (b : List Byte) : Nat :=
  let pub := (b.drop 512).take 96
  if !hdrOk b then 1
  else if !layoutOk b then 5
  else match s.otp.keyHash (imgKidx b) with
    | none => 3
    | some h =>
      if Config.sha384 pub != h || !Config.ecdsaVerifies pub (b.take 608) ((b.drop 608).take 96) then 2
      else if imgSvn b < s.otp.svnc then 4
      else if getLe b 24 8 != 0 && getLe b 24 8 != Config.devId.toNat then 6
      else 0

/-- IV, tag and ciphertext of a section. -/
def sectBytes (b : List Byte) (x : Sect) : List Byte := x.iv ++ x.tag ++ (b.drop x.off).take x.len

/-- The first failed check of R595. -/
def State.imgReason (s : State) (b : List Byte) : Nat :=
  let r := s.hdrReason b
  if r != 0 then r
  else if b.length < imgTotal b then 1
  else if (imgSects b).all fun x => Config.gcmVerifies (sectBytes b x) then 0 else 5

/-- Plaintext of the section of a type, if it is present. -/
def sectPlain (b : List Byte) (typ : Nat) : List Byte :=
  match (imgSects b).find? fun x => x.typ == typ with
  | some x => Config.gcmPlaintext (sectBytes b x)
  | none => []

/-! ### Slots -/

def Upd.slot (u : Upd) (b : Bool) : Slot := if b then u.slotB else u.slotA
def Upd.setSlot (u : Upd) (b : Bool) (x : Slot) : Upd := if b then { u with slotB := x } else { u with slotA := x }

/-- Code of a slot state (Table 20.4). -/
def slotCode : SlotState → Nat
  | .empty => 0
  | .receiving => 1
  | .valid => 2
  | .pending => 3
  | .trial => 4
  | .active => 5
  | .failed => 6

/-- UPD_STATE payload (Table 20.7). -/
def slotPayload (b : Bool) (x : Slot) : List Byte :=
  le 1 (bit b) ++ le 1 (slotCode x.st) ++ le 1 x.reason ++ le 1 0 ++ le 4 (imgVersion x.image)

/-- An event of the update group: posted, or kept for step 6 while the Queues do not run (R611). -/
def State.updEvent (s : State) (code : Nat) (payload : List Byte) : State :=
  if s.live || s.upd.recovery then s.postRec code rDevice payload
  else s.updUpd fun u => { u with postAtStart := u.postAtStart ++ [⟨code, rDevice, 0, 0, 0, payload⟩] }

/-- Whether record 1 of the update state is the newer valid one (R596). -/
def Upd.recNewer1 (u : Upd) : Bool := u.rec1.valid && (!u.rec0.valid || u.rec0.seq < u.rec1.seq)

def Upd.recNewest (u : Upd) : UpdRec := if u.recNewer1 then u.rec1 else u.rec0

/-- The update state is written to the other record, with the next sequence (R596). -/
def Upd.putRec (u : Upd) : Upd :=
  let x : UpdRec := ⟨true, u.recNewest.seq + 1, u.slotA.st, u.slotA.reason, u.slotB.st, u.slotB.reason⟩
  if u.recNewer1 || !u.recNewest.valid then { u with rec0 := x } else { u with rec1 := x }

/-- What a start takes as the states of the slots: the newer valid record. Without one they stand as they are (log 173). -/
def Upd.loadRec (u : Upd) : Upd :=
  let x := u.recNewest
  if x.valid then
    { u with
      slotA := { u.slotA with st := x.stA, reason := x.reasonA }, slotB := { u.slotB with st := x.stB, reason := x.reasonB } }
  else u

/-- A slot takes a state and a reason, and the record is written, never after a power-fail warning (R76, R596). -/
def State.slotTo (s : State) (b : Bool) (st : SlotState) (reason : Nat) : State :=
  let x : Slot := { (s.upd.slot b) with st := st, reason := reason }
  (s.updUpd fun u => if s.pw.pfw then u.setSlot b x else (u.setSlot b x).putRec).updEvent 0x0A01 (slotPayload b x)

def State.anyReceiving (s : State) : Bool :=
  s.upd.slotA.st == .receiving || s.upd.slotB.st == .receiving || s.upd.verifying.isSome

/-! ### Provisioning (R609, R610) -/

/-- The 16-byte records of a section: GROUP, INDEX, ORD, VALUE; one whose LEN is not 1 to 8 is ignored (log 78). -/
def provRecords (b : List Byte) : List (Nat × Nat × Nat × Nat) :=
  (List.range (b.length / 16)).filterMap fun i =>
    let len := getLe b (16 * i + 6) 2
    if 1 ≤ len && len ≤ 8 then
      some (getLe b (16 * i) 2, getLe b (16 * i + 2) 2, getLe b (16 * i + 4) 2, getLe b (16 * i + 8) 8)
    else none

/-- Whether a value lies in the range of a link, two-wire or Keyring field (R453, Tables 13.1, 14.2, 17.10); the two own
addresses differ (R478). -/
def provInRange (o : Otp) (g k v : Nat) : Bool :=
  let own (other : Option Nat) : Bool := 0x10 ≤ v && v ≤ 0x77 && v != 0x61 && some v != other
  match g, k with
  | 1, 0 => 1 ≤ v && v ≤ 0x3FE
  | 1, 1 => v ≤ 1
  | 1, 2 => v ≤ 254
  | 1, 3 => 2 ≤ v && v ≤ 255
  | 1, 4 => v < 4096
  | 1, 5 => v < 2 ^ 48
  | 1, 6 => v < 2 ^ 48
  | 2, 0 => own o.tw1Addr
  | 2, 1 => own o.tw0Addr
  | 2, 2 => v ≤ 1
  | 2, 3 => v ≤ 1
  | 2, 4 => v ≤ 2
  | 2, 5 => v ≤ 1
  | 2, 6 => 8 ≤ v && v ≤ 0x77
  | 3, 0 => v ≤ 63
  | 3, 1 => v ≤ 7
  | 3, 2 => v ≤ 1
  | 3, 3 => v ≤ 1
  | _, _ => true

/-- A scalar field: programmed where it is not, and refused where it holds another value. -/
def progVal {α : Type} [DecidableEq α] (o : Otp) (cur : Option α) (v : α) (set : Option α → Otp) : Otp × Bool :=
  match cur with
  | none => (set (some v), false)
  | some x => (o, x != v)

/-- Eight bytes of a long value. -/
def progBytes (o : Otp) (cur : Option (List Byte)) (n k v : Nat) (set : Option (List Byte) → Otp) : Otp × Bool :=
  let l := fitTo n (cur.getD [])
  let old := getLe l (8 * k) 8
  if old == v then (o, false)
  else if old == 0 then (set (some (l.take (8 * k) ++ le 8 v ++ l.drop (8 * k + 8))), false)
  else (o, true)

/-- The Tumbler fields in the order of their ORDs: a window takes two. -/
def tmbOrd : List (TmbField × Bool) :=
  [(.classA, false), (.maxCode, false), (.tInrush, false), (.soaCeil, false), (.tcCeil, false), (.tiCeil, false),
    (.retryMin, false), (.rateMax, false), (.buckWin, false), (.buckWin, true), (.boostWin, false), (.boostWin, true),
    (.slewCap, false), (.nphMax, false), (.hCap, false)]

/-- A Tumbler value as a list entry, if GROUP 0x04 names one. -/
def tmbEntry (idx ord v : Nat) : Option (TmbField × Nat × Bool × Nat) :=
  match tmbOrd[ord]? with
  | some (f, hi) =>
    let ok := f != .classA && tmbInRange f v && (tmbIsZone f || idx < 64)
    if ok then some (f, if tmbIsZone f then 0 else idx, hi, v) else none
  | none => none

/-- One record applied: the fuses afterwards, and whether it was refused. A record that names no field is ignored
(log 78). -/
def progField (o : Otp) (kidx : Nat) (r : Nat × Nat × Nat × Nat) : Otp × Bool :=
  let (g, idx, k, v) := r
  match g, k with
  | 1, 0 => progVal o o.nodeAddr v fun x => { o with nodeAddr := x }
  | 1, 1 => progVal o o.t1Master (v == 1) fun x => { o with t1Master := x }
  | 1, 2 => progVal o o.plcaId v fun x => { o with plcaId := x }
  | 1, 3 => progVal o o.plcaCount v fun x => { o with plcaCount := x }
  | 1, 4 => progVal o o.vlan v fun x => { o with vlan := x }
  | 1, 5 => progVal o o.mac1 (BitVec.ofNat 48 v) fun x => { o with mac1 := x }
  | 1, 6 => progVal o o.macS (BitVec.ofNat 48 v) fun x => { o with macS := x }
  | 2, 0 => progVal o o.tw0Addr v fun x => { o with tw0Addr := x }
  | 2, 1 => progVal o o.tw1Addr v fun x => { o with tw1Addr := x }
  | 2, 2 => progVal o o.tw0Smbus (v == 1) fun x => { o with tw0Smbus := x }
  | 2, 3 => progVal o o.tw1Smbus (v == 1) fun x => { o with tw1Smbus := x }
  | 2, 4 => progVal o o.tw1Clk v fun x => { o with tw1Clk := x }
  | 2, 5 => progVal o o.hnEn (v == 1) fun x => { o with hnEn := x }
  | 2, 6 => progVal o o.hnAddr v fun x => { o with hnAddr := x }
  | 3, 0 => progVal o o.kper v fun x => { o with kper := x }
  | 3, 1 => progVal o o.kwin v fun x => { o with kwin := x }
  | 3, 2 => progVal o o.kclk (v == 1) fun x => { o with kclk := x }
  | 3, 3 => progVal o o.kstart (v == 1) fun x => { o with kstart := x }
  | 4, 0 =>
    let m := o.classA.getD 0
    if idx < 64 then
      if m.getLsbD idx then (o, v != 1)
      else if v == 1 then ({ o with classA := some (m ||| (1#64 <<< idx)) }, false) else (o, false)
    else (o, false)
  | 8, 0 => if v != 1 || o.rev0 then (o, v != 1 && o.rev0) else if kidx == 1 then ({ o with rev0 := true }, false) else (o, true)
  | 8, 1 => if v != 1 || o.rev1 then (o, v != 1 && o.rev1) else if kidx == 0 then ({ o with rev1 := true }, false) else (o, true)
  | _, _ =>
    if g == 1 && 7 ≤ k && k < 11 then progBytes o o.cak1 32 (k - 7) v fun x => { o with cak1 := x }
    else if g == 1 && 11 ≤ k && k < 15 then progBytes o o.cakS 32 (k - 11) v fun x => { o with cakS := x }
    else if g == 5 && k < 4 then progBytes o o.kcred 32 k v fun x => { o with kcred := x }
    else if g == 6 && k < 12 then progBytes o o.pkclr 96 k v fun x => { o with pkclr := x }
    else if g == 7 && k < 6 then progBytes o o.pkh1 48 k v fun x => { o with pkh1 := x }
    else if g == 4 then
      match tmbEntry idx k v with
      | none => (o, false)
      | some e =>
        match tmbFind o.tmb e.1 e.2.1 e.2.2.1 with
        | none => ({ o with tmb := o.tmb ++ [e] }, false)
        | some x => (o, x != v)
    else (o, false)

/-- A record whose value is out of its field's range is ignored (log 78). -/
def progRecord (o : Otp) (kidx : Nat) (r : Nat × Nat × Nat × Nat) : Otp × Bool :=
  if provInRange o r.1 r.2.2.1 r.2.2.2 then progField o kidx r else (o, false)

/-- The provisioning section of the loaded image, with PROV_REFUSED for each refused record. -/
def State.provision (s : State) (img : List Byte) : State :=
  overL (provRecords (sectPlain img 7)) (fun r s =>
    let (o, refused) := progRecord s.otp (imgKidx img) r
    let s1 := { s with otp := o }
    if refused then s1.updEvent 0x0A04 (le 2 r.1 ++ le 2 r.2.1 ++ le 2 r.2.2.1) else s1) s

/-- The limit table of the image as boot values (R609). -/
def limitTable (img : List Byte) : List (TmbField × Nat × Bool × Nat) :=
  (provRecords (sectPlain img 6)).filterMap fun r => if r.1 == 4 then tmbEntry r.2.1 r.2.2.1 r.2.2.2 else none

/-! ### The boot ROM (R597, R598) -/

/-- What a start makes of the slots before it tries one (R597, R600, R606). -/
def State.slotsAtBoot (s : State) : State :=
  overL [false, true] (fun b s =>
    let x := s.upd.slot b
    match x.st with
    | .receiving => (s.updUpd fun u => u.setSlot b { x with image := [] }).slotTo b .empty 0
    | .trial => s.slotTo b .failed 7
    | .active | .valid => if imgSvn x.image < s.otp.svnc then s.slotTo b .failed 4 else s
    | _ => s) s

/-- The slots in the order in which the boot ROM tries them. -/
def Upd.tryOrder (u : Upd) : List Bool :=
  let is (b : Bool) (st : SlotState) : Bool := (u.slot b).st == st
  let firstOf (st : SlotState) : Option Bool := [false, true].find? fun b => is b st
  let head := match firstOf .pending with
    | some b => some b
    | none => match firstOf .active with
      | some b => some b
      | none => firstOf .valid
  match head with
  | none => []
  | some b => b :: (if is (!b) .active || is (!b) .valid then [!b] else [])

/-- The first slot of a list that verifies; the others fail with their reasons. -/
def State.bootTry (s : State) : List Bool → Option Bool × State
  | [] => (none, s)
  | b :: rest =>
    let s1 := if (s.upd.slot b).st == .pending then s.slotTo b .trial 0 else s
    let r := s1.imgReason (s1.upd.slot b).image
    if r == 0 then (some b, s1) else (s1.slotTo b .failed r).bootTry rest

/-- RECOVERY: Q04 and Q29 run at their default bindings, Firn keeping the others (R598). -/
def State.enterRecovery (s : State) : State :=
  let old := (s.qs[(4 : Fin 32)], s.qs[(29 : Fin 32)])
  let open' (n : Nat) : Queue := { (defaultQueue n).resetRings with st := .run }
  let s1 := { s with qs := (s.qs.set 4 (open' 4)).set 29 (open' 29) }
  let evs := s1.upd.postAtStart
  let s2 := (s1.updUpd fun u => { u with recovery := true, booted := false, savedQ := some old, postAtStart := [] }).updPw
    fun p => { p with step := 4 }
  overL evs (fun e s => s.postRec e.code e.source e.payload) s2

/-- PLL_LOCK: the boot ROM chooses, verifies and loads a slot (R597), provisions the fuses (R610) and stages the boot
limits (R537); with no slot it enters RECOVERY. -/
def execPllLock (s : State) : Host.Outcome State Fault Refusal :=
  .next (
    if s.pw.mode == .start && s.pw.logic == .running && s.pw.step == 3 then
      let s0 := s.updKrg fun k => { k with clkMain := s.otp.kclk == some true && !k.clkFail }
      let s1 := (s0.updUpd Upd.loadRec).slotsAtBoot
      match s1.bootTry s1.upd.tryOrder with
      | (none, s2) => s2.enterRecovery
      | (some b, s2) =>
        let img := (s2.upd.slot b).image
        let s3 := (s2.updUpd fun u => { u with booted := b, recovery := false, trialPeriods := 0 }).provision img
        let s4 := { s3 with tmb := { s3.tmb with boot := limitTable img } }
        s4.updPw fun p => { p with step := 5, starts := p.starts + 1 }
    else s)

/-! ### Settings across versions (R607) and confirmation (R600, R601) -/

/-- Whether a copy's format is one that an image converts (R607). -/
def convertible (img : List Byte) (c : SetCopy) : Bool := c.valid && imgSfmtMin img ≤ c.fmt && c.fmt < imgSfmt img

def convFields (img : List Byte) (c : SetCopy) : List (FKey × Nat) := if convertible img c then c.fields else []

/-- A start that does not try an image drops what a trial wrote. -/
def Upd.dropTrial (u : Upd) : Upd :=
  if u.kept && (u.slot u.booted).st != .trial then
    { u.putCopy u.newest1 { u.newest with valid := false } with kept := false }
  else u

/-- What a start writes to the settings copies (R607). -/
def Upd.startCopy (u : Upd) : Upd :=
  let img := (u.slot u.booted).image
  let v := u.dropTrial
  let c := v.newest
  if c.valid && c.fmt == imgSfmt img then v
  else
    { v.putCopy (c.valid && !v.newest1) ⟨true, c.seq + 1, imgSfmt img, convFields img c⟩ with
      kept := c.valid && (u.slot u.booted).st == .trial }

/-- The settings that a start takes: the valid copy with the higher sequence, by its format. A trial keeps the copy in the
older format; a start that does not try drops what the trial wrote. Without a valid copy the factory defaults are in force
(log 134). After a power-fail warning nothing is written. -/
def State.settingsStart (s : State) : State :=
  let img := (s.upd.slot s.upd.booted).image
  let c := s.upd.dropTrial.newest
  let u := if s.pw.pfw then { s.upd with setLate := true } else s.upd.startCopy
  if c.valid && c.fmt == imgSfmt img then { s with upd := u, settings := c.fields }
  else
    let s1 := { s with upd := u, settings := convFields img c }
    if convertible img c || c.seq == 0 then s1 else s1.updEvent 0x0A03 (le 2 c.fmt ++ le 2 (imgSfmt img))

/-- Fuses are blown until SVNC holds a security version (R601). -/
def State.burnTo (s : State) (v : Nat) : State := { s with otp := { s.otp with svnc := max s.otp.svnc v } }

/-- At a start, a burn that was cut off is completed, where the ACTIVE image, booted or not, reaches the shadow (R601). -/
def State.burnAtStart (s : State) : State :=
  if [s.upd.slotA, s.upd.slotB].any fun x => x.st == .active && s.upd.shadow ≤ imgSvn x.image then s.burnTo s.upd.shadow else s

/-- What a confirmation writes: the copy in force over the one in the older format, the anti-rollback shadow, then the fuses (R600,
R601, R607). -/
def State.confirmWrites (s : State) : State :=
  let v := imgSvn (s.upd.slot s.upd.booted).image
  (s.updUpd fun u =>
    let u1 := if u.kept then { u.putCopy (!u.newest1) u.newest with kept := false } else u
    { u1 with shadow := max u.shadow v, confirmLate := false }).burnTo v

/-- TRIAL_CONFIRM (R600). What it writes waits while a power-fail warning stands (R76, log 192). -/
def execTrialConfirm (s : State) : Host.Outcome State Fault Refusal :=
  let b := s.upd.booted
  .next (
    if s.live && s.inRun && (s.upd.slot b).st == .trial && s.upd.trialPeriods ≥ 1000 then
      let img := (s.upd.slot b).image
      let s1 := if (s.upd.slot !b).st == .active then s.slotTo (!b) .valid 0 else s
      let s2 := s1.slotTo b .active 0
      let s3 := if s.pw.pfw then s2.updUpd fun u => { u with confirmLate := true } else s2.confirmWrites
      s3.updEvent 0x0A02 (le 1 (bit b) ++ le 1 0 ++ le 2 (imgSvn img) ++ le 4 (imgVersion img))
    else s)

/-- COMMANDED_RESET: 250 Frames after the completion of a RESET or of UPD_ACTIVATE with reset (R605, Table 2.9). -/
def execCommandedReset (s : State) : Host.Outcome State Fault Refusal :=
  .next (match s.pw.resetDue with
    | some f => if f ≤ s.fr.count || s.upd.recovery then s.resetTo4 8 else s
    | none => s)

/-! ### Update commands (R602-R606). Their effects on the slots come in the order in which they are executed; the
completion of an immediate one names the next tick (log 76). -/

/-- The completion of an update command with 0x00: at once in RECOVERY (R599), else at the next tick. -/
def State.updDone (s : State) (t : Taken) : State :=
  if s.upd.recovery then s.complete t 0 none else s.await t (.tick 0 [])

/-- The checks of cmdUpdBegin beside the ones that every command has (R433). -/
def chkUpdBegin (t : Taken) (s : State) : List (Nat × Bool) :=
  let b := t.p 16 1 == 1
  let size := t.p 20 4
  [ (0x22, t.p 16 1 > 1 || size < 1024 || size > 2 ^ 24),
    (0x12, (!s.upd.recovery && b == s.upd.booted) || s.anyReceiving) ]

def cmdUpdBegin (t : Taken) (s : State) : State :=
  let b := t.p 16 1 == 1
  let size := t.p 20 4
  s.guarded t (chkUpdBegin t s) fun s =>
      let s1 := s.updUpd fun u => { (u.setSlot b ⟨.empty, 0, []⟩) with size := size }
      (s1.slotTo b .receiving 0).updDone t

/-- The slot that receives data. -/
def State.receiver (s : State) : Option Bool :=
  if s.upd.verifying.isSome then none
  else [false, true].find? fun b => (s.upd.slot b).st == .receiving

/-- The checks of cmdUpdData beside the ones that every command has (R433). -/
def chkUpdData (t : Taken) (s : State) : List (Nat × Bool) :=
  let data := t.body
  let got := match s.receiver with | some b => (s.upd.slot b).image.length | none => 0
  [ (0x41, s.upd.flashBusy),
    (0x22, s.receiver.isNone || t.p 16 4 != got || data.isEmpty || data.length > 8192 || got + data.length > s.upd.size) ]

def cmdUpdData (t : Taken) (s : State) : State :=
  let data := t.body
  let got := match s.receiver with | some b => (s.upd.slot b).image.length | none => 0
  s.guarded t (chkUpdData t s) fun s =>
      let b := s.receiver.getD false
      let x := s.upd.slot b
      let img := x.image ++ data
      let s1 := s.updUpd fun u => u.setSlot b { x with image := img }
      let r := if imgTotal img != s.upd.size then 1 else s.hdrReason img
      if got < 1024 && img.length ≥ 1024 && r != 0 then (s1.slotTo b .failed r).refuse t 0x22 (le 1 r)
      else (s1.updUpd fun u => { u with flashBusy := true }).updDone t

/-- The checks of cmdUpdEnd beside the ones that every command has (R433). -/
def chkUpdEnd (t : Taken) (s : State) : List (Nat × Bool) :=
  [(0x12, s.receiver.isNone)]

def cmdUpdEnd (t : Taken) (s : State) : State :=
  s.guarded t (chkUpdEnd t s) fun s =>
    (s.complete t 1 none (evt := true)).updUpd fun u => { u with verifying := some (s.receiver.getD false, t) }

/-- The checks of cmdUpdActivate beside the ones that every command has (R433). -/
def chkUpdActivate (t : Taken) (s : State) : List (Nat × Bool) :=
  let b := t.p 16 1 == 1
  let rst := t.p 17 1 == 1
  let booted := !s.upd.recovery && b == s.upd.booted
  [ (0x22, t.p 16 1 > 1 || t.p 17 1 > 1),
    (0x12, !booted && ((s.upd.slot b).st != .valid || (rst && s.zone.hu != .normal))) ]

def cmdUpdActivate (t : Taken) (s : State) : State :=
  let b := t.p 16 1 == 1
  let rst := t.p 17 1 == 1
  let booted := !s.upd.recovery && b == s.upd.booted
  s.guarded t (chkUpdActivate t s) fun s =>
      if booted then s.complete t 0 none
      else
        let s1 := (s.slotTo b .pending 0).updDone t
        if rst then s1.updPw fun p => { p with resetDue := some (s.fr.count + 251) } else s1

/-- UPD_READ result, 32 bytes (R606). -/
def State.updData (s : State) : List Byte :=
  let a := s.upd.slotA
  let b := s.upd.slotB
  let svn (x : Slot) : Nat := if x.image.length < 1024 then 0 else imgSvn x.image
  let got := match s.receiver with | some b => (s.upd.slot b).image.length | none => 0
  fitTo 32 (le 1 (bit s.upd.booted) ++ le 1 (slotCode a.st) ++ le 1 (slotCode b.st) ++ le 1 (bit s.upd.recovery) ++
    le 4 (imgVersion a.image) ++ le 4 (imgVersion b.image) ++ le 2 (svn a) ++ le 2 (svn b) ++ le 1 s.otp.svnc ++
    le 1 a.reason ++ le 1 b.reason ++ le 4 got)

def cmdUpdRead (t : Taken) (s : State) : State :=
  s.guarded t [] fun s =>
    match s.mustWait t.q with
    | some f => s.await t (.readAfter f)
    | none =>
      let (r, s1) := s.openResult
      s1.readDone t r s.updData

/-- UPD_VERIFY_DONE: verification of an UPD_END image ends (R604). -/
def execUpdVerifyDone (readError : Bool) (s : State) : Host.Outcome State Fault Refusal :=
  .next (match s.upd.verifying with
    | none => s
    | some (b, t) =>
      let img := (s.upd.slot b).image
      let r := if readError then 8 else if img.length != imgTotal img then 1 else s.imgReason img
      let s1 := s.updUpd fun u => { u with verifying := none }
      if r == 0 then (s1.slotTo b .valid 0).cmdDone t 0
      else (s1.slotTo b .failed r).cmdDone t 0x22 (le 1 r))

/-- FLASH_WRITE_DONE: the program buffer is in flash (R603). -/
def execFlashWriteDone (s : State) : Host.Outcome State Fault Refusal :=
  .next (s.updUpd fun u => { u with flashBusy := false })

def execUpdBegin (q : Fin 32) (d : CmdArgs) (s : State) : Host.Outcome State Fault Refusal :=
  .next (s.rowCmd cmdUpdBegin 0x0A01 q d)
def execUpdData (q : Fin 32) (d : CmdArgs) (s : State) : Host.Outcome State Fault Refusal :=
  .next (s.rowCmd cmdUpdData 0x0A02 q d)
def execUpdEnd (q : Fin 32) (d : CmdArgs) (s : State) : Host.Outcome State Fault Refusal :=
  .next (s.rowCmd cmdUpdEnd 0x0A03 q d)
def execUpdActivate (q : Fin 32) (d : CmdArgs) (s : State) : Host.Outcome State Fault Refusal :=
  .next (s.rowCmd cmdUpdActivate 0x0A04 q d)
def execUpdRead (q : Fin 32) (d : CmdArgs) (s : State) : Host.Outcome State Fault Refusal :=
  .next (s.rowCmd cmdUpdRead 0x0A05 q d)

end Sys2Proof.Machine
end

