-- ==== Sys2Proof/Machine/Power.lean ====
section
/-! DEFINITION. Power-up, the start order of Table 2.6, resets, pumps, the power-fail warning, Dormant and wake (02). -/

namespace Sys2Proof.Machine

open Sys2Proof

/-! ### Snapshots of the wire model (R210, R211, R213) -/

/-- A node in 1/64 degC as s16. -/
def snapVal (x : Int) : Int := max (-32768) (min 32767 (rnd ((x : ℚ) / 2 ^ 26)))

/-- The slot with the higher sequence among the valid ones. -/
def State.snapNewest (s : State) : Option Snap :=
  if s.snap0.valid && s.snap1.valid then (if s.snap1.seq > s.snap0.seq then some s.snap1 else some s.snap0)
  else if s.snap0.valid then some s.snap0
  else if s.snap1.valid then some s.snap1
  else none

/-- A snapshot is written to the alternate slot (R210), never after a power-fail warning; with neither slot valid it has sequence 0
in slot 0 (log 190). -/
def State.snapWrite (s : State) : State :=
  if s.pw.pfw then s
  else
    let seq := match s.snapNewest with | some x => x.seq + 1 | none => 0
    let x : Snap := ⟨true, seq, s.ch.map fun c => snapVal c.tc, s.ch.map fun c => snapVal c.ti,
      s.ch.map fun c => c.st, s.ch.map fun c => c.hot⟩
    if s.snap0.valid && (!s.snap1.valid || s.snap1.seq < s.snap0.seq) then { s with snap1 := x } else { s with snap0 := x }

/-- The start values of a Channel's nodes. -/
def State.nodesAtStart (s : State) (n : Fin 64) : Chan :=
  let c := s.ch[n]
  match s.snapNewest with
  | some x =>
    let ta := clamp48 (rnd ((s.ambientOf n).1 * 4294967296))
    let tc := x.tc[n] * 2 ^ 26
    let ti := x.ti[n] * 2 ^ 26
    { c with tc := max tc ta, ti := max ti ta, nodeSrc := 0, raised11 := decide (tc < ta) || decide (ti < ta) }
  | none =>
    let h : ℚ := s.lf n Fld.HYST
    { c with tc := clamp48 (rnd ((s.tcEff n - h) * 4294967296)), ti := clamp48 (rnd ((s.tiEff n - h) * 4294967296)), nodeSrc := 2 }

/-! ### Step 6 of Table 2.6 -/

/-- The applied Creep results at a start (R245). -/
def State.creepStart (s : State) : State :=
  overL allCh (fun n s =>
    match (s.ch[n]).creep.newest with
    | some x => s.updCh n fun c => { c with creep := { c.creep with
        rho := x.rho, zratio := x.zratio, fsoa := x.fsoa, creepk := x.creepk, red := x.red, lifeRon := x.lifeRon
        lifeZth := x.lifeZth } }
    | none => (s.updCh n fun c => { c with creep := { c.creep with
        fsoa := 1000, creepk := 0, red := 0, rho := 1, zratio := 1 } }).iceRecord 0x0126 n.val 1 []) s

/-- A Queue with a path comes up in RUN with its rings empty, one without stays DISABLED (Table 11.8). -/
def Queue.atStart (k : Queue) : Queue := { k.resetRings with st := if k.path == .none then .disabled else .run }

/-- The latches of a Group stay invalid until its start and the settling of its filters (R103, R120); what they hold before
their first valid value is free (log 11). -/
def State.grpStart (s : State) : State :=
  let f := s.free
  let s1 := { s with
    free := f + 160
    g4 := Vector.ofFn fun i => Config.unsettled (f + i.val)
    grp := Vector.ofFn fun g =>
      let k := s.grp[g]
      { k with inval := Vector.ofFn fun i => grpOffset g + filterFrames k.filt[i] } }
  s1.mapCh fun n c =>
    let i := s1.chAmp n (Config.unsettled (f + 32 + n.val))
    let v := s1.chVolt n (Config.unsettled (f + 96 + n.val))
    { c with iP := i, iM := i, vP := v, vM := v }

/-- CH_STATE for each Channel whose state differs from the reference point (R641). -/
def State.refEvents (s : State) (ref : Vector ChState 64) : State :=
  overL (allCh.filter fun n => (s.ch[n]).st != ref[n]) (fun n s =>
    let c := s.ch[n]
    s.postOnly 0x0101 n.val (chStatePayload c.st c.cause 0 (2 ^ causeCode c.cause) 0)) s

/-- Trips while the logic die was off or in reset count now, and retries fall due again from Frame count 0 (R205,
R642). -/
def State.retriesAtStart (s : State) : State :=
  overL allCh (fun n s =>
    let c := s.ch[n]
    if s.isFollower n then s
    else
      let hit := (s.members n).any fun m => (s.ch[m]).cmpTrip
      let s1 := overL (s.members n) (fun m s => s.updCh m fun c => { c with cmpTrip := false }) s
      if hit then s1.tripPolicyAt n .comparator 0
      else if c.st == .tripped && c.retryOwed then
        s1.updCh n fun c => { c with retryAt := some (frames01s * s.retryInterval n c.k) }
      else s1) s

/-- The Bank domains as their settings give them. -/
def State.domains (s : State) : Vector Bool 4 := Vector.ofFn fun b => s.fld Fld.DOMAIN (0x40 + b.val) == 1

/-- The machine of a start at Frame count 0, at step 7, before its records and events. -/
def State.startBase (s : State) (off : Nat) : State :=
  let masks (s : State) : Nat × Nat := (s.cvf Fld.PHMASK, s.cvf Fld.SPMASK)
  let s1 := s.settingsStart.burnAtStart
  let s2 := s1.tmbLock
  let s3 := { s2 with
    fr := { (default : Frm) with running := true, drive := s.fr.drive + off }
    qs := s2.qs.map Queue.atStart
    zone := { s2.zone with hu := .normal, first := true, budget := s2.znf Fld.C }
    pump := { (default : Pumps) with domain48 := s2.domains }
    pw := { s2.pw with step := 7, faultHeld := false }
    -- R22: the logic die has scrubbed nothing while it was off
    mem := { s2.mem with sramAt := s.fr.drive + off, firnAt := s2.mem.firnAt + off } }
  let s4 := if !s3.cv.configured || masks s3 != masks s then s3.cvConfigure else s3
  s4.grpStart

/-- The events and records of a start, in their order. -/
def State.startRecords (s : State) : State :=
  let s1 := s.iceStart.tmbLockRecs.hingeStart.creepStart
  let s2 := { s1 with ch := Vector.ofFn fun n => s1.nodesAtStart n }
  let s3 := { s2 with snapSrc := s2.snapNewest.map fun (x : Snap) => x.seq }
  let s4 := s3.batStart.pdStart
  let s5 := overL s4.upd.postAtStart (fun e s => s.postRec e.code e.source e.payload) s4
  let s6 := (s5.updUpd fun u => { u with postAtStart := [] }).refEvents s5.pw.refState
  s6.retriesAtStart

/-- CE_RELEASE: the tick of Frame count 0, with both PLLs locked. offFrames is the drive-die time that has passed since Frames stopped. -/
def execCeRelease (offFrames : Nat) (s : State) : Host.Outcome State Fault Refusal :=
  .next (
    if s.pw.mode == .start && s.pw.logic == .running && s.pw.step == 5 && !s.upd.recovery && !s.clk.relocking then
      (s.startBase offFrames).startRecords
    else s)

/-! ### Steps 8 to 17 -/

/-- The pump of a Bank is started. -/
def State.pumpStart (s : State) (b : Nat) : State :=
  s.updPump fun p => { p with bank := p.bank.setIfInBounds b .starting, startAt := s.fr.count }

/-- Steps 8 to 11: the Groups G0 to G3 start one after another, and the pump of Bank 0 follows (R59). -/
def State.groupSteps (s : State) : State :=
  if s.pw.mode == .start && 7 ≤ s.pw.step && s.pw.step ≤ 10 then
    let k := 7 + ((List.finRange 4).filter fun (g : Fin 4) => grpOffset g.castSucc ≤ s.fr.count).length
    let s1 := s.updPw fun p => { p with step := k }
    if k == 11 then s1.pumpStart 0 else s1
  else s

/-- A Class A Channel goes to the head of the admission queue, also one whose CH_ON waits since the start (R82, log 135). -/
def State.admHead (s : State) (n : Fin 64) : State :=
  if s.waiting n then { s with adm := s.adm.map fun e => if e.ch == n then { e with src := .resetHead } else e }
  else s.admAdd ⟨n, .resetHead, s.fr.count, false, none, 0⟩

/-- Admission opens (step 17): the Class A Channels of R82 are its first entries. -/
def State.openAdmission (s : State) : State :=
  let s1 := overL s.pw.headA (fun n s =>
    if s.drives && (s.ch[n]).st == .off then s.admHead n else s) s
  { s1 with
    pw := { s1.pw with
      step := 17, mode := .run, admOpen := true, headA := []
      runAt := if s.pw.mode == .run then s.pw.runAt else s.fr.count }
    hinge := { s1.hinge with step17 := if s.hinge.hen && !s.drives && s.hinge.step17.isNone then some s.fr.count else s1.hinge.step17 } }

/-- Step 16: the converter is started in BUCK, or step 17 follows at once (R64). A chip of a pair that does not drive
starts no converter. -/
def State.step16 (s : State) : State :=
  let s1 := s.updPw fun p => { p with step := 16 }
  let low : Bool := decide (s.v48In < (s.cvf Fld.VINSTART : ℚ) / 10)
  if !s.drives || s.cvf Fld.STARTMODE != 1 || s.cv.mode != .idle then s1.openAdmission
  else
    let s2 := s1.cvStartReq false
    if s2.cv.start.isWaiting && !low then s2 else s2.openAdmission

/-- In each Frame: step 16 ends where no start is in progress, or where a waiting one has lost its input. -/
def State.startStep (s : State) : State :=
  if s.pw.step != 16 || s.pw.admOpen then s
  else
    let low : Bool := decide (s.v48In < (s.cvf Fld.VINSTART : ℚ) / 10)
    match s.cv.start with
    | .none => if s.cv.modeNext.isSome then s else s.openAdmission
    | .waiting own =>
      if (low || !(own || s.cvf Fld.STARTMODE == 1)) && s.cv.modeNext.isNone then s.openAdmission else s
    | .running _ => s

/-- The pump step of Bank b is over: the next Bank's pump starts, or step 16 begins. -/
def State.pumpDone (s : State) (b : Fin 4) : State :=
  let s1 := s.updPw fun p => { p with step := 12 + b.val }
  if b.val < 3 then s1.pumpStart (b.val + 1) else s1.step16

/-- The start waits for the pump of Bank b. -/
def State.pumpWait (s : State) (b : Fin 4) : Bool :=
  s.live && s.pw.mode == .start && s.pw.step == 11 + b.val

/-- Side of a Bank: 0 west, 1 east. -/
def sideOf (b : Fin 4) : Fin 2 := if b.val < 2 then 0 else 1

/-- The spare of a Bank's side runs for it: the Bank's pump is retired, and the spare is brought into service (R39). -/
def State.spareIn (s : State) (b : Fin 4) (st : PumpSt) : State :=
  let k := sideOf b
  ((s.updPump fun p => { p with
    bank := p.bank.set b .bad, spare := p.spare.set k st, spareFor := p.spareFor.set k (some b) }).iceRecord 0x0C02 rDevice 1
    (le 1 2 ++ le 1 b.val ++ le 1 k.val)).iceRecord 0x0C01 rDevice 0 (le 1 2 ++ le 1 (4 + k.val) ++ le 1 k.val)

/-- The pump step of a Bank ends with its supply pin at vsup in 10 mV: a 12 V Bank with more than 20 V there is treated as
one without a pump (R134). -/
def State.pumpEnd (s : State) (bank : Fin 4) (vsup : Nat) : State :=
  let bad := !s.pump.domain48[bank] && vsup > 2000
  let s1 := if bad then
      ((s.updPump fun p => { p with mismatch := p.mismatch.set bank true }).setFault 3).iceRecord 0x0120 (0x40 + bank.val) 2
        (le 2 0 ++ le 2 vsup)
    else s
  s1.pumpDone bank

/-- PUMP_REGULATED: the Bank's pump, or the spare in its place, is in regulation within 125 Frames of its start (R62). vsup is
in 10 mV. -/
def execPumpRegulated (bank : Fin 4) (vsup : Nat) (s : State) : Host.Outcome State Fault Refusal :=
  .next (
    if s.pumpWait bank && s.fr.count ≤ s.pump.startAt + 125 then
      let k := sideOf bank
      let spare := s.pump.spareFor[k] == some bank && s.pump.spare[k] == .starting
      let s1 := s.updPump fun p =>
        if spare then { p with spare := p.spare.set k .good } else { p with bank := p.bank.set bank .good }
      s1.pumpEnd bank vsup
    else s)

/-- PUMP_START_TIMEOUT: 125 Frames without regulation. The spare of the side is tried once, for 125 Frames more; then the Bank
stays without a pump (R62, R63). -/
def execPumpStartTimeout (x : PumpLate) (s : State) : Host.Outcome State Fault Refusal :=
  let bank := x.bank
  .next (
    if s.pumpWait bank && s.pump.startAt + 125 ≤ s.fr.count then
      let k := sideOf bank
      if s.pump.spareFor[k].isNone then
        (s.spareIn bank .starting).updPump fun p => { p with startAt := s.fr.count }
      else
        let spare := s.pump.spareFor[k] == some bank
        let s1 := s.updPump fun p =>
          { p with bank := p.bank.set bank .bad, spare := if spare then p.spare.set k .bad else p.spare }
        let unit := if spare then 4 + k.val else bank.val
        let s2 := (s1.setFault 3).iceRecord 0x0C02 rDevice 1 (le 1 2 ++ le 1 unit ++ le 1 k.val)
        s2.pumpEnd bank x.vsup
    else s)

/-- PUMP_FAIL: the pump that serves a Bank falls out of regulation (R136). -/
def execPumpFail (bank : Fin 4) (s : State) : Host.Outcome State Fault Refusal :=
  .next (
    let k := sideOf bank
    let spare := s.pump.spareFor[k] == some bank && s.pump.spare[k] == .good
    if s.live && (s.pump.bank[bank] == .good || spare) then
      if s.pump.bank[bank] == .good && s.pump.spareFor[k].isNone then s.spareIn bank .good
      else
        ((s.updPump fun p => { p with
          bank := p.bank.set bank .bad, spare := if spare then p.spare.set k .bad else p.spare
          failNow := p.failNow.set bank true }).setFault 3).iceRecord 0x0C02 rDevice 1
            (le 1 2 ++ le 1 (if spare then 4 + k.val else bank.val) ++ le 1 k.val)
    else s)

/-- Banks that lost their pump: in S1 their Channels in RAMP or ON that are not Class A are raised (R136), once the gates are not
frozen (R45). -/
def State.pumpRaises (s : State) : List Raise :=
  (allCh.filter fun n => s.pump.failNow[State.bank n] && !s.fr.freeze && !(s.ch[n]).tmb.classA && !s.isFollower n &&
    ((s.ch[n]).st == .ramp || (s.ch[n]).st == .on)).flatMap fun n => s.offSet n .pumpFail

/-- HELD Channels whose wire model has restarted return to ON (R65); those of a FAILED Group, whose models never step, do so
without it (log 151). -/
def State.heldToOn (s : State) : State :=
  if !s.pw.admOpen || !s.drives then s
  else overL (allCh.filter fun n =>
      (s.ch[n]).st == .held && ((s.ch[s.leader n]).stepping || (s.grp[chGroup n]).health ≥ 3)) (fun n s =>
    s.enter n .on .admitted (2 ^ causeCode .admitted) 0 0) s

/-- The start at step 16, or that of R345, is over: step 17 follows, and a return from SPENT is complete. -/
def State.cvStartOver (s : State) : State :=
  let s1 := when (s.zone.hu == .ret && s.zone.retSpent && s.zone.retStep == 2) State.huReturned s
  if s1.pw.step == 16 && !s1.pw.admOpen then s1.openAdmission else s1

def cvRunning : CvStart → Bool
  | .running _ => true
  | _ => false

/-- CONVERTER_REGULATION: the output has been within 2 % in 8 consecutive latches (R281). -/
def execConverterRegulation (s : State) : Host.Outcome State Fault Refusal :=
  .next (
    if s.live && cvRunning s.cv.start && s.cv.regRun ≥ 8 then
      let s1 := (s.updCv fun c => { c with start := .none }).cvSetsEnd (fun w => w == .cvStart) 0
      (s1.updHinge fun h => { h with cvAs := none }).cvStartOver
    else s)

/-- START_FAIL: regulation is not reached 25,000 Frames after the start (R282). -/
def execStartFail (s : State) : Host.Outcome State Fault Refusal :=
  .next (match s.cv.start with
    | .running since => if s.live && since + 25000 ≤ s.fr.count then (s.cvFault 8 0xFFFF).cvStartOver else s
    | _ => s)

/-! ### Power-up and resets -/

/-- POWER_UP: VIN_AUX above 5.8 V with RESET_N high (steps 1 and 2). -/
def execPowerUp (s : State) : Host.Outcome State Fault Refusal :=
  .next (
    if s.pw.mode == .off && !s.pw.resetNLow then
      let st : KrgState := if s.otp.kstart == some true then .off else .boot
      { s with
        pw := { (default : Power) with mode := .start, step := 2, starts := s.pw.starts }
        krg := { (default : Krg) with st := st } }
    else s)

/-- KEEP_ALIVE_POR: VIN_AUX below 4.5 V. -/
def execKeepAlivePor (s : State) : Host.Outcome State Fault Refusal := .next s.porReset

/-- LOGIC_POR: a core rail leaves its range. -/
def execLogicPor (s : State) : Host.Outcome State Fault Refusal := .next (s.logicReset 1 .off 2)

/-- LOGIC_POR_RELEASE: step 3; Keyring leaves DORMANT, and the two-wire counters start at 0 (R493). The logic die stays in reset while RESET_N is low and in SAFE. -/
def execLogicPorRelease (s : State) : Host.Outcome State Fault Refusal :=
  .next (
    if s.pw.mode == .start && s.pw.logic == .off && s.pw.step == 2 then
      let held := s.pw.resetNLow || s.krg.st == .safe
      (({ s with tw := default } : State).updPw fun p => { p with logic := if held then .inReset else .running, step := 3 }).updKrg fun k =>
        if k.st == .dormant then ({ k with st := .boot } : Krg).atReset else k
    else s)

/-- RESET_N: low for 200 ns or longer (R80). SAFE is left; SHUTDOWN is not (R569). -/
def execResetN (s : State) : Host.Outcome State Fault Refusal :=
  let s1 := s.updPw fun p => { p with resetNLow := true }
  .next (
    if s.krg.st == .safe && s.pw.logic == .inReset then
      s1.updKrg fun k => ({ k with st := .boot } : Krg).atReset
    else s1.logicReset 2 .inReset 3)

/-- RESET_N_RELEASE: the start resumes at step 4, with the two-wire counters clear (R493). -/
def execResetNRelease (s : State) : Host.Outcome State Fault Refusal :=
  let starts := s.pw.mode == .start && s.pw.logic == .inReset && s.krg.st != .safe
  .next (({ s with tw := if starts then default else s.tw } : State).updPw fun p => { p with
    resetNLow := false, logic := if starts then .running else p.logic })

/-- LOCKSTEP_MISMATCH (R15). -/
def execLockstepMismatch (s : State) : Host.Outcome State Fault Refusal := .next (s.resetTo4 4)

/-- PLL_LOCK_LOSS: once the PLLs are locked, and not while they relock (Table 2.4). -/
def execPllLockLoss (s : State) : Host.Outcome State Fault Refusal :=
  .next (if s.pw.step ≥ 4 && !s.clk.relocking then s.resetTo4 7 else s)

/-! ### Power-fail warning (R75-R78) -/

/-- POWER_FAIL_WARNING: the record and the flush; the battery values are due when the flush ends (R76). -/
def execPowerFailWarning (s : State) : Host.Outcome State Fault Refusal :=
  .next (
    if s.pw.mode == .off || s.pw.pfw then s
    else if s.live then
      let s1 := s.updPw fun p => { p with pfw := true, batDue := true }
      (s1.iceRecord 0x0722 rDevice 2 [0]).updIce fun i => { i with flushing := true }
    else s.updPw fun p => { p with pfw := true })

/-- A Channel's Creep results go to Firn where they are not there yet (R242). -/
def CreepSt.resume (k : CreepSt) : CreepSt :=
  match k.newest with
  | some x => if x.rho == k.rho && x.zratio == k.zratio then k else k.store
  | none => if k.rho == 1 && k.zratio == 1 then k else k.store

/-- The Firn writes that a power-fail warning held back, once it has cleared (R76, R444, R600, R607; log 192). -/
def State.firnResume (s : State) : State :=
  let s1 := { s with ccountFirn := s.ccount }.updUpd fun u =>
    let v := if u.setLate then { u.startCopy with setLate := false } else u
    let x := v.recNewest
    if x.stA == v.slotA.st && x.reasonA == v.slotA.reason && x.stB == v.slotB.st && x.reasonB == v.slotB.reason then v else v.putRec
  let s2 := (when s1.upd.confirmLate State.confirmWrites s1).storeSettings
  s2.mapCh fun _ c => { c with creep := c.creep.resume }

/-- POWER_FAIL_CLEAR. -/
def execPowerFailClear (s : State) : Host.Outcome State Fault Refusal :=
  .next (if s.pw.pfw then
    let s1 := (s.updPw fun p => { p with pfw := false }).iceRecord 0x0722 rDevice 2 [1]
    when s.live State.firnResume s1
  else s)

/-! ### RESET, DORMANT, WAKE_CFG -/

def cmdReset (t : Taken) (s : State) : State :=
  s.guarded t [] fun s =>
    (s.await t (.tick 0 [])).updPw fun p => { p with resetDue := some (s.fr.count + 251) }

/-- A refusal of R83. A partner counts as present once it has been heard and until HINGE_LOST (log 139). -/
def State.dormBusy (s : State) (t : Taken) : Bool :=
  let own := if (s.qs[t.q]).cls == .a then 1 else 0
  let pair := (s.hinge.st == .active || s.hinge.st == .handing || s.hinge.st == .taking) && s.hinge.partnerSeen &&
    !s.hinge.partnerLost
  (allCh.any fun n => (s.ch[n]).st == .ramp) || !s.adm.isEmpty || s.zone.hu != .normal || s.outstandingA > own ||
    s.anyReceiving || pair

/-- The checks of cmdDormant beside the ones that every command has (R433). -/
def chkDormant (t : Taken) (s : State) : List (Nat × Bool) :=
  [(0x12, s.dormBusy t || !s.inRun)]

/-- DORMANT: admission closes at once, and CMD_START names the next tick. -/
def cmdDormant (t : Taken) (s : State) : State :=
  s.guarded t (chkDormant t s) fun s =>
    (s.await t .start).updPw fun p => { p with dormStep := 1, admOpen := false }

/-- The accepted DORMANT at the next tick. -/
def State.dormBegin (s : State) (t : Taken) : State := (s.cmdStart t).await t.begun .dormant

/-- The checks of cmdWakeCfg beside the ones that every command has (R433). -/
def chkWakeCfg (t : Taken) (s : State) : List (Nat × Bool) :=
  [(0x22, t.p 16 2 == 0 || t.p 18 1 > 7)]

def cmdWakeCfg (t : Taken) (s : State) : State :=
  s.guarded t (chkWakeCfg t s) fun s =>
    s.stage t .tick [(⟨kWake, 0, 0, 0⟩, t.p 16 2), (⟨kWake, 0, 1, 0⟩, t.p 18 1)]

def execReset (q : Fin 32) (d : CmdArgs) (s : State) : Host.Outcome State Fault Refusal :=
  .next (s.rowCmd cmdReset 0x0702 q d)
def execDormant (q : Fin 32) (d : CmdArgs) (s : State) : Host.Outcome State Fault Refusal :=
  .next (s.rowCmd cmdDormant 0x0703 q d)
def execWakeCfg (q : Fin 32) (d : CmdArgs) (s : State) : Host.Outcome State Fault Refusal :=
  .next (s.rowCmd cmdWakeCfg 0x0704 q d)

/-! ### Wake (R85, R87) -/

/-- A converter that still sheds for Dormant is started again as in step 16: what would end it is taken back, and it enables
Phases up to NMIN (R85, R281, log 138). -/
def State.cvResume (s : State) : State :=
  if s.cv.mode == .buck then
    s.updCv fun c => { c with
      dorm := none, modeNext := none, shed := none, start := .running s.fr.count, enableNs := 0, regRun := 0
      startLeft := s.nMin - s.activePh.length }
  else s.updCv fun c => { c with dorm := none }

/-- An entry is abandoned: the command completes with 0x12, and steps 16 and 17 are done again (R85). -/
def State.dormAbandon (s : State) : State :=
  let s1 := s.updPw fun p => { p with dormStep := 0, wakeLatch := none }
  let s2 := s1.completeOuts (fun o => o.wait == .dormant || (o.wait == .start && o.cmd.op == 0x0703))
    fun o s => s.finish o.cmd 0x12 (some s.fr.count)
  if s.cv.dorm.isSome && s.cv.mode == .buck then (s2.cvResume).updPw fun p => { p with step := 16, admOpen := false }
  else s2.cvResume.step16

/-- The BZ64 leaves DORMANT: step 3 of Table 2.6 is next. -/
def State.wakeNow (s : State) (src : Nat) : State :=
  (s.updPw fun p => { (default : Power) with
    mode := .start, logic := .off, step := 2, cause := 9, wakeSrc := src, pfw := p.pfw, resetNLow := p.resetNLow
    starts := p.starts, refState := p.refState, faultHeld := p.faultHeld }).keepEvent 0x0723 rDevice (le 1 src)

/-- A wake source fires: it wakes from DORMANT, abandons an entry before step 6, and is latched from step 6 on. -/
def State.wakeFire (s : State) (src : Nat) : State :=
  if s.pw.mode == .dormant then s.wakeNow src
  else if !s.live || s.pw.dormStep == 0 then s
  else if s.pw.dormStep < 6 then s.dormAbandon
  else s.updPw fun p => { p with wakeLatch := some (p.wakeLatch.getD src) }

/-- KEYRING_WAKE_INTERVAL (R558). -/
def execKeyringWakeInterval (s : State) : Host.Outcome State Fault Refusal :=
  .next (if s.krg.st == .dormant && s.pw.mode == .dormant && s.krg.wakeLeft != 0 then
    (s.updKrg fun k => { k with wakeLeft := 0 }).wakeFire 1 else s)

/-- Whether the comparator of a Channel trips (R187): the least forward shunt voltage of the last ns, in µV and as the gain
of its input amplifies it, is at or above its code × 2 mV, for no less than CMPF. Reverse current reads negative. -/
def State.cmpTrips (s : State) (n : Fin 64) (uv : Int) (ns : Nat) : Bool :=
  let g : Int := s.cmpGain n
  decide ((2000 * (s.ch[n]).cmp : Int) ≤ uv * g) && decide (0 < uv) && decide (s.cmpfNs n ≤ ns)

/-- COMPARATOR_TRIP of a Channel whose gate is driven (R191). With the logic die off or in reset, and in reset hold, the
drive die makes the transition; a chip that stands by notes the decision. -/
def execComparatorTrip (x : CmpSeen) (s : State) : Host.Outcome State Fault Refusal :=
  let n := x.n
  .next (
    let c := s.ch[n]
    if s.pw.mode == .off || s.pw.mode == .shutdown || !driven c.st || c.latch || !s.cmpTrips n x.uv x.ns then s
    else if s.live then
      if s.drives || s.hinge.resetHold then
        let s1 := s.compLatch n
        if c.st == .held && s.pw.dormStep != 0 then s1.wakeFire 5 else s1
      else s.noteDecisions [⟨n, .comparator, .tripped, 0, 0⟩]
    else if s.hinge.hen && !s.hinge.resetHold then s
    else
      let s1 := (s.compHeld n).placeSinks
      if s.pw.mode == .dormant then s1.wakeFire 5 else s1)

/-! ### Dormant entry (Table 2.11) -/

/-- Step 4: Channels in ON go to HELD or OFF, in a chip of a pair that stands by too (R83). A set with a comparator trip that S1
has still to take is left to it (R192). -/
def State.dormHold (s : State) : State :=
  overL (allCh.filter fun n => (s.ch[n]).st == .on && !((s.members n).any fun m => (s.ch[m]).cmpTrip)) (fun n s =>
    let s1 := s.enterNow n (if s.holds n then .held else .off) .reset (2 ^ causeCode .reset) 0 0
    if s.drives then s1 else s1.updCh n fun c => { c with gate := .low, gateNext := .low, sink := .none }) s

/-- Step 5: learned values and the snapshot go to Firn, and the buffer is flushed. -/
def State.dormStore (s : State) : State :=
  if s.pw.pfw then s
  else
    let s1 := s.mapCh fun _ c => { c with creep := c.creep.store }
    let s2 := { s1 with pd := s1.pd.map fun (p : PdPort) => { p with firn := p.life } }
    (s2.updCv fun c => c.slotPut s.fr.count).batWrite.snapWrite.iceFlushed

/-- A pump at step 6: it stops where its Bank has no HELD Channel, and goes to low power where it runs for one (R84). -/
def PumpSt.dormant (p : PumpSt) (used : Bool) : PumpSt :=
  if !used then .stopped else if p == .good then .lowPower else p

/-- Step 6: the command completes, and the pumps stop or go to low power. -/
def State.dormPumps (s : State) : State :=
  let used (b : Fin 4) : Bool := allCh.any fun n => State.bank n == b && (s.ch[n]).st == .held
  let s1 := s.completeOuts (fun o => o.wait == .dormant) fun o s => s.finish o.cmd 0 (some s.fr.count)
  s1.updPump fun p => { p with
    bank := Vector.ofFn fun b => (p.bank[b]).dormant (used b)
    spare := Vector.ofFn fun k => (p.spare[k]).dormant (match p.spareFor[k] with | some b => used b | none => false) }

/-- Step 7: the logic-die power switches open, and every discharge sink stops (R164). A driving chip of a pair with HELD Channels enters reset hold (R512). -/
def State.dormOff (s : State) : State :=
  let ref := s.ch.map (·.st)
  let s0 := s.compPending
  let held := allCh.any fun n => (s0.ch[n]).st == .held
  let s1 := s0.kept.mapCh fun _ c => { c with sink := .none }
  let s2 := { s1 with
    hinge := { s1.hinge with resetHold := s.hinge.hen && s.hinge.driving && held }
    pump := { (default : Pumps) with domain48 := s.pump.domain48, bank := s.pump.bank, spare := s.pump.spare, spareFor := s.pump.spareFor }
    krg := { s.krg with st := .dormant, count := 0, clkMain := false, wakeLeft := s.krg.wakeS }
    pw := { (default : Power) with
      mode := .dormant, logic := .off, pfw := s.pw.pfw, resetNLow := s.pw.resetNLow, starts := s.pw.starts
      refState := ref, faultHeld := s.faultN || s.pw.faultHeld } }
  match s.pw.wakeLatch with
  | some src => s2.wakeNow src
  | none => s2

/-- DORMANT_ENTRY_STEP: the step in progress completes and the next one begins. Step 3 completes once the converter is
IDLE. -/
def execDormantEntryStep (s : State) : Host.Outcome State Fault Refusal :=
  .next (
    if !s.live then s
    else
      let to' (k : Nat) (s : State) : State := s.updPw (fun p => { p with dormStep := k })
      match s.pw.dormStep with
      | 1 =>
        let s1 := overL allAux (fun r s =>
          (s.auxOff r).completeOuts (fun o => isAuxSet r o.wait) fun o s => s.finish o.cmd 0x12 (some s.fr.count)) s.pdSleep
        to' 2 s1
      | 2 =>
        to' 3 (if s.cv.mode == .idle then s.cvHalt
          else s.updCv fun c => { c with dorm := some s.fr.count, autoFault := none, countedAt := none })
      | 3 => if s.cv.mode == .idle && !s.fr.freeze then to' 4 s.dormHold else s
      | 4 => to' 5 s.dormStore
      | 5 => to' 6 s.dormPumps
      | 6 => s.dormOff
      | _ => s)

end Sys2Proof.Machine
end

