-- ==== Sys2Proof/Machine/Net.lean ====
section
/-! DEFINITION. Network links: receiving Euvos messages, the node table, COMMAND admission, the transmit lanes and the state
of the links (13). -/

namespace Sys2Proof.Machine

open Sys2Proof

def State.updNet (s : State) (f : Net → Net) : State := { s with net := f s.net }

/-! ### Links -/

def linkIx : Link → Nat
  | .t1 => 0
  | .t1s => 1

def otherLink : Link → Link
  | .t1 => .t1s
  | .t1s => .t1

def Net.up (n : Net) : Link → Bool
  | .t1 => n.up1
  | .t1s => n.upS

/-- MKA state: 0 none, 1 key agreement in progress, 2 secured. -/
def Net.mka (n : Net) : Link → Nat
  | .t1 => n.mka1
  | .t1s => n.mkaS

def Net.setMka (n : Net) (l : Link) (k : Nat) : Net :=
  match l with
  | .t1 => { n with mka1 := k }
  | .t1s => { n with mkaS := k }

/-- A link that carries Euvos messages: up and secured (R450). -/
def Net.carries (n : Net) (l : Link) : Bool := n.up l && n.mka l == 2

/-- MAC address of a link from OTP (R448, Table 13.1); 0 where it is unprogrammed. -/
def State.linkMac (s : State) : Link → BitVec 48
  | .t1 => s.otp.mac1.getD 0
  | .t1s => s.otp.macS.getD 0

/-- A link is held down (R451, R56); 10BASE-T1S does not operate without PLCA (Table 13.1). -/
def State.linkHeld (s : State) (l : Link) : Bool :=
  s.clk.rc || s.otp.nodeAddr.isNone ||
    (match l with
      | .t1 => s.otp.cak1.isNone
      | .t1s => s.otp.cakS.isNone || s.otp.plcaId.isNone)

/-- A drop of row k of Table 22.11, saturating at 0xFFFF_FFFF (R639). -/
def State.netDrop (s : State) (l : Link) (k : Fin 8) : State :=
  let i := linkIx l * 8 + k.val
  s.updNet fun n => { n with drops := Vector.ofFn fun j => if j.val == i then min (2 ^ 32 - 1) (n.drops[j] + 1) else n.drops[j] }

/-! ### The Euvos header (Table 13.4) -/

end Sys2Proof.Machine

namespace Sys2Proof

open Machine

def NetMsg.typ (m : NetMsg) : Nat := getLe m.bytes 1 1
def NetMsg.dst (m : NetMsg) : Nat := getLe m.bytes 2 2
def NetMsg.src (m : NetMsg) : Nat := getLe m.bytes 4 2
def NetMsg.queue (m : NetMsg) : Nat := getLe m.bytes 6 1
def NetMsg.mseq (m : NetMsg) : Nat := getLe m.bytes 8 4
def NetMsg.len (m : NetMsg) : Nat := getLe m.bytes 12 2
def NetMsg.rlen (m : NetMsg) : Nat := getLe m.bytes 14 2
def NetMsg.payload (m : NetMsg) : List Byte := m.bytes.drop 16

/-- Receive lane by PCP (R465). -/
def NetMsg.lane (m : NetMsg) : Cls :=
  match m.pcp with
  | none => .c
  | some p => if p.toNat ≥ 6 then .a else if p.toNat ≥ 4 then .b else .c

/-- The header is bad: VER, reserved bits, or LEN against the payload (R459). -/
def NetMsg.badHeader (m : NetMsg) : Bool :=
  m.bytes.length < 16 || m.bytes.head? != some 0x10#8 || m.dst ≥ 1024 || m.src ≥ 1024 || m.len != m.payload.length

/-- LEN lies outside the limit of its TYPE (Table 13.5). -/
def NetMsg.badLen (m : NetMsg) : Bool :=
  (m.typ == 1 && (m.len < 64 || m.len > 1088)) || (m.typ == 7 && m.len > 64)

/-- The types that the BZ64 receives (R460). -/
def NetMsg.typeOk (m : NetMsg) : Bool := m.typ == 1 || m.typ == 6 || m.typ == 7

/-- Units of the data window that a COMMAND asks for; RLEN is at most 1,024 (Table 13.4, log 84). -/
def NetMsg.areaBytes (m : NetMsg) : Nat := max (m.len - 64) (min 1024 m.rlen)
def NetMsg.areaUnits (m : NetMsg) : Nat := (m.areaBytes + 15) / 16

end Sys2Proof

namespace Sys2Proof.Machine

open Sys2Proof

/-- The addresses under which a message is not taken (R454). -/
def State.badAddress (s : State) (m : NetMsg) : Bool :=
  let own := s.otp.nodeAddr.getD 0
  (m.dst != own && m.dst != 0x3FF) || m.src == 0x3FF || m.src == own || (m.typ == 1 && m.dst == 0x3FF)

/-- The node table takes what a valid message shows (R455). -/
def State.netLearn (s : State) (m : NetMsg) : State :=
  s.updNet fun n => { n with nodes := ⟨m.src, m.link, m.encap, m.mac⟩ :: n.nodes.filter fun e => e.node != m.src }

/-! ### COMMAND admission (R461-R463, R466) -/

/-- A COMPLETION for a COMMAND that did not enter its ring. Ring fields of the entry are free (log 86). -/
def State.cmdReject (s : State) (m : NetMsg) (status : Nat) : State :=
  let lane : Cls := if h : m.queue < 32 then (s.qs[m.queue]).cls else .c
  let free := (Config.readResult s.free).toNat
  let ent := le 4 (getLe m.payload 4 4) ++ le 2 (getLe m.payload 0 2) ++ le 1 status ++ le 1 (free / 2 ^ 32 % 2) ++ le 4 free ++
    le 4 0xFFFFFFFF ++ le 8 0 ++ le 4 0 ++ le 4 0
  ({ s with free := s.free + 1 }).sendMsg lane 2 m.src (m.queue % 256) (clsCode lane) ent none false none (some (s.fr.count, none))

/-- The lowest offset, in units of 16 bytes, at which n units are free in a data window of 512 units. -/
def fitArea (areas : List (Nat × Nat × Nat)) (n : Nat) : Option Nat :=
  let ends := areas.map fun a => a.2.1 + a.2.2
  ((0 :: ends).filter fun o =>
    o + n ≤ 512 && areas.all fun a => o + n ≤ a.2.1 || a.2.1 + a.2.2 ≤ o).min?

/-- A COMMAND that has passed every check enters the ring (R462). -/
def State.cmdEnter (s : State) (q : Fin 32) (m : NetMsg) (off : Nat) : State :=
  let k := s.qs[q]
  let (op, d) := parseDesc (m.payload.take 64)
  let n := m.areaBytes
  let d1 : CmdArgs := { d with
    doff := BitVec.ofNat 16 (if n == 0 then 0 else off), dlen := BitVec.ofNat 16 n
    flags := (d.flags &&& 0xFFFE#16) ||| (if n == 0 then 0#16 else 1#16) }
  let offLane := k.cls == .a && m.lane != .a
  let v := s.newVis q m.src (BitVec.ofNat 32 m.mseq) offLane (some (min 1024 m.rlen))
  let m1 := memWriteL s.qmem (sqBase q + 64 * k.sqTail) (descBytes op d1)
  let m2 := if n == 0 then m1 else memWriteL m1 (winAddr q + 16 * off) (m.payload.drop 64)
  let r : Recent := ⟨k.nIn, m.src, BitVec.ofNat 32 m.mseq, m.payload, none⟩
  let s1 := ({ s with qmem := m2 }).updQ q fun k => { k with
    sqTail := (k.sqTail + 1) % k.depth, vis := k.vis ++ [v], nIn := k.nIn + 1
    recent := (k.recent ++ [r]).drop (k.recent.length - 15)
    areas := if n == 0 then k.areas else k.areas ++ [(r.id, off, m.areaUnits)] }
  when offLane (fun s => s.netDrop m.link 6) s1

/-- The checks of Table 13.6 in order; a repeat is looked for once the Queue is known to be in RUN (log 85). -/
def State.netCommand (s : State) (m : NetMsg) : State :=
  let bad (s : State) (o : Option (Fin 16)) : State :=
    let q : Option (Fin 32) := if h : m.queue < 32 then some ⟨m.queue, h⟩ else none
    (s.violation 7 0 o q m.src).cmdReject m 0x20
  match s.srcOwner m.src with
  | none => bad s none
  | some o =>
    if h : m.queue < 32 then
      let q : Fin 32 := ⟨m.queue, h⟩
      let k := s.qs[q]
      if k.isEvent || k.path != .network || k.owner != some o then bad s (some o)
      else if k.st != .run || k.disabling then s.cmdReject m 0x12
      else
        match k.recent.find? fun r => r.src == m.src && r.mseq.toNat == m.mseq with
        | some r => (match r.cpl with
          | some b => s.sendMsg k.cls 2 r.src q.val (clsCode k.cls) b
          | none => s)
        | none =>
          if k.untaken + 1 ≥ k.depth then s.cmdReject m 0x41
          else match fitArea k.areas m.areaUnits with
            | none => s.cmdReject m 0x41
            | some off => s.cmdEnter q m off
    else bad s (some o)

/-- An ECHO_REQ is answered on the lane on which it came, with its MSEQ (R460). -/
def State.netEcho (s : State) (m : NetMsg) : State :=
  s.sendMsg m.lane 8 m.src 0xFF 0 m.payload none false (some m.mseq)

/-- MACsec takes a frame: a valid SecTAG and ICV under the link's SAK, one of at most 16 receive channels, and a packet number beyond the
last of its channel (R450, Table 13.2, log 202). -/
def State.macsecOk (s : State) (m : NetMsg) : Bool :=
  m.secOk && s.net.mka m.link == 2 &&
    (match s.net.rxSc.find? fun c => c.link == m.link && c.sci == m.sci with
      | some c => c.last < m.pn.toNat
      | none => (s.net.rxSc.filter fun c => c.link == m.link).length < 16)

/-- The packet number of a frame that MACsec has taken is used up. -/
def State.rxPn (s : State) (m : NetMsg) : State :=
  s.updNet fun n => { n with rxSc := ⟨m.link, m.sci, m.pn.toNat⟩ :: n.rxSc.filter fun c => c.link != m.link || c.sci != m.sci }

/-- The EtherType and destination port of Euvos (Table 13.3). -/
def euvosEther : Encap → Half
  | .raw => 0x88B5#16
  | .udp _ _ => 0x86DD#16
def euvosPort : Half := 48612#16

/-- A frame that carries Euvos; any other is not for the block (log 203). -/
def isEuvos (m : NetMsg) : Bool :=
  m.etherType == euvosEther m.encap && (m.encap == .raw || m.dport == euvosPort)

/-- A received frame whose security holds: the drops in the order of log 84, the node table, then what its TYPE asks for. -/
def State.netTake (s : State) (m : NetMsg) : State :=
  if !isEuvos m then s
  else if m.ipBad then s.netDrop m.link 4
  else if m.badHeader then s.netDrop m.link 2
  else if !m.typeOk then s.netDrop m.link 3
  else if m.badLen then s.netDrop m.link 2
  else if s.badAddress m then s.netDrop m.link 1
  else
    let s1 := s.netLearn m
    if m.typ == 1 then s1.netCommand m
    else if m.typ == 7 then s1.netEcho m
    else s1.hingeMsg (getLe m.payload 4 1) m.src m.payload

/-- A received frame: its lane, its security, then what it carries (R450, R465). -/
def State.netRecv (s : State) (m : NetMsg) : State :=
  if !s.live || !s.net.up m.link then s
  else if m.laneFull then s.netDrop m.link 5
  else if !s.macsecOk m then s.netDrop m.link 0
  else (s.rxPn m).netTake m

/-! ### Transmission (R464, R466, R467) -/

/-- Bytes of a list replaced from an offset on. -/
def putBytes (l : List Byte) (off : Nat) (b : List Byte) : List Byte := l.take off ++ b ++ l.drop (off + b.length)

/-- The first message of a link in lane order. -/
def Net.first (n : Net) (l : Link) : Option TxMsg := (n.txA ++ n.txB ++ n.txC).find? fun m => m.link == l

/-- The link-local address with the modified EUI-64 identifier of a MAC address (R458). -/
def linkLocal (mac : BitVec 48) : BitVec 128 :=
  let hi := (mac >>> 24).toNat ^^^ 0x020000
  BitVec.ofNat 128 (0xFE80 * 2 ^ 112 + hi * 2 ^ 40 + 0xFFFE * 2 ^ 24 + mac.toNat % 2 ^ 24)

/-- What surrounds a message: the node's encapsulation and MAC, or raw to the broadcast MAC (R455), the tag (R467), and over UDP the
own link-local address, hop limit 255 and the port of Euvos (R457, R458). -/
def State.txHdr (s : State) (m : TxMsg) : TxHdr :=
  let own := s.linkMac m.link
  let hdr (e : Encap) (mac : BitVec 48) : TxHdr :=
    { encap := e, mac := mac, own := own, pcp := if m.cap then 1 else match m.lane with | .a => 6 | .b => 4 | .c => 2
      vlan := s.otp.vlan.getD 0, etherType := euvosEther e
      src6 := if e == .raw then 0 else linkLocal own, hop := if e == .raw then 0 else 255, dport := if e == .raw then 0 else euvosPort }
  match s.net.nodes.find? fun e => e.node == m.dest && m.dest != 0x3FF with
  | some e => hdr e.encap e.mac
  | none => hdr .raw (BitVec.allOnes 48)

/-- A neighbour discovery frame goes out on a link with the tag of its Class C lane (R458, R467, log 119). -/
def State.sendNd (s : State) (l : Link) (solicit : Bool) (target dst : BitVec 128) : State :=
  let e : NdFrame := { link := l, solicit := solicit, target := target, dst := dst, own := s.linkMac l, pcp := 2
                       vlan := s.otp.vlan.getD 0, hop := 255 }
  s.updNet fun n => { n with nd := n.nd ++ [e] }

/-- The solicited-node multicast address of an IPv6 address. -/
def solicitedNode (ip : BitVec 128) : BitVec 128 := BitVec.ofNat 128 (0xFF02 * 2 ^ 112 + 0x1FF * 2 ^ 24 + ip.toNat % 2 ^ 24)

/-- The transmit packet number moves on; a new SAK is requested at 0xC000_0000 (Table 13.2). -/
def Net.packet (n : Net) (l : Link) : Net :=
  match l with
  | .t1 => { n with pn1 := n.pn1 + 1, rekey1 := n.rekey1 || n.pn1 + 1 ≥ 0xC0000000 }
  | .t1s => { n with pnS := n.pnS + 1, rekeyS := n.rekeyS || n.pnS + 1 ≥ 0xC0000000 }

/-- A ring entry is freed once its message has been handed over, and the command's area with it (R462, R464). -/
def State.txFree (s : State) : Option (Fin 32 × Option Nat) → State
  | none => s
  | some (q, id) =>
    let s1 := s.updQ q fun k => { k with areas := k.areas.filter fun a => some a.1 != id }
    let k := s1.qs[q]
    if k.held == 0 then s1 else s1.freeTo q ((k.cqHead + 1) % k.depth)

/-- A message has been handed to the MAC: its ring entry is free; a command has completed with it, for a repeat of its COMMAND and for the
bound of R409 (R408, R463, R464). pre is the state in which it was handed over. -/
def State.handed (s pre : State) (m : TxMsg) (bytes : List Byte) : State :=
  let s1 := match m.frees with
    | some (q, some id) => s.updQ q fun (k : Queue) => { k with
        recent := k.recent.map fun (r : Recent) => if r.id == id then { r with cpl := some (bytes.drop 16) } else r }
    | _ => s
  let s2 := s1.txFree m.frees
  match m.frees, m.lat with
  | some (q, _), some (since, some tag) => s2.latMiss q tag since (pre.latOf since)
  | _, _ => s2

/-- The first message of a link in lane order is handed to its MAC. -/
def State.handOver (s : State) (l : Link) : State :=
  match s.net.first l with
  | none => s
  | some m =>
    let b1 := if m.keepSeq then m.bytes else putBytes m.bytes 8 (le 4 s.net.mseq.toNat)
    let b2 := match m.lat with
      | some (since, _) => putBytes b1 44 (le 2 (s.latOf since))
      | none => b1
    let sent : TxMsg := { m with bytes := b2, hdr := some (s.txHdr m) }
    let s1 := s.updNet fun n => { (n.setLane m.lane ((n.lane m.lane).erase m)).packet l with
      mseq := n.mseq + 1, sent := n.sent ++ [sent] }
    ({ s1 with free := if m.lat.isSome then s.free + 1 else s.free } : State).handed s m b2

/-- Streaming over 1000BASE-T1 (R129, R468): the next CAPTURE message of the stream in turn, every sixth Frame, while no
Class A or B frame of the link waits. Words that the ring has lost meanwhile are marked in the message after them; the last message
is that of a stream in DONE or FROZEN (log 87). -/
def State.capStream (s : State) : State :=
  if s.fr.count % 6 != 0 || 2 ≤ s.th.level || (s.net.txA ++ s.net.txB).any (·.link == .t1) then s
  else match s.net.capNet with
    | [] => s
    | (i, dst, next) :: rest =>
      let c := s.cap[i]
      let done := c.st == 3 || c.st == 4
      let skip := max next c.gone - c.gone
      let ws := (c.words.drop skip).take (if capWide c.src then 256 else 512)
      if !s.net.nodes.any (fun e => e.node == dst && e.link == .t1) then s.updNet fun n => { n with capNet := rest }
      else if c.st == 0 || (ws.isEmpty && !done) then s.updNet fun n => { n with capNet := rest ++ [(i, dst, next)] }
      else
        let last := done && skip + ws.length ≥ c.words.length
        let s1 := s.sendMsg .c 5 dst 0xFF 0 (le 1 i.val ++ le 1 (bit last + 2 * bit (decide (next < c.gone))) ++ le 2 ws.length ++
          le 4 skip ++ capBytes c.src ws)
        s1.updNet fun n => { n with capNet := if last then rest else rest ++ [(i, dst, c.gone + skip + ws.length)] }

/-- The transmit work of 1000BASE-T1 in one Frame (log 87). -/
def State.netTick (s : State) : State :=
  if !s.net.carries .t1 then s
  else
    let s1 := s.capStream
    overL (s1.net.txA ++ s1.net.txB ++ s1.net.txC) (fun _ s => s.handOver .t1) s1

/-! ### Link state (R56, R451, R456) -/

/-- The nodes that move from one link to the other are looked for there, where they are reached over UDP (R458, log 119). -/
def State.resolveNodes (s : State) (l o : Link) : State :=
  overL (s.net.nodes.filter (·.link == l)) (fun e s => match e.encap with
    | .udp ip _ => s.sendNd o true ip (solicitedNode ip)
    | .raw => s) s

/-- What a lost link carried goes to the other link where that one is up. -/
def State.linkMove (s : State) (l : Link) : State :=
  let o := otherLink l
  let mv (x : List TxMsg) : List TxMsg := x.map fun m => if m.link == l then { m with link := o } else m
  let s1 := if s.net.up o then
      ((s.resolveNodes l o).updNet fun n => { n with
        nodes := n.nodes.map fun e => if e.link == l then { e with link := o } else e
        txA := mv n.txA, txB := mv n.txB, txC := mv n.txC }).iceRecord 0x0C01 rDevice 0
          (le 1 5 ++ le 1 (linkIx o) ++ le 1 0)
    else s
  if l == .t1 then s1.updNet fun n => { n with capNet := [], txC := n.txC.filter fun m => !m.cap } else s1

/-- A link goes up or down; a link that is held down does not go up. -/
def State.linkTo (s : State) (l : Link) (up : Bool) : State :=
  if !s.live || s.net.up l == up || (up && s.linkHeld l) then s
  else
    let s1 := s.updNet fun n => (match l with
      | .t1 => { n with up1 := up }
      | .t1s => { n with upS := up }).setMka l 0
    let s2 := s1.iceRecord 0x0724 rDevice 1 (le 1 (linkIx l) ++ le 1 (bit up))
    if up then s2 else s2.linkMove l

/-! ### Meanings -/

/-- COMMAND_MESSAGE: a received message; the TYPE in its header decides what it is. -/
def execCommandMessage (m : NetMsg) (s : State) : Host.Outcome State Fault Refusal := .next (s.netRecv m)

/-- ECHO_REQ (R460). -/
def execEchoReq (m : NetMsg) (s : State) : Host.Outcome State Fault Refusal := .next (s.netRecv m)

/-- PERMIT (R497). -/
def execPermit (m : NetMsg) (s : State) : Host.Outcome State Fault Refusal := .next (s.netRecv m)

/-- REVOKE (R498). -/
def execRevoke (m : NetMsg) (s : State) : Host.Outcome State Fault Refusal := .next (s.netRecv m)

/-- FAILOVER (R505). -/
def execFailover (m : NetMsg) (s : State) : Host.Outcome State Fault Refusal := .next (s.netRecv m)

/-- NEIGHBOUR_SOLICITATION for the own link-local address is answered; any other is ignored. -/
def execNeighbourSolicitation (link : Link) (target src : BitVec 128) (_mac : BitVec 48) (s : State) :
    Host.Outcome State Fault Refusal :=
  .next (
    if s.live && s.net.carries link && target == linkLocal (s.linkMac link) then
      s.sendNd link false target src
    else s)

/-- NEIGHBOUR_ADVERTISEMENT: the MAC address of a node known by its IPv6 address. -/
def execNeighbourAdvertisement (link : Link) (ip : BitVec 128) (mac : BitVec 48) (s : State) :
    Host.Outcome State Fault Refusal :=
  .next (
    if s.live && s.net.carries link then
      let fix (e : Node) : Node := match e.encap with
        | .udp a _ => if a == ip && e.link == link then { e with mac := mac } else e
        | .raw => e
      s.updNet fun n => { n with nodes := n.nodes.map fix }
    else s)

/-- LINK_STATE (R456). -/
def execLinkState (link : Link) (up : Bool) (s : State) : Host.Outcome State Fault Refusal := .next (s.linkTo link up)

/-- MKA_FRAME: key agreement begins, or a new SAK is installed (R450, Table 13.2). -/
def execMkaFrame (link : Link) (newSak : Bool) (s : State) : Host.Outcome State Fault Refusal :=
  .next (
    if !s.live || !s.net.up link then s
    else if newSak then
      s.updNet fun n => (match link with
        | .t1 => { n with sak1 := n.sak1 + 1, pn1 := 0, rekey1 := false, rxSc := n.rxSc.filter (·.link != link) }
        | .t1s => { n with sakS := n.sakS + 1, pnS := 0, rekeyS := false, rxSc := n.rxSc.filter (·.link != link) }).setMka link 2
    else s.updNet fun n => n.setMka link (max 1 (n.mka link)))

/-- TRANSMIT_OPPORTUNITY: the first frame in lane order goes out on 10BASE-T1S (R467). -/
def execTransmitOpportunity (s : State) : Host.Outcome State Fault Refusal :=
  .next (if s.live && s.net.carries .t1s then s.handOver .t1s else s)

end Sys2Proof.Machine
end

