-- ==== Sys2Proof/Machine/Clock.lean ====
section
/-! DEFINITION. Clock faults: the switch to the RC oscillator, the relock and the start on the RC oscillator (R54-R57, R60). -/

namespace Sys2Proof.Machine

open Sys2Proof

/-- The generators go on from their present motion in Frames of 4.08 µs (R173, R310). -/
def State.gensToRc (s : State) : State :=
  { s with cv := { s.cv with gen := s.cv.gen.stretch (102 / 100) }
           aux := s.aux.map fun a => { a with gen := a.gen.stretch (102 / 100) } }

/-- CRYSTAL_FAULT: both PLLs switch to the RC oscillator; while Frames run the actuators freeze until the relock, and the
links go down (R55, R56). -/
def execCrystalFault (s : State) : Host.Outcome State Fault Refusal :=
  .next (
    if s.pw.logic != .running || s.clk.rc then s
    else if !s.live then
      -- before step 6: a relock where the PLLs have locked; the records follow START
      (((s.updClk fun c => { c with rc := true, relocking := decide (4 ≤ s.pw.step) }).setFault 2).keepEvent 0x0D01 rDevice
        (le 1 0 ++ le 1 0)).keepEvent 0x0C01 rDevice (le 1 4 ++ le 1 0 ++ le 1 0)
    else
      -- R194: the last latch before the suspension is kept for the step that follows it
      let s0 := (s.mapCh fun n _ => s.wmHold n).gensToRc
      let s1 := (s0.updClk fun c => { c with rc := true, relocking := true }).updFr fun f => { f with freeze := true }
      let s2 := ((s1.setFault 2).iceRecord 0x0D01 rDevice 2 (le 1 0 ++ le 1 0)).iceRecord 0x0C01 rDevice 0
        (le 1 4 ++ le 1 0 ++ le 1 0)
      (s2.linkTo .t1 false).linkTo .t1s false)

/-- PLL_RELOCK: the PLLs have locked to the RC oscillator; the freeze ends at the next tick, and the next Frame steps the wire
models over the Frames of the relock. A failed RC oscillator gives no lock (log 81). -/
def execPllRelock (s : State) : Host.Outcome State Fault Refusal :=
  .next (if s.clk.relocking && !s.clk.rcFailed then s.updClk fun c => { c with relocking := false } else s)

/-- RC_OSCILLATOR_FAULT: marked failed until the next start (Table 2.4); before step 6 its record follows START (log 133). -/
def execRcOscillatorFault (s : State) : Host.Outcome State Fault Refusal :=
  .next (
    if s.pw.logic != .running || s.clk.rcFailed then s
    else
      let s1 := s.updClk fun c => { c with rcFailed := true }
      if s.live then s1.iceRecord 0x0D01 rDevice 2 (le 1 2 ++ le 1 1) else s1.keepEvent 0x0D01 rDevice (le 1 2 ++ le 1 1))

/-- CRYSTAL_START_TIMEOUT: step 4 goes on with the RC oscillator (R60; log 72), a spare brought into service, whose record follows
START (R39). -/
def execCrystalStartTimeout (s : State) : Host.Outcome State Fault Refusal :=
  .next (if s.pw.logic == .running && s.pw.step == 3 then (s.updClk fun c => { c with rc := true }).keepEvent 0x0C01 rDevice (le 1 4 ++ le 1 0 ++ le 1 0) else s)

end Sys2Proof.Machine
end

