-- ==== Sys2Proof/Machine/TwoWire.lean ====
section
/-! DEFINITION. The two-wire buses: the TW0 status block and wake, the command path over TW1, Host Notify and the error
counters (14). -/

namespace Sys2Proof.Machine

open Sys2Proof

def State.updTw (s : State) (f : Tw → Tw) : State := { s with tw := f s.tw }

/-! ### Addresses and counters -/

/-- The own address of a block; none where it is unprogrammed and the block disabled (R478). -/
def State.twAddr (s : State) : Bus → Option Nat
  | .tw0 => s.otp.tw0Addr
  | .tw1 => s.otp.tw1Addr

/-- SMBus mode by TW0MODE and TW1MODE; SMBus by default (Table 14.2). -/
def State.twSmbus (s : State) : Bus → Bool
  | .tw0 => s.otp.tw0Smbus.getD true
  | .tw1 => s.otp.tw1Smbus.getD true

def State.updCnt (s : State) (b : Bus) (f : TwCnt → TwCnt) : State :=
  match b with
  | .tw0 => s.updTw fun t => { t with c0 := f t.c0 }
  | .tw1 => s.updTw fun t => { t with c1 := f t.c1 }

/-- A 16-bit counter that saturates (R493). -/
def inc16 (n : Nat) : Nat := min 65535 (n + 1)

def State.twOut (s : State) (o : Option (List Byte)) : State := s.updTw fun t => { t with out := o }

/-- A NACK at the address byte outside service, counted as NACK_WAKE. -/
def State.twNack (s : State) (b : Bus) : State :=
  (s.updCnt b fun c => { c with nackWake := inc16 c.nackWake }).twOut none

/-! ### TW0 (R479, R480) -/

/-- TW0 answers from step 6 of Table 2.6 until step 1 of Dormant entry (log 91). -/
def State.tw0Serves (s : State) : Bool := s.live && s.pw.dormStep == 0

/-- The status block (Table 14.3). -/
def State.tw0Status (s : State) : List Byte :=
  let soc := if s.znf Fld.CHEM == 2 then 0xFFFF else satU 2 (rnd (s.bat.pubSoc * 100))
  let flags := bit s.faultN + bit (s.th.level ≥ 1) * 2 + bit (s.th.level ≥ 2) * 4 + bit s.bat.uncertain * 8 +
    bit (s.grp.toList.any fun g => g.health != 0) * 16
  le 1 (bit s.inRun) ++ le 1 (huCode s.zone.hu) ++ le 1 flags ++ le 1 s.pw.cause ++ le 4 s.now32 ++ le 2 soc ++
    le 2 (satU 2 (rnd (s.v12Bus * 100)))

/-- The bytes of a Block Read after the command code: count, data, PEC over the whole transfer (Table 14.1). -/
def blockReply (addr code : Nat) (data : List Byte) : List Byte :=
  let body := le 1 data.length ++ data
  body ++ [crc8Smb (le 1 (addr * 2) ++ le 1 code ++ le 1 (addr * 2 + 1) ++ body)]

/-- What an address byte of TW0 does outside service: NACKed, and a wake source where WAKE_CFG does not mask it. -/
def State.tw0Away (s : State) : State :=
  let s1 := s.twNack .tw0
  if s.krg.wakeMask.getLsbD 2 then s1 else s1.wakeFire 4

/-- WAKE: a maskable source of Table 2.12; a mask bit of 1 masks it (log 69). That of TW0 is its own address, NACKed and counted while
the keep-alive receiver serves it (R480). -/
def execWake (src : WakeSrc) (s : State) : Host.Outcome State Fault Refusal :=
  let fire (b : Nat) : State := if s.krg.wakeMask.getLsbD b then s else s.wakeFire (2 + b)
  .next (match src with
    | .wakeIn => fire 0
    | .t1s => fire 1
    | .tw0 => if (s.twAddr .tw0).isNone || s.tw0Serves then s else s.tw0Away)

/-- TW0_BLOCK_READ (R479, R480). -/
def execTw0BlockRead (code : Byte) (s : State) : Host.Outcome State Fault Refusal :=
  .next (match s.twAddr .tw0 with
    | none => s.twOut none
    | some a =>
      if !s.tw0Serves then s.tw0Away
      else s.twOut (if code == 0 then some (blockReply a 0 s.tw0Status) else none))

/-- TW0_QUICK_COMMAND: acknowledged, no effect. -/
def execTw0QuickCommand (s : State) : Host.Outcome State Fault Refusal :=
  .next (match s.twAddr .tw0 with
    | none => s.twOut none
    | some _ => if !s.tw0Serves then s.tw0Away else s.twOut (some []))

/-! ### TW1: commands (R481-R483) -/

/-- The part of the response list for completions of a Class (R484). -/
def respPart : Cls → Nat
  | .a => 0
  | .b => 2
  | .c => 3

/-- A completion for a block that did not enter its ring. Ring fields of the entry are free (log 86). -/
def State.twReject (s : State) (q : Fin 32) (b : List Byte) (status : Nat) : State :=
  let cls : Cls := (s.qs[q]).cls
  let free := (Config.readResult s.free).toNat
  let ent := le 4 (getLe b 4 4) ++ le 2 (getLe b 0 2) ++ le 1 status ++ le 1 (free / 2 ^ 32 % 2) ++ le 4 free ++
    le 4 0xFFFFFFFF ++ le 8 0 ++ le 4 0 ++ le 2 (free / 2 ^ 33) ++ le 2 0
  let s : State := { s with free := s.free + 1 }
  s.twAdd ⟨respPart cls, 1, q, ent, none⟩ (cls == .a)

/-- Area of a block: the greater of the input length and 221 bytes (R482). -/
def twAreaBytes (b : List Byte) : Nat := max (b.length - 64) 221

/-- A block that has passed every check enters the ring at STOP (R482). -/
def State.twEnter (s : State) (q : Fin 32) (b : List Byte) (off : Nat) : State :=
  let k := s.qs[q]
  let (op, d) := parseDesc (b.take 64)
  let n := twAreaBytes b
  let d1 : CmdArgs := { d with
    doff := BitVec.ofNat 16 off, dlen := BitVec.ofNat 16 n, flags := d.flags ||| 1#16 }
  let v := s.newVis q 0x401 0 false
  let m1 := memWriteL s.qmem (sqBase q + 64 * k.sqTail) (descBytes op d1)
  let m2 := memWriteL m1 (winAddr q + 16 * off) (b.drop 64)
  let r : Recent := ⟨k.nIn, 0x401, 0, b.take 64, none⟩
  ({ s with qmem := m2 }).updQ q fun k => { k with
    sqTail := (k.sqTail + 1) % k.depth, vis := k.vis ++ [v], nIn := k.nIn + 1
    recent := (k.recent ++ [r]).drop (k.recent.length - 3), areas := k.areas ++ [(r.id, off, (n + 15) / 16)] }

/-- The checks of Table 13.6 with TW1 in place of the network path; a repeat is looked for once the Queue is known to be in
RUN (log 85). -/
def State.twCommand (s : State) (q : Fin 32) (b : List Byte) : State :=
  let k := s.qs[q]
  let o := s.srcOwner 0x401
  if o.isNone || k.isEvent || k.path != .tw1 || k.owner != o then (s.violation 7 2 o (some q) 0x401).twReject q b 0x20
  else if k.st != .run || k.disabling then s.twReject q b 0x12
  else
    match k.recent.find? fun r => r.key == b.take 64 with
    | some r =>
      let s1 := s.updCnt .tw1 fun c => { c with dup := inc16 c.dup }
      (match r.cpl with
        | some e => s1.twAdd ⟨respPart k.cls, 1, q, e, none⟩ (k.cls == .a)
        | none => s1)
    | none =>
      if k.untaken + 1 ≥ k.depth then s.twReject q b 0x41
      else match fitArea k.areas ((twAreaBytes b + 15) / 16) with
        | none => s.twReject q b 0x41
        | some off => s.twEnter q b off

/-- TW1_BLOCK_WRITE: code, count, the bytes before the PEC, and the PEC where the controller sent one. -/
def execTw1BlockWrite (code : Byte) (count : Nat) (bytes : List Byte) (pec : Option Byte) (s : State) :
    Host.Outcome State Fault Refusal :=
  .next (match s.twAddr .tw1 with
    | none => s.twOut none
    | some a =>
      if !s.live then s.twNack .tw1
      else if h : code.toNat < 32 then
        let s0 := s.twOut (some [])
        if count < 64 || count > 255 || bytes.length != count || pec.isNone then
          s0.updCnt .tw1 fun c => { c with format := inc16 c.format }
        else if pec != some (crc8Smb (le 1 (a * 2) ++ [code] ++ le 1 count ++ bytes)) then
          (s.twOut none).updCnt .tw1 fun c => { c with pecErr := inc16 c.pecErr }
        else s0.twCommand ⟨code.toNat, h⟩ bytes
      else s.twOut none)

/-! ### TW1: responses (R484) -/

/-- The summary word (Table 14.6). -/
def State.twSummary (s : State) : Nat :=
  bit s.live * 1024 + bit (s.tw.resp.any fun e => e.kind == 2) * 512 + bit (s.tw.resp.any fun e => e.part == 0) * 256 +
    min 255 s.tw.resp.length

/-- The first entry leaves the list, and the ring entry and area that it stands for are freed. -/
def State.twTake (s : State) : State :=
  match s.tw.resp with
  | [] => s
  | e :: rest =>
    let s1 := s.updTw fun t => { t with resp := rest }
    match e.frees with
    | none => s1
    | some id => s1.txFree (some (e.q, id))

/-- TW1_BLOCK_READ with code 0x40: the first entry, freed by a read that takes every byte of the count. -/
def execTw1BlockRead (code : Byte) (complete : Bool) (s : State) : Host.Outcome State Fault Refusal :=
  .next (match s.twAddr .tw1 with
    | none => s.twOut none
    | some a =>
      if !s.live then s.twNack .tw1
      else if code != 0x40 then s.twOut none
      else
        let data := match s.tw.resp with
          | [] => []
          | e :: _ => le 1 e.kind ++ le 1 e.q.val ++ e.bytes
        let s1 := s.twOut (some (blockReply a 0x40 data))
        if complete then s1.twTake else s1)

/-- TW1_READ_WORD with code 0x41: the summary word. -/
def execTw1ReadWord (code : Byte) (s : State) : Host.Outcome State Fault Refusal :=
  .next (match s.twAddr .tw1 with
    | none => s.twOut none
    | some a =>
      if !s.live then s.twNack .tw1
      else if code != 0x41 then s.twOut none
      else
        let w := le 2 s.twSummary
        s.twOut (some (w ++ [crc8Smb (le 1 (a * 2) ++ [code] ++ le 1 (a * 2 + 1) ++ w)])))

/-! ### Host Notify (R487-R489, R491) -/

/-- TW1 may act as controller. -/
def State.notifyOn (s : State) : Bool := s.live && s.otp.hnEn.getD true && s.otp.tw1Addr.isSome

/-- Entries have stayed unread for 2,500 Frames since the last Host Notify. -/
def State.notifyAgain (s : State) : Bool :=
  !s.tw.resp.isEmpty && (match s.tw.lastNotify with
    | some f => f + 2500 ≤ s.fr.count
    | none => false)

/-- A lost arbitration, or an end with BUS_ERROR: a retry, and after 8 in a row HN_FAIL (R488, R491). -/
def State.notifyLoss (s : State) : State :=
  if s.tw.losses + 1 ≥ 8 then
    (s.updCnt .tw1 fun c => { c with hnFail := inc16 c.hnFail }).updTw fun t =>
      { t with notify := false, losses := 0, lastNotify := some s.fr.count }
  else s.updTw fun t => { t with notify := true, losses := t.losses + 1 }

/-- One attempt to send Host Notify: HNADDR, TW1ADDR, the summary word. -/
def State.notifySend (s : State) (e : NotifyEnd) : State :=
  let bytes := le 1 (s.otp.hnAddr.getD 8 * 2) ++ le 1 ((s.otp.tw1Addr.getD 0) * 2) ++ le 2 s.twSummary
  let done (s : State) : State := s.updTw fun t => { t with notify := false, losses := 0, lastNotify := some s.fr.count }
  match e with
  | .acked => (s.twOut (some bytes)).updTw fun t => { t with notify := false, losses := 0, lastNotify := some s.fr.count }
  | .nacked => done ((s.twOut (some bytes)).updCnt .tw1 fun c => { c with hnFail := inc16 c.hnFail })
  | .arbLost b i =>
    (s.updCnt .tw1 fun c => { c with
      arbLost := inc16 c.arbLost, lastArb := BitVec.ofNat 16 (min 7 b * 256 + i.val) }).notifyLoss

/-- HOST_NOTIFY (R487). -/
def execHostNotify (e : NotifyEnd) (s : State) : Host.Outcome State Fault Refusal :=
  .next (if s.notifyOn && s.tw.losses == 0 && (s.tw.notify || s.notifyAgain) then s.notifySend e else s)

/-- HOST_NOTIFY_RETRY (R488): the bus is free after a loss. -/
def execHostNotifyRetry (e : NotifyEnd) (s : State) : Host.Outcome State Fault Refusal :=
  .next (if s.notifyOn && s.tw.notify && s.tw.losses != 0 then s.notifySend e else s)

/-! ### Bus errors (R485, R490, R491) -/

/-- ILLEGAL_START: the partial transfer is discarded, which no register shows, and counted. -/
def execIllegalStart (b : Bus) (s : State) : Host.Outcome State Fault Refusal :=
  .next (if s.live && (s.twAddr b).isSome then s.updCnt b fun c => { c with illegalStart := inc16 c.illegalStart } else s)

/-- TW_BUS_ERROR: only TW1 is ever controller, while a Host Notify is to be sent. -/
def execTwBusError (b : Bus) (s : State) : Host.Outcome State Fault Refusal :=
  .next (
    if b == .tw1 && s.notifyOn && (s.tw.notify || s.notifyAgain) then
      (s.updCnt b fun c => { c with busError := inc16 c.busError }).notifyLoss
    else s)

/-- TW_TIMEOUT in SMBus mode: the transfer is discarded; as controller it ends with BUS_ERROR. -/
def execTwTimeout (b : Bus) (asController : Bool) (s : State) : Host.Outcome State Fault Refusal :=
  .next (
    if !s.live || (s.twAddr b).isNone || !s.twSmbus b then s
    else
      let s1 := s.updCnt b fun c => { c with timeout := inc16 c.timeout }
      if asController && b == .tw1 && s.notifyOn && (s.tw.notify || s.notifyAgain) then
        (s1.updCnt b fun c => { c with busError := inc16 c.busError }).notifyLoss
      else s1)

end Sys2Proof.Machine
end

