-- ==== Sys2Proof/Machine/HostPort.lean ====
section
/-! DEFINITION. The SPI host port: the register space, the paged window into queue memory, SPI frames, and ID_READ (13, 22,
Table 12.12). -/

namespace Sys2Proof.Machine

open Sys2Proof

/-! ### Identity and status (Table 22.2) -/

/-- VERSION of the booted image; 0 in RECOVERY. -/
def State.fwVer (s : State) : Nat := if s.upd.recovery then 0 else imgVersion (s.upd.slot s.upd.booted).image

/-- Frame count as the registers give it: no Frames run in RECOVERY. -/
def State.frameReg (s : State) : Nat := s.fr.count % 2 ^ 32

/-- A register of the identity and status window. -/
def State.identReg (s : State) (a : Nat) : Nat :=
  if a == 0x00 then s.hptId
  else if a == 0x04 then Config.devId.toNat % 2 ^ 32
  else if a == 0x08 then Config.devId.toNat / 2 ^ 32
  else if a == 0x0C then s.fwVer
  else if a == 0x10 then s.hptStat
  else if a == 0x14 then s.hptReset
  else if a == 0x18 then s.pw.starts % 2 ^ 32
  else if a == 0x1C then s.frameReg
  else if a == 0x20 then s.hpt.toNat
  else if a == 0x24 then s.hptClassA
  else if a == 0xC0 then s.snsHealth
  else if a == 0xC4 then s.ceCyc
  else if h : 0x40 ≤ a ∧ a < 0x80 ∧ a % 4 = 0 then s.net.drops[(a - 0x40) / 4]'(by omega)
  else 0

/-! ### Registers of the other windows -/

/-- QM_SQDBn, QM_CQDBn, QM_QCFGn, QM_QCTLn and QM_WINBASE (Tables 11.5-11.7, 22.6). -/
def State.queueReg (s : State) (a : Nat) : Nat :=
  if a < 0x200 then
    let k := s.qs[finOf 32 ((a - 0x100) / 8) (by decide)]
    if a % 8 == 0 then k.sqTail else if a % 8 == 4 then k.cqHead else 0
  else if a < 0x300 then
    let k := s.qs[finOf 32 ((a - 0x200) / 8) (by decide)]
    if a % 8 == 0 then k.cfgWord else if a % 8 == 4 then k.ctlWord else 0
  else if a == 0x300 then s.winBase
  else 0

/-- Tumbler readback (Tables 17.3-17.9). -/
def State.tumblerReg (s : State) (a : Nat) : Nat :=
  if a == 0x2000 then s.tmbStat
  else if a == 0x2004 then s.tmb.digest.toNat
  else if a == 0x2010 then s.tmbBuckReg
  else if a == 0x2014 then s.tmbBoostReg
  else if a == 0x2018 then s.tmbZoneReg
  else if 0x2100 ≤ a && a < 0x2500 then
    let n : Fin 64 := finOf 64 ((a - 0x2100) / 16) (by decide)
    let t := (s.ch[n]).tmb
    if a % 16 == 0 then t.l0 else if a % 16 == 4 then t.l1 else if a % 16 == 8 then t.l2
    else if a % 16 == 12 then s.tmbCnt n else 0
  else 0

/-- Keyring registers (Tables 17.14-17.16). -/
def State.keyringReg (s : State) (a : Nat) : Nat :=
  if a == 0x3000 then s.krgCfgReg
  else if a == 0x3004 then s.krgStatReg
  else if a == 0x3008 then s.krgTaskReg
  else if a == 0x300C then s.krgFmaskReg
  else 0

/-- Violation log (Tables 22.7-22.9). -/
def State.logReg (s : State) (a : Nat) : Nat :=
  if a == 0x1000 then s.vioStat
  else if 0x1100 ≤ a && a < 0x1300 && a % 4 == 0 then s.vioWord ((a - 0x1100) / 16) (a % 16 / 4)
  else 0

/-- Icecore pointers (Tables 16.4-16.6). -/
def State.iceReg (s : State) (a : Nat) : Nat :=
  if a == 0x4000 then s.iceHeadReg
  else if a == 0x4004 then s.ice.oldest
  else if a == 0x4008 then s.iceStatReg
  else 0

/-! ### The paged window (R385, R386) -/

/-- The Queue and the kind of area, 0 submission ring, 1 completion or event ring, 2 data window, 3 none, at a queue-memory
offset (Table 11.2). -/
def State.areaAt (s : State) (o : Nat) : Fin 32 × Nat :=
  if o ≥ 0xC0000 then (finOf 32 ((o - 0xC0000) / 0x2000) (by decide), 2)
  else
    let q : Fin 32 := finOf 32 (o / 0x6000) (by decide)
    let k := s.qs[q]
    let r := o % 0x6000
    (q, if r < 0x4000 then (if r < k.depth * 64 then 0 else 3) else if r - 0x4000 < k.depth * 32 then 1 else 3)

/-- Whether the SPI host may read or write at an offset. -/
def State.winOk (s : State) (o : Nat) (write : Bool) : Bool :=
  let (q, kind) := s.areaAt o
  s.spiOwns q &&
    (if kind == 0 || kind == 2 then !(s.qs[q]).isEvent else kind == 1 && !write)

/-- The queue-memory offset of a host address in the paged window. -/
def State.winOff (s : State) (a : Nat) : Nat := s.winBase * 0x1000 + (a - 0x8000)

/-! ### Reads and writes by address -/

/-- The registers served in RECOVERY (R633). -/
def recoveryRead (a : Nat) : Bool :=
  a < 0x100 || a == 0x120 || a == 0x124 || a == 0x1EC || a == 0x220 || a == 0x224 || a == 0x2E8 || a == 0x2EC || a == 0x300

def recoveryWrite (a : Nat) : Bool := a == 0x120 || a == 0x124 || a == 0x1EC || a == 0x224 || a == 0x2EC || a == 0x300

/-- The port serves a read of an address: everything from step 6, identity and status from step 4, the set of R633 in
RECOVERY. -/
def State.readServed (s : State) (a : Nat) : Bool :=
  s.live || a < 0x100 ||
    (s.upd.recovery && (recoveryRead a ||
      (a ≥ 0x8000 && ((s.areaAt (s.winOff a)).1 == 4 || (s.areaAt (s.winOff a)).1 == 29) && s.winOk (s.winOff a) false)))

/-- The value of a register, and the state in which a violating read is logged. -/
def State.regRead (s : State) (a : Nat) : Nat × State :=
  if a % 4 != 0 || !s.readServed a then (0, s)
  else if a < 0x100 then (s.identReg a, s)
  else if a < 0x1000 then (s.queueReg a, s)
  else if a < 0x2000 then (s.logReg a, s)
  else if a < 0x3000 then (s.tumblerReg a, s)
  else if a < 0x4000 then (s.keyringReg a, s)
  else if a < 0x5000 then (s.iceReg a, s)
  else if a < 0x8000 then (0, s)
  else
    let o := s.winOff a
    if s.winOk o false then (ofLe (memReadN s.qmem o 4), s)
    else (0, s.spiViolation 2 (some (s.areaAt o).1) o)

/-- The bits of HPT_FAULT whose hold condition has not ended, or that no write clears (Table 22.10). -/
def State.faultHeld (s : State) : BitVec 9 :=
  let noPump : Bool := (List.finRange 4).any fun b => !s.bankPowered b
  let f (b : Nat) (h : Bool) : Nat := bit h * 2 ^ b
  BitVec.ofNat 9 (f 8 true + f 7 true + f 5 (s.ch.toList.any fun c => c.st == .fetFault) +
    f 4 (s.grp.toList.any fun g => g.health ≥ 2) + f 3 noPump + f 2 s.clk.rc)

/-- A write of 1 to bits of HPT_FAULT; a bit that its source set in this Frame stays (R638). Reserved bits are not looked at
(log 150). -/
def State.faultClear (s : State) (w : Word) : State :=
  let now := BitVec.ofNat 9 ((List.finRange 9).map fun b => bit (s.live && s.hptAt[b] == s.fr.count) * 2 ^ b.val).sum
  { s with hpt := s.hpt &&& (~~~(w.setWidth 9) ||| s.faultHeld ||| now) }

/-- A write to the CLEAR bit of VIO_CTL (R428, R637); reserved bits are not looked at (log 150). -/
def State.vioCtl (s : State) (w : Word) : State :=
  if !w.getLsbD 0 then s
  else if s.srcOwner 0x400 == some 0 then { s with vio := [], vioOver := 0 }
  else s.spiViolation 1 none 0x1004

/-! ### ID_READ (R440, Table 12.12) -/

/-- The counters of a two-wire block in the row order of Table 14.5, and the last ARB_LOST position. -/
def twCounters (c : TwCnt) : List Byte :=
  [c.illegalStart, c.busError, c.arbLost, c.timeout, c.pecErr, c.format, c.dup, c.nackWake, c.hnFail].flatMap (le 2) ++
    le 2 c.lastArb.toNat

/-- MKA state of a link: 3 where its CAK is unprogrammed. -/
def State.mkaCode (s : State) : Link → Nat
  | .t1 => if s.otp.cak1.isNone then 3 else s.net.mka1
  | .t1s => if s.otp.cakS.isNone then 3 else s.net.mkaS

/-- The 256 bytes. In RECOVERY the boot ROM keeps the identity and status registers up to HPT_FAULT (log 92). -/
def State.idData (s : State) : List Byte :=
  let held := s.linkHeld .t1 || s.linkHeld .t1s
  let flags := s.hptStat % 16 + bit (s.otp.t1Master == some true) * 16 + bit (s.otp.plcaId == some 0) * 32 + bit held * 64
  let regs := [0x00, 0x04, 0x08, 0x0C, 0x10, 0x14, 0x18, 0x1C, 0x20, 0x24, 0xC0, 0xC4].flatMap fun a => le 4 (s.identReg a)
  let rest := le 2 (s.otp.nodeAddr.getD 0xFFFF) ++ le 1 flags ++ le 1 (s.mkaCode .t1 + 4 * s.mkaCode .t1s) ++
    le 1 (s.otp.plcaId.getD 0) ++ le 1 (s.otp.plcaCount.getD 0) ++ le 2 (s.otp.vlan.getD 0) ++
    (s.net.drops.toList.flatMap (le 4)) ++ le 8 0 ++ fitTo 40 s.thermalBlock ++ twCounters s.tw.c0 ++ twCounters s.tw.c1 ++
    le 6 (s.otp.mac1.getD 0).toNat ++ le 6 (s.otp.macS.getD 0).toNat
  fitTo 256 (if s.upd.recovery then regs.take 36 else regs ++ rest)

/-- ID_READ. -/
def cmdIdRead (t : Taken) (s : State) : State :=
  s.guarded t [] fun s =>
    match s.mustWait t.q with
    | some f => s.await t (.readAfter f)
    | none => s.readDone t (le 4 s.hptStat ++ le 4 s.frameReg) s.idData

def execIdRead (q : Fin 32) (d : CmdArgs) (s : State) : Host.Outcome State Fault Refusal :=
  .next (s.rowCmd cmdIdRead 0x070A q d)

/-! ### Writes by address -/

/-- What the boot ROM executes in RECOVERY (R598). -/
def recoveryCmd (t : Taken) (s : State) : State :=
  match t.op.toNat with
  | 0x0A01 => cmdUpdBegin t s
  | 0x0A02 => cmdUpdData t s
  | 0x0A03 => cmdUpdEnd t s
  | 0x0A04 => cmdUpdActivate t s
  | 0x0A05 => cmdUpdRead t s
  | 0x070A => cmdIdRead t s
  | _ => s.unknownOp t

/-- In RECOVERY the boot ROM takes Q04's descriptors one by one (R599). -/
def State.recServe (s : State) : State :=
  if !s.upd.recovery then s
  else overL (List.range (s.qs[(4 : Fin 32)]).depth) (fun _ s =>
    match s.takeRing 4 with
    | none => s
    | some (t, s1) => s1.start t recoveryCmd) s

/-- A write of one word by address (R474, R631-R633). -/
def State.regWrite (s : State) (a : Nat) (w : Word) : State :=
  if a % 4 != 0 then s
  else if s.upd.recovery && !s.live &&
      !(recoveryWrite a || (a ≥ 0x8000 && ((s.areaAt (s.winOff a)).1 == 4 || (s.areaAt (s.winOff a)).1 == 29) &&
        s.winOk (s.winOff a) true)) then s
  else if !s.live && !s.upd.recovery then s
  else if a < 0x100 then (if a == 0x20 then s.faultClear w else s)
  else if a < 0x200 then
    let q : Fin 32 := finOf 32 ((a - 0x100) / 8) (by decide)
    ((if a % 8 == 0 then s.sqdb q w else s.cqdb q w).recServe)
  else if a < 0x300 then (if a % 8 == 4 then s.qctl (finOf 32 ((a - 0x200) / 8) (by decide)) w else s)
  else if a == 0x300 then s.setWinbase w
  else if a < 0x1000 then s
  else if a == 0x1004 then s.vioCtl w
  else if a < 0x2000 then s.spiViolation 1 none a
  else if a < 0x3000 then s.spiViolation 5 none a
  else if a < 0x4000 then s.spiViolation 1 none a
  else if a < 0x8000 then s
  else
    let o := s.winOff a
    if s.winOk o true then { s with qmem := memWriteL s.qmem o (le 4 w.toNat) }
    else s.spiViolation 2 (some (s.areaAt o).1) o

/-! ### SPI frames (R469-R475) -/

/-- The bytes of a word from [31:24] to [7:0]. -/
def wordBytes (w : Word) : List Byte := (le 4 w.toNat).reverse

/-- A status word: the four frame flags, the present levels of IRQ and RDY, and SCRC over the data words that MISO has
carried in its frame (Table 13.10; log 93). -/
def State.stsWord (s : State) (flags : Word) (data : List Word) : Word :=
  let w := (flags &&& 0xF0000000) ||| BitVec.ofNat 32 (bit s.irqLow * 2 ^ 27 + bit s.rdy * 2 ^ 26)
  w ||| (crc8Spi (data.flatMap wordBytes ++ (wordBytes w).take 3)).setWidth 32

/-- The words that a read frame gives, in ascending address order, and the state with their violations. -/
def State.readWords (s : State) (a : Nat) : Nat → List Word × State
  | 0 => ([], s)
  | n + 1 =>
    let (v, s1) := s.regRead a
    let (r, s2) := s1.readWords (a + 4) n
    (BitVec.ofNat 32 v :: r, s2)

/-- The words of a committed write frame, written in ascending address order. -/
def State.writeWords (s : State) (a : Nat) : List Word → State
  | [] => s
  | w :: r => (s.regWrite a w).writeWords (a + 4) r

/-- Windows that Table 22.1 marks protected. -/
def protectedAddr (a : Nat) : Bool := 0x1000 ≤ a && a < 0x4000

/-- The parts of an SPI frame. -/
structure SpiHead where
  wr : Bool
  n : Nat
  addr : Nat
  hcrcOk : Bool
  last : Nat
  dcrcOk : Bool
  frm : Bool
deriving DecidableEq, Repr

/-- A frame taken apart (Tables 13.8, 13.9; R470). -/
def spiHead (words : List Word) (midWord : Bool) : SpiHead :=
  let h := words.headD 0
  let wr := h.getLsbD 31
  let n := h.toNat / 2 ^ 24 % 128 + 1
  let a := h.toNat / 256 % 65536
  let last := if wr then n + 1 else n + 2
  let body := (words.drop 1).take n
  let trail := (words.drop (n + 1)).headD 0
  { wr := wr, n := n, addr := a
    hcrcOk := crc8Spi ((wordBytes h).take 3) == h.setWidth 8
    last := last
    dcrcOk := !wr || words.length != last + 1 || crc8Spi (body.flatMap wordBytes) == trail.setWidth 8
    frm := midWord || words.length != last + 1 || a % 4 != 0 || (a < 0x8000 && a + 4 * n > 0x8000) || a + 4 * n > 0x10000 }

/-- A frame at the rising edge of HSPI_CS_N (R473). -/
def State.spiFrame (s : State) (words : List Word) (midWord : Bool) : State :=
  let h := spiHead words midWord
  let prev := s.spi.sts
  let s0 := { s with spi := { s.spi with sts := 0 } }
  let protect := protectedAddr h.addr && s.live
  let s1 := when (!h.hcrcOk && protect) (fun s => s.spiViolation 6 none h.addr) s0
  let badAddr := h.addr % 4 != 0 || (h.addr < 0x8000 && h.addr + 4 * h.n > 0x8000) || h.addr + 4 * h.n > 0x10000
  let nRead := if h.wr || !h.hcrcOk || badAddr then 0 else min h.n (words.length - 2)
  let (data, s2) := s1.readWords h.addr nRead
  let commit := h.wr && h.hcrcOk && h.dcrcOk && !h.frm
  let s3 := if commit then s2.writeWords h.addr ((words.drop 1).take h.n) else s2
  let known := (s3.spi.sts &&& 0x80000000) ||| (if h.hcrcOk then 0 else 0x40000000)
  let miso := words.zipIdx.map fun (_, i) =>
    if i == 0 then s.stsWord prev []
    else if !h.wr && !h.hcrcOk then 0
    else if i == h.last then s.stsWord known data
    else if !h.wr && i ≥ 2 then data.getD (i - 2) 0 else 0
  let s4 := when (h.wr && h.hcrcOk && !h.dcrcOk && protect) (fun s => s.spiViolation 6 none h.addr) s3
  let flags := (s4.spi.sts &&& 0x80000000) ||| (if h.hcrcOk then 0 else 0x40000000) |||
    (if h.hcrcOk && !h.dcrcOk then 0x20000000 else 0) ||| (if h.frm then 0x10000000 else 0)
  { s4 with spi := { sts := flags, miso := miso } }

/-- A committed write of one register, for the rows that name one. -/
def State.spiWrite (s : State) (f : State → State) : State := f { s with spi := { s.spi with sts := 0 } }

/-- The port carries writes: from step 6, and in RECOVERY for the registers of R633. -/
def State.writeServed (s : State) (a : Nat) : Bool := s.live || (s.upd.recovery && recoveryWrite a)

/-! ### Meanings -/

/-- SPI_FRAME. While the logic die is off or in reset, frames are ignored and MISO is high-impedance. -/
def execSpiFrame (words : List Word) (midWord : Bool) (s : State) : Host.Outcome State Fault Refusal :=
  .next (if s.pw.logic == .running && 4 ≤ s.pw.step then s.spiFrame words midWord else { s with spi := { s.spi with miso := [] } })

/-- QM_SQDB (R394, R395). -/
def execQmSqdb (q : Fin 32) (w : Word) (s : State) : Host.Outcome State Fault Refusal :=
  .next (if s.writeServed (0x100 + 8 * q.val) then s.spiWrite fun s => (s.sqdb q w).recServe else s)

/-- QM_CQDB (R395, R396). -/
def execQmCqdb (q : Fin 32) (w : Word) (s : State) : Host.Outcome State Fault Refusal :=
  .next (if s.writeServed (0x104 + 8 * q.val) then s.spiWrite fun s => (s.cqdb q w).recServe else s)

/-- QM_QCTL_EN: a write of EN and IE, with RESTART 0 (R399, R400). -/
def execQmQctlEn (q : Fin 32) (en : Bool) (ie : Bool) (s : State) : Host.Outcome State Fault Refusal :=
  .next (if s.writeServed (0x204 + 8 * q.val) then s.spiWrite fun s => s.qctl q (BitVec.ofNat 32 (bit en + 4 * bit ie))
    else s)

/-- QM_QCTL_RESTART: a write of RESTART 1 that leaves EN and IE as they read. -/
def execQmQctlRestart (q : Fin 32) (s : State) : Host.Outcome State Fault Refusal :=
  .next (
    if s.writeServed (0x204 + 8 * q.val) then
      let w := (s.qs[q]).ctlWord
      s.spiWrite fun s => s.qctl q (BitVec.ofNat 32 (w % 8 / 4 * 4 + w % 2 + 2))
    else s)

/-- QM_WINBASE (R385). -/
def execQmWinbase (w : Word) (s : State) : Host.Outcome State Fault Refusal :=
  .next (if s.writeServed 0x300 then s.spiWrite fun s => s.setWinbase w else s)

/-- VIO_CTL_CLEAR (R428, R637). -/
def execVioCtlClear (s : State) : Host.Outcome State Fault Refusal :=
  .next (if s.live then s.spiWrite fun s => s.vioCtl 1 else s)

/-- HPT_FAULT_CLEAR (R638). -/
def execHptFaultClear (w : Word) (s : State) : Host.Outcome State Fault Refusal :=
  .next (if s.live then s.spiWrite fun s => s.faultClear w else s)

/-- REGISTER_WRITE: a committed write to any address (R631, R632). -/
def execRegisterWrite (addr : Half) (w : Word) (s : State) : Host.Outcome State Fault Refusal :=
  .next (if s.pw.logic == .running then s.spiWrite fun s => s.regWrite addr.toNat w else s)

end Sys2Proof.Machine
end

