-- ==== Sys2Proof/Machine/MemErr.lean ====
section
/-! DEFINITION. Memory and fabric errors, scrubs and Firn writes (R11, R16, R21-R23, R39, R76, Table 1.5). -/

namespace Sys2Proof.Machine

open Sys2Proof

def State.updMem (s : State) (f : Mem → Mem) : State := { s with mem := f s.mem }

/-- Number of a region in the order of Table 1.3. -/
def regionIx : Region → Fin 9
  | .bootRom => 0
  | .supSram => 1
  | .ceTcm => 2
  | .capture => 3
  | .queueMem => 4
  | .linkBuf => 5
  | .firn => 6
  | .flashWin => 7
  | .blockRegs => 8

/-- An SRAM or Firn, whose words are corrected (Table 1.5). -/
def isEccMem (r : Region) : Bool := 1 ≤ (regionIx r).val && (regionIx r).val ≤ 6

/-- An address of Table 1.3, as base and size of its regions. -/
def inMap (a : Nat) : Bool :=
  [(0x00000000, 0x10000), (0x10000000, 0x400000), (0x20000000, 0x80000), (0x30000000, 0x200000), (0x40000000, 0x100000),
    (0x50000000, 0x80000), (0x60000000, 0x400000), (0x70000000, 0x10000000), (0x80000000, 0x10000000)].any
    fun r => r.1 ≤ a && a < r.1 + r.2

/-- The CE is halted for a reload and the actuators freeze, which is the converter fault CE_HALT (Table 7.6); a second
occurrence within 1 s resets the logic die (Table 1.5, R47). -/
def State.ceHalt (s : State) : State :=
  match s.fr.ceFaultAt with
  | some f => if s.fr.count < f + 250000 then s.resetTo4 6 else halt s
  | none => halt s
where
  halt (s : State) : State :=
    (s.updFr fun f => { f with ceHalted := true, freeze := true, cleanRun := 0, ceFaultAt := some f.count }).cvFault 10 0xFFFF

/-- The sample of a captured word that cannot be trusted is marked (R128). -/
def State.markSample (s : State) (a : Word) : State :=
  let (c, k) := Config.eccSample a
  { s with cap := Vector.ofFn fun i =>
      let x := s.cap[i]
      if i.val == c then { x with words := x.words.zipIdx.map fun (w, j) => if j == k then (w.1, true) else w } else x }

/-- The Queue whose rings or data window hold an address stops. -/
def State.queueEcc (s : State) (a : Word) : State :=
  let o := a.toNat - 0x40000000
  if a.toNat < 0x40000000 || o ≥ 0x100000 then s
  else
    let (q, kind) := s.areaAt o
    if kind == 3 || (kind != 1 && (s.qs[q]).isEvent) then s else s.queueStop q

/-- Where a part of Firn lies: offset and size (Tables 1.4, 5.6, 6.7, R287, R375); the converter learned values have the rest of
their region, in which the spec places no slot (log 194). -/
def firnRegion : FirnPart → Nat × Nat
  | .iceRing _ => (0x000000, 0x100000)
  | .settings b => (if b then 0x140000 else 0x100000, 0x40000)
  | .battery b => (if b then 0x180080 else 0x180000, 0x80)
  | .snapshot b => (if b then 0x198000 else 0x190000, 0x8000)
  | .creep n b => (0x1A0000 + n.val * 0x1000 + (if b then 0x40 else 0x20), 0x20)
  | .lastFault k b => (0x1E0000 + k.val * 0x100 + (if b then 0x80 else 0), 0x80)
  | .cvLearned _ => (0x180100, 0xFF00)
  | .rsv _ => (0x1F0000, 0x210000)
  | .updState _ => (0x1F0000, 0x210000)
  | .other => (0x1F0000, 0x210000)

/-- Whether an address of Table 1.3 lies in the region of Firn that a part belongs to (R19); that of an Icecore record is the
slot of its sequence, of 32 bytes. -/
def firnHolds (p : FirnPart) (a : Word) : Bool :=
  let o := a.toNat - 0x60000000
  0x60000000 ≤ a.toNat && (firnRegion p).1 ≤ o && o < (firnRegion p).1 + (firnRegion p).2 &&
    (match p with | .iceRing seq => o / 32 == seq % 32768 | _ => true)

/-- A double-bit error of Firn: the read fails, and the other slot or copy is used from here on. -/
def State.firnEcc (s : State) (p : FirnPart) : State :=
  match p with
  | .iceRing seq => s.updIce fun i => { i with torn := i.torn ++ [seq] }
  | .settings b => s.updUpd fun u =>
      if b then { u with set1 := { u.set1 with valid := false } } else { u with set0 := { u.set0 with valid := false } }
  | .battery b => s.updBat fun x =>
      if b then { x with slot1 := { x.slot1 with valid := false } } else { x with slot0 := { x.slot0 with valid := false } }
  | .snapshot b =>
      if b then { s with snap1 := { s.snap1 with valid := false } } else { s with snap0 := { s.snap0 with valid := false } }
  | .creep n b => s.updCh n fun c =>
      { c with creep := if b then { c.creep with slot1 := none } else { c.creep with slot0 := none } }
  | .lastFault k b => s.updCv fun c =>
      let i := k.val
      if b then { c with rec1 := c.rec1.set i { c.rec1[k] with valid := false } }
      else { c with rec0 := c.rec0.set i { c.rec0[k] with valid := false } }
  | .cvLearned b => s.updCv fun c =>
      if b then { c with slot1 := { c.slot1 with valid := false } } else { c with slot0 := { c.slot0 with valid := false } }
  | .rsv b => s.updIce fun i => if b then { i with rsv1 := 0 } else { i with rsv0 := 0 }
  | .updState b => s.updUpd fun u =>
      if b then { u with rec1 := { u.rec1 with valid := false } } else { u with rec0 := { u.rec0 with valid := false } }
  | .other => s

/-! ### Meanings -/

/-- Frames in 8 s and in 24 h (R22). -/
abbrev sramScrubFrames : Nat := 2000000
abbrev firnScrubFrames : Nat := 21600000000

/-- SRAM_SCRUB, 8 s after the last one (R22). -/
def execSramScrub (s : State) : Host.Outcome State Fault Refusal :=
  .next (if s.live && s.mem.sramAt + sramScrubFrames ≤ s.fr.drive then
    s.updMem fun m => { m with sramScrubs := m.sramScrubs + 1, sramAt := s.fr.drive } else s)

/-- FIRN_SCRUB, after 24 h of operation since the last one (R22), those before a loss of supply included (log 193). -/
def execFirnScrub (s : State) : Host.Outcome State Fault Refusal :=
  .next (if s.live && s.mem.firnAt + firnScrubFrames ≤ s.fr.drive + s.mem.firnFor then
    s.updMem fun m => { m with firnScrubs := m.firnScrubs + 1, firnAt := s.fr.drive, firnFor := 0 } else s)

/-- ECC_SINGLE: corrected, counted, recorded. -/
def execEccSingle (r : Region) (s : State) : Host.Outcome State Fault Refusal :=
  .next (
    if s.pw.logic != .running || !isEccMem r then s
    else
      let i := regionIx r
      (s.updMem fun m => { m with corrected := m.corrected.set i.val (m.corrected[i] + 1) }).iceRecord 0x0C03 rDevice 0
        (le 1 i.val))

/-- ECC_DOUBLE by region (Table 1.5). -/
def execEccDouble (r : Region) (addr : Word) (part : FirnPart) (s : State) : Host.Outcome State Fault Refusal :=
  .next (
    if s.pw.logic != .running then s
    else if r == .supSram then s.resetTo4 5
    else
      let s1 := s.iceRecord 0x0C04 rDevice 2 (le 4 (regionIx r).val ++ le 4 addr.toNat)
      match r with
      | .ceTcm => if s.live then s1.ceHalt else s1
      | .capture => s1.markSample addr
      | .queueMem => s1.queueEcc addr
      | .linkBuf => s1.netDrop (if Config.eccLink addr then .t1s else .t1) 7
      | .firn => if firnHolds part addr then s1.firnEcc part else s1
      | .bootRom => s1
      | .supSram => s1
      | .flashWin => s1
      | .blockRegs => s1)

/-- PARITY (R11, R21, Table 1.5): a fabric transaction is aborted with an error to its initiator; a word for the drive die is
discarded, so that the actuator it addresses keeps its value at the next tick. Either is recorded, with FAULT_N. -/
def execParity (w : ParityAt) (s : State) : Host.Outcome State Fault Refusal :=
  .next (
    if s.pw.logic != .running then s
    else match w with
      | .fabric i =>
        ((s.iceRecord 0x0C05 rDevice 2 (le 1 0)).setFault 0).updMem fun m => { m with aborted := some i }
      | .dieLink d =>
        let s1 := (s.iceRecord 0x0C05 rDevice 2 (le 1 1)).setFault 0
        { s1 with linkLost := s1.linkLost ++ [d] })

/-- BUS_ERROR: an access outside Table 1.3 (R16). -/
def execBusError (addr : Word) (s : State) : Host.Outcome State Fault Refusal :=
  .next (
    if s.pw.logic != .running || inMap addr.toNat then s
    else (s.iceRecord 0x0725 rDevice 2 (le 4 addr.toNat)).updMem fun m => { m with lastBusError := some addr })

/-- FIRN_WRITE_DONE: a row that fails its verify is replaced by a spare row (R39, R76). -/
def execFirnWriteDone (verifyOk : Bool) (s : State) : Host.Outcome State Fault Refusal :=
  .next (
    if verifyOk || s.pw.logic != .running then s
    else
      ((s.updMem fun m => { m with firnSpares := m.firnSpares + 1 }).iceRecord 0x0C02 rDevice 1
        (le 1 3 ++ le 1 s.mem.firnSpares ++ le 1 0)).iceRecord 0x0C01 rDevice 0 (le 1 3 ++ le 1 s.mem.firnSpares ++ le 1 0))

end Sys2Proof.Machine
end

