-- ==== Sys2Proof/Machine/Service.lean ====
section
/-! DEFINITION. The Supervisor's service of the rings: the Class A slot, the Class B and C batch, FENCE (R401-R404,
R415-R419). -/

namespace Sys2Proof.Machine

open Sys2Proof

/-- What the Supervisor does for a descriptor, by OPCODE (Table 12.2); an opcode outside the table completes with 0x21. -/
def perform (t : Taken) (s : State) : State :=
  match t.op.toNat with
  | 0x0101 => cmdChOn t s
  | 0x0102 => cmdChOff t s
  | 0x0103 => cmdChCfg t s
  | 0x0104 => cmdChRead t s
  | 0x0105 => cmdChClear t s
  | 0x0201 => cmdCvSet t s
  | 0x0202 => cmdCvCfg t s
  | 0x0203 => cmdAuxCfg t s
  | 0x0204 => cmdLawCfg t s
  | 0x0205 => cmdCvRead t s
  | 0x0301 => cmdCapSet t s
  | 0x0302 => cmdHuCfg t s
  | 0x0303 => cmdShedOrder t s
  | 0x0304 => cmdZoneRead t s
  | 0x0305 => cmdHuTest t s
  | 0x0306 => cmdStagCfg t s
  | 0x0401 => cmdBatCfg t s
  | 0x0402 => cmdBatRead t s
  | 0x0501 => cmdSnsMask t s
  | 0x0502 => cmdSnsGain t s
  | 0x0503 => cmdSnsFilter t s
  | 0x0504 => cmdSnsInj t s
  | 0x0505 => cmdSnsZone t s
  | 0x0506 => cmdSnsRead t s
  | 0x0510 => cmdCapCfg t s
  | 0x0511 => cmdCapArm t s
  | 0x0512 => cmdCapTrig t s
  | 0x0513 => cmdCapRelease t s
  | 0x0514 => cmdCapRead t s
  | 0x0515 => cmdCapNet t s
  | 0x0601 => cmdIceRead t s
  | 0x0602 => cmdIceFlush t s
  | 0x0603 => cmdIceClear t s
  | 0x0701 => cmdFence t s
  | 0x0702 => cmdReset t s
  | 0x0703 => cmdDormant t s
  | 0x0704 => cmdWakeCfg t s
  | 0x0705 => cmdOwnerMap t s
  | 0x0706 => cmdOwnerRes t s
  | 0x0707 => cmdQCfg t s
  | 0x0708 => cmdQCtl t s
  | 0x0709 => cmdVioClear t s
  | 0x070A => cmdIdRead t s
  | 0x0801 => cmdHingeCfg t s
  | 0x0802 => cmdHingeCmd t s
  | 0x0803 => cmdHingeRead t s
  | 0x0901 => cmdPdCfg t s
  | 0x0902 => cmdPdCtl t s
  | 0x0903 => cmdPdRead t s
  | 0x0A01 => cmdUpdBegin t s
  | 0x0A02 => cmdUpdData t s
  | 0x0A03 => cmdUpdEnd t s
  | 0x0A04 => cmdUpdActivate t s
  | 0x0A05 => cmdUpdRead t s
  | 0x0B01 => cmdInjStart t s
  | 0x0B02 => cmdInjStop t s
  | 0x0B03 => cmdInjRead t s
  | 0x0B04 => cmdCeStat t s
  | _ => s.unknownOp t

/-- As many rounds as the longest Queue has untaken descriptors. -/
def State.rounds (s : State) (qs : List (Fin 32)) : Nat := (qs.map fun q => (s.qs[q]).vis.length).foldl max 0

/-- The next descriptor of a Queue that was visible at the tick is taken, and waits for its turn. -/
def State.takeVisible (s : State) (q : Fin 32) : State :=
  match (s.qs[q]).vis.head? with
  | none => s
  | some v =>
    if v.frame < s.fr.count then
      match s.takeRing q with
      | some (t, s1) => { s1.took t with rest := s1.rest ++ [t] }
      | none => s
    else s

/-- Every descriptor of some Queues that was visible at the tick is taken, one per Queue per round in ascending number (R401, R403). -/
def State.takeAll (s : State) (qs : List (Fin 32)) : State :=
  overL (List.range (s.rounds qs)) (fun _ s => overL qs (fun q s => s.takeVisible q) s) s

/-- The taken command that is due is executed; as many as a number says, as they were taken. -/
def State.runRest (s : State) (n : Nat) : State :=
  overL (s.rest.take n) (fun _ s =>
    match s.rest with
    | [] => s
    | t :: r => ({ s with rest := r } : State).begin t perform) s

/-- The command Queues of a Class. -/
def State.queuesOf (s : State) (c : Cls) : List (Fin 32) := allQ.filter fun q => (s.qs[q]).cls == c && !(s.qs[q]).isEvent

/-- The batch of a Period: every Class B command, then every Class C command. At most 64 are executed, so that their effects apply in
this Period; the rest, in the same order, goes before the next batch (R51, R403; log 95). -/
def State.batch (s : State) : State := ((s.takeAll (s.queuesOf .b)).takeAll (s.queuesOf .c)).runRest 64

/-- The first command that waits behind a FENCE of a Queue is executed once no FENCE holds it. -/
def State.nextWaiting (s : State) (q : Fin 32) : State :=
  match (s.qs[q]).waiting with
  | [] => s
  | t :: rest =>
    if s.fenced q then s else perform t (s.updQ q fun k => { k with waiting := rest })

/-- Commands behind a FENCE go on, up to the next one among them (R417). -/
def State.runWaiting (s : State) (q : Fin 32) : State :=
  overL (s.qs[q]).waiting (fun _ s => s.nextWaiting q) s

/-- The slot takes every Class A descriptor that was visible at the tick, and executes them in that order (R401); the rest of a batch
stays for its own turn. -/
def State.classASlot (s : State) : State :=
  let s1 := ({ s with rest := [] } : State).takeAll (s.queuesOf .a)
  ({ s1 with rest := s1.rest ++ s.rest } : State).runRest s1.rest.length

/-- CLASS_A_SERVICE_SLOT (R401). -/
def execClassAServiceSlot (s : State) : Host.Outcome State Fault Refusal :=
  .next (
    if s.live && s.fr.count % 25 == 0 then
      (overL allQ (fun q s => s.runWaiting q) s).classASlot
    else s)

/-- The FENCE of a Queue whose earlier commands have all completed and applied. -/
def State.fenceReady (s : State) (q : Fin 32) : Option Out :=
  s.outs.find? fun o => o.cmd.q == q && (match o.wait with
    | .fence es _ => es.all fun e => !((s.openIds e.1).any fun v => v.1 == e.2)
    | _ => false)

/-- The Frame in which the last command that a FENCE waits for completed, not before that of its own execution (R416). -/
def State.fenceFrame (s : State) (o : Out) : Nat :=
  match o.wait with
  | .fence es since => (es.filterMap fun e => (((s.qs[e.1]).doneAt.filter fun x => x.1 == e.2).map (·.2)).max?).foldl max since
  | _ => s.fr.count

/-- What a FENCE kept of the completions it waited for goes with it. -/
def State.fenceForget (s : State) (o : Out) : State :=
  match o.wait with
  | .fence es _ => overL es (fun e s => s.updQ e.1 fun k => { k with doneAt := k.doneAt.filter fun x => x.1 != e.2 || s.fencedFor e.1 e.2 }) s
  | _ => s

/-- FENCE_COMPLETE (R416-R418). -/
def execFenceComplete (q : Fin 32) (s : State) : Host.Outcome State Fault Refusal :=
  .next (match s.fenceReady q with
    | none => s
    | some o =>
      let f := s.fenceFrame o
      let s1 := ((s.dropOuts (· == o)).fenceForget o).complete o.cmd 0 (some f)
      (s1.updQ q fun k => { (if s.wideFence o.cmd then k.fenceOver else k) with fenceAt := some f }).runWaiting q)

end Sys2Proof.Machine
end

