-- ==== Sys2Proof/Machine/Frame.lean ====
section
/-! DEFINITION. The Frame: what a tick applies, S0 to S4 in their order, S5 of the Frame before, an overrun and the restart
of the CE (02, R10, R17, R40-R49, R94, R296). -/

namespace Sys2Proof.Machine

open Sys2Proof

/-! ### The tick -/

/-- What S5 of the Frame that ends adds to the meters, and the mailbox work it completes; where it does not end in time,
the counts of the Channels and the posting of profiles are left to the next S5 (R48, log 132). -/
def State.lastS5 (s : State) (carry : Bool) : State :=
  (when (!carry) State.profilesPosted (s.hingeS5.meterAll carry)).cvMeter.auxMeter.batFrame.cvStore

/-- A tick after a Frame without an overrun extends the clean run; two such Frames lift the freeze, and the end of a relock
or of a CE halt does (R45, R46, R55). The tick of a Period boundary ends the maxima of the Period before it (R294). -/
def Frm.advance (f : Frm) (relocking carry : Bool) : Frm :=
  let clean := if f.overNow then 0 else if f.ceHalted then f.cleanRun else f.cleanRun + 1
  let ends := (f.count + 1) % 250 == 0
  { f with
    cycS2 := if ends then f.maxS2 else f.cycS2, cycS3 := if ends then f.maxS3 else f.cycS3
    maxS2 := if ends then 0 else f.maxS2, maxS3 := if ends then 0 else f.maxS3
    count := f.count + 1, drive := f.drive + 1, page := !f.page, overNow := false, cleanRun := clean
    overRun := if f.overNow then f.overRun else 0
    freeze := f.freeze && !(clean ≥ 2 && !relocking && !f.ceHalted)
    s5Carry := f.s5Carry + bit carry }

/-- The stagger budget stays within a capacity that has been lowered (R72). -/
def State.capBudget (s : State) : State := s.updZone fun z => { z with budget := min (s.znf Fld.C : ℚ) z.budget }

/-- The stagger budget refills, and takes the credit of the ramps that ended (R72). -/
def State.refill (s : State) : State :=
  s.updZone fun z => { z with
    budget := min (s.znf Fld.C : ℚ) (z.budget + (s.znf Fld.F : ℚ) / 10 * s.frameMs + z.budgetLate), budgetLate := 0 }

/-- A cold start of a pair that ends with this chip driving: its converter starts as in step 16 (Table 15.5). -/
def State.coldOutputs (s : State) : State :=
  if s.hinge.cold && s.hinge.driving then
    ((s.updHinge fun h => { h with cold := false }).updPw fun p => { p with admOpen := false }).step16
  else s

/-- One staged write: actions on streams, the pair and the ports, and the fields of applyWrite. CAP_TRIG fires an ARMED stream of
any configured trigger (R127, log 183). -/
def State.applyAny (s : State) (w : FKey × Nat) : State :=
  let k := w.1
  if k.code == kCap then
    let i : Fin 16 := finOf 16 k.res (by decide)
    if k.ord == 9 then s.fireStream i else s.updCap i fun c => c.write k.ord w.2
  else if k.code == kHinge then s.hingeAction k.ord
  else if k.code == kPd then s.pdAction (finOf 2 k.res (by decide)) k.ord
  else s.applyWrite w

/-- Staged writes that are due apply in their order, and Phases follow PHMASK and SPMASK (R437, R257). -/
def State.applyDue (s : State) (due : DueAt) : State :=
  let s1 := overL (s.staged.filter fun x => x.due == due) (fun x s => (overL x.writes (fun w s => s.applyAny w) s).bringUp s)
    { s with staged := s.staged.filter fun x => x.due != due }
  let s2 := s1.storeSettings
  if s2.cvf Fld.PHMASK == s.cvf Fld.PHMASK && s2.cvf Fld.SPMASK == s.cvf Fld.SPMASK then s2 else s2.cvConfigure

/-- Commands whose effect applied at this tick complete with its Frame (R35, R432); a tick at a multiple of 10 is also a block
boundary (R217). -/
def State.tickDone (s : State) : State :=
  let end10 := s.fr.count % 10 == 0
  s.completeOuts (fun o => match o.wait with | .tick _ _ => true | .block _ _ => end10 | _ => false) fun o s =>
    match o.wait with
    | .tick st res => s.complete o.cmd st.toNat (some s.fr.count) res
    | .block st res => s.complete o.cmd st.toNat (some s.fr.count) res
    | _ => s

/-- Deferred CV_SETs whose effect starts at this tick (R283). -/
def State.cvStarts (s : State) : State :=
  s.completeOuts (fun o => o.wait == .start && o.cmd.op == 0x0201) fun o s => s.cvSetBegin o.cmd

/-- Deferred commands of the other opcodes whose effect starts at this tick. -/
def State.startsDue (s : State) : State :=
  s.completeOuts (fun o => o.wait == .start) fun o s =>
    match o.cmd.op.toNat with
    | 0x0305 => s.huTestBegin o.cmd
    | 0x0703 => s.dormBegin o.cmd
    | _ => s

/-- At the tick of a Period boundary: the Channels that have been in ON for the whole Period that ends (R350). -/
def State.wholePeriods (s : State) : State :=
  if s.fr.count % 250 != 0 then s else s.mapCh fun _ c => { c with wholeOn := c.steady, steady := c.st == .on }

/-- Counting work that has not ended is part of the Period that ends (R48, R171, log 132). -/
def State.meterHeld (s : State) : State := overL s.s5Held (fun w s => s.meterWork w) { s with s5Held := [] }

/-- PZ of the Period that ends, from its sums (R350, R355). -/
def State.pzEnds (s : State) : ℚ :=
  let m := s.meterHeld
  (((allCh.filter fun n => m.pump.domain48[State.bank n]).map fun n => (m.ch[n]).sumP).sum + m.cv.sumPcv +
    ((List.finRange 4).map fun (r : Fin 4) => m.aux[r].sumP).sum) / 250

/-- At the tick of a Period boundary: PZ above the Tumbler hard cap holds admissions for the Period that begins (R355). -/
def State.hardHolds (s : State) : State :=
  if s.fr.count % 250 != 0 then s else s.updZone fun z => { z with hardHold := decide (10 * (s.tmb.zone.hCap : ℚ) < s.pzEnds) }

/-- Everything that takes effect at the tick, before S0. -/
def State.atTick (s : State) (carry : Bool) : State :=
  let s1 := (s.updFr fun f => f.advance s.clk.relocking carry).wholePeriods.hardHolds.groupSteps
  let s2 := (s1.updClk fun c => { c with suspended := if c.relocking then c.suspended + 1 else c.suspended }).refill
  let s3 := s2.hingeTick.coldOutputs.applyGates.applyCodes.iceTick
  let s3 := if s3.fr.count % 10 == 0 then s3.applyDue .block else s3
  let s4 := (s3.applyDue .tick).capBudget.cvStarts.zoneTick.cvTick.auxTick.zoneStart.injTick.probeWords
  let s5 := (overL (List.finRange 5) (fun g s => s.injTimer g) s4).fireCount
  -- R227: a change of converter mode mutes the arc detectors
  let s6 := if s5.cv.mode == s.cv.mode then s5 else { s5 with cvMarks := s5.cvMarks ++ [s5.fr.count] }
  let s7 := s6.tickDone.pdTick.startsDue.krgTick
  { s7 with promLost := if s7.promiseNow then s7.promLost else some s7.fr.count }

/-! ### S0 -/

/-- The latch of a Channel: the most recent outputs of its chains, before and after the notch (R94, R116, R117), and the flags of
its gate (Table 4.2). An invalid latch keeps the last valid value. -/
def State.latchChan (s : State) (n : Fin 64) (vgs : Int) : Chan :=
  let c := s.ch[n]
  let g := s.grp[chGroup n]
  let i := g.latchOk (chInI n)
  let v := g.latchOk (chInV n)
  let fi := g.flt[chInI n]
  let fv := g.flt[chInV n]
  { c with
    iP := if i then s.chAmp n fi.cic else c.iP, iM := if i then s.chAmp n fi.out else c.iM
    vP := if v then s.chVolt n fv.cic else c.vP, vM := if v then s.chVolt n fv.out else c.vM
    iOk := i, vOk := v, iSeen := c.iSeen || i
    gateLow := vgs < 1000, gateMin := 4000 ≤ vgs, gateFull := 8000 ≤ vgs }

/-- Injected results reach the CE mailbox (R111). -/
def Group.injPost (k : Group) : Group :=
  let k1 := k.injNew.foldl (fun (x : Group) e =>
    { x with injWord := x.injWord.set e.1.val e.2.1, injFrame := x.injFrame.set e.1.val e.2.2 }) k
  { k1 with injNew := [] }

/-- The latch area of the page in use, as the sense fabric writes it in S0 (R17, R94). -/
def State.latchPage (s : State) : CePage :=
  let k := s.grp[(4 : Fin 5)]
  { s.mailPage s.fr.page with
    latch := Vector.ofFn fun j => (k.flt[j]).out, valid := Vector.ofFn fun j => k.latchOk j, loss := false }

/-- SENSE_LATCH: the filtered values of the last Frame (R94). Those of G4 go to the page in use, where the CE reads them: a value that
is not valid leaves the one it had (R17, R297). -/
def State.senseLatch (s : State) (i : FrameIn) : State :=
  let page := s.latchPage
  { s with
    ch := Vector.ofFn fun n => s.latchChan n i.vgs[n]
    g4 := Vector.ofFn fun j => if page.valid[j] then page.latch[j] else s.g4[j]
    g4Ok := page.valid
    mail := s.mail.set (if s.fr.page then 1 else 0) page (by split <;> decide)
    grp := s.grp.map fun (g : Group) => { g.injPost with inval := g.inval.map fun (x : Nat) => x - 1 } }

/-- Reads held for a latch after their FENCE are performed with it (R418). -/
def State.heldReads (s : State) : State :=
  s.completeOuts (fun o => match o.wait with | .readAfter f => f ≤ s.fr.count | _ => false) fun o s => perform o.cmd s

def State.s0 (s : State) (i : FrameIn) : State := (s.senseLatch i).heldReads

/-! ### S1 -/

/-- Channels of a Bank whose Group is FAILED (Table 3.7), once the gates are not frozen (R45). -/
def State.senseRaises (s : State) : List Raise :=
  (allCh.filter fun n => (s.grp[chGroup n]).health ≥ 3 && s.chClass n != .a && !s.isFollower n && !s.fr.freeze &&
    ((s.ch[n]).st == .ramp || (s.ch[n]).st == .on)).flatMap fun n => s.offSet n .senseFail

/-- Trips that the drive die latched since the last S1. -/
def State.compRaises (s : State) : List Raise :=
  (allCh.filter fun n => (s.ch[n]).cmpTrip).map fun n => ⟨n, .comparator, .tripped, 0, 0⟩

/-- An off that the words of this tick bring reaches no Channel whose gate word the link loses: its gate keeps what was applied
until the next tick (R11). The trips of Table 4.6 are decided behind the tick. -/
def State.lostGates (s pre : State) : State :=
  s.mapCh fun n c =>
    if s.linkLost.contains (.gate n) && driven (pre.ch[n]).st && c.st == .off then { c with gate := (pre.ch[n]).gate } else c

/-- Every cause raised in the Frame is resolved at once (R144); sheds decided in the Period act in Frame 125. -/
def State.causes (s : State) (zero : List Raise) (missed : BitVec 64) : State :=
  let mid := s.fr.count % 250 == 125
  let rs := s.compRaises ++ zero ++ s.wireRaises missed ++ s.rampRaises missed ++ s.timedRaises missed ++ s.cmdRaises ++ s.pumpRaises ++
    s.senseRaises ++ (if mid then s.shedRaises ++ s.thRaises else [])
  let s1 := ((s.disarmTests missed).mapCh fun _ c => { c with cmpTrip := false }).updPump fun p =>
    { p with failNow := if s.fr.freeze then p.failNow else default }
  let s2 := (((s1.cmdBefore.resolve rs).lostGates s).cmdAfter s).onAfter
  when mid (fun s => s.zone125.th125) s2

/-- The converter, the rails, the ports and the zone in S1. -/
def State.railsS1 (s : State) (loss : Bool) : State :=
  let s1 := s.cvS1 loss
  let s2 := overL allAux (fun (r : Fin 4) s => s.auxS1 r) s1
  s2.pdS1.zoneS1.injCheck

/-- Admission by a chip that drives its outputs and is not handing them over. -/
def State.admitS1 (s : State) : State := if s.drives && s.hinge.st != .handing then s.admission else s

/-- The detector's decision is in the latch area of the page in use (R329). -/
def State.lossPosted (s : State) (loss : Bool) : State :=
  { s with mail := s.mail.set (if s.fr.page then 1 else 0) { s.mailPage s.fr.page with loss := loss } (by split <;> decide) }

/-- S1 (R41, R42, R327). -/
def State.s1 (s : State) (i : FrameIn) : State :=
  let z := s.timeZero
  let d := z.1.zoneDetect (z.1.g4Sum 16) (z.1.g4Sum 17)
  let a := (((d.1.lossPosted d.2).wireAll i.missed).checkAll i.missed).probeGuard.arcEnd.arcEval i.missed
  let s2 := a.1.updClk fun c => { c with suspended := if c.relocking then c.suspended else 0 }
  let s3 := (s2.causes (z.2 ++ a.2) i.missed).heldToOn.startStep
  let s4 := ((s3.railsS1 d.2).bankDrop).admitS1
  if s4.hinge.st == .handing then s4 else s4.rampEnds i.missed

/-! ### S2 to S4 -/

/-- S2 and S3 of the CE, which a halted CE does not run. -/
def State.ceSlots (s : State) : State :=
  if s.fr.ceHalted then s
  else (overL allAux (fun (r : Fin 4) s => s.auxS3 r) s.cvS2.auxS2.cvS3).injCheck.injS3.feedCe s.inj.value

/-- The largest cycle counts of the Period (R294). -/
def Frm.cycles (f : Frm) (s2 s3 : Nat) : Frm := { f with maxS2 := max f.maxS2 s2, maxS3 := max f.maxS3 s3 }

/-- The Frame. -/
def State.frame (s : State) (i : FrameIn) : State :=
  let s0 := (s.fireRecord.senseFrame i).switchFrame.arcFeed
  let s1 := (((s0.lastS5 i.s5Carry).atTick i.s5Carry).s0 i).s1 i
  let s2 := s1.ceSlots.updFr fun f => f.cycles i.s2Cycles i.s3Cycles
  let s3 := s2.sendCodes
  { (when s3.drives State.placeSinks s3).netTick with linkLost := [] }

/-- FRAME_TICK, while Frames run. -/
def execFrameTick (i : FrameIn) (s : State) : Host.Outcome State Fault Refusal :=
  .next (if s.live then s.frame i else s)

/-! ### Overruns and the CE -/

/-- The first overrun of a Frame is counted; 64 Frames with one in a row halt the CE (R47). -/
def State.overrunCount (s : State) : State :=
  if s.fr.overNow then s
  else
    let s1 := s.updFr fun f => { f with overNow := true, overRun := f.overRun + 1 }
    if s1.fr.overRun ≥ 64 then ((s1.updFr fun f => { f with overRun := 0 }).setFault 1).ceHalt else s1

/-- FRAME_OVERRUN of S1 (slot 0) to S4 (slot 3): the actuators freeze, and the record names the slot and the Frame count
(R45). -/
def execFrameOverrun (slot : Fin 4) (s : State) : Host.Outcome State Fault Refusal :=
  .next (
    if s.live then
      let s1 := s.iceRecord 0x0721 rDevice 2 (le 4 (slot.val + 1) ++ le 4 s.fr.count)
      let s2 := (s1.updFr fun f => { f with freeze := true, cleanRun := 0 }).updHinge fun h => { h with badPeriod := true }
      s2.overrunCount
    else s)

/-- CE_RESTART: the reload of a halted CE is complete (R296). -/
def execCeRestart (s : State) : Host.Outcome State Fault Refusal :=
  .next (
    if s.live && s.fr.ceHalted then
      let s1 := s.updFr fun f => { f with ceHalted := false, cleanRun := 0 }
      let s2 := if s1.cv.law == .idle then s1.injEnd true else s1.initLaw s1.cv.law s1.cv.gen.target
      overL allAux (fun (r : Fin 4) s => s.auxReinit r) s2
    else s)

end Sys2Proof.Machine
end

