-- ==== Sys2Proof/Machine/Period.lean ====
section
/-! DEFINITION. PERIOD_BOUNDARY: the work of Table 2.2, the published means, the snapshots and the batch of Class B and C
commands (R50, R51, R171, R210). -/

namespace Sys2Proof.Machine

open Sys2Proof

/-! ### Meters of the last Period (R171, R350) -/

/-- The figures of Table 4.7 for the Period that ends; PLOAD of a whole Period in ON is the one that PRED may use. -/
def State.chanPeriod (s : State) (n : Fin 64) : Chan :=
  let c := s.ch[n]
  let pload := c.sumP / 250
  { c with
    iMinP := c.iMin, iMaxP := c.iMax
    irms := satU 4 (rnd (root ((c.sumSq : ℚ) / 5000) * s.arcLsb n * 1000)), sumSq := 0
    meanI := c.sumI / 250, meanV := c.sumV / 250, pload := pload, pfet := c.sumF / 250
    sumI := 0, sumV := 0, sumP := 0, sumF := 0
    savedP := if c.wholeOn then pload else c.savedP
    onFrames := 0 }

/-- IMBALANCE (R170): a member that was more than 25 % off the mean of its set while the whole Period was spent in ON above
10 % of ILIM; the Period means of member and set are compared (log 155). frames holds the Frames of each Channel that satisfied the latter.
The event's source is the leader, and its member a Channel number (log 189). -/
def State.imbalance (s : State) (frames : Vector Nat 64) : State :=
  overL (allCh.filter fun n => !s.isFollower n && s.setSize n > 1 && frames[n] ≥ 250) (fun (n : Fin 64) s =>
    let ms := s.members n
    let mean := (ms.map fun m => (s.ch[m]).meanI).sum / ms.length
    overL (ms.filter fun m => |(s.ch[m]).meanI - mean| * 4 > |mean|) (fun (m : Fin 64) s =>
      let dev := if mean == 0 then 65535 else satU 2 (rnd (100 * |(s.ch[m]).meanI - mean| / |mean|))
      s.postOnly 0x010A n.val (le 1 m.val ++ le 1 0 ++ le 2 dev)) s) s

/-- Whether a node stands at its effective limit. -/
def atLimit (tc ti : ℚ) (nodes : (Int × ℚ) × (Int × ℚ)) : Bool :=
  decide (tc * 4294967296 ≤ nodes.1.1) || decide (ti * 4294967296 ≤ nodes.2.1)

/-- Steps of a copy of the model until a node reaches its limit, none where it does not within the given number (R197). -/
def ttlRun (k : WmCo) (dt i tc ti : ℚ) : Nat → Nat → (Int × ℚ) × (Int × ℚ) → Option Nat
  | 0, n, nodes => if atLimit tc ti nodes then some n else none
  | f + 1, n, nodes => if atLimit tc ti nodes then some n else ttlRun k dt i tc ti f (n + 1) (wmStep k dt i nodes)

/-- TTL in 10 ms, at most 655.34 s, with the IRMS of the last Period; the model of a set takes the sum of its members
(log 98). -/
def State.ttlOf (s : State) (n : Fin 64) : Half :=
  let m := Config.ttlSplit + 1
  let i := ((s.members n).map fun x => ((s.ch[x]).irms : ℚ)).sum / 1000
  let c := s.ch[n]
  match ttlRun (s.wmCo n) (1 / (100 * m : Nat)) i (s.tcEff n) (s.tiEff n) (65534 * m) 0 ((c.tc, c.tcRem), (c.ti, c.tiRem)) with
  | some k => BitVec.ofNat 16 (rnd ((k : ℚ) / m)).toNat
  | none => 0xFFFF

def State.ttlPeriod (s : State) : State :=
  s.mapCh fun n c => if s.isFollower n then c else { c with ttl := s.ttlOf n }

def State.meterPeriod (s : State) (p : PeriodIn) : State :=
  let s := s.meterHeld
  let frames := s.ch.map fun (c : Chan) => c.onFrames
  let ch := Vector.ofFn fun n => s.chanPeriod n
  (({ s with ch := ch }).imbalance frames).ttlPeriod

/-! ### Supply of the pumps (R134) -/

/-- VSUP_Bn against the domain rail of its Bank. -/
def State.supplyCheck (s : State) (b : Fin 4) : State :=
  let v : ℚ := (s.hk.volts[(⟨4 + b.val, by omega⟩ : Fin 16)] : ℚ) / 1000
  let rail := s.bankSup b
  let bad : Bool := decide (|v - rail| > if s.pump.domain48[b] then 5 else 2)
  let n := if bad then s.pump.supplyRun[b] + 1 else 0
  let s1 := s.updPump fun p => { p with
    supplyRun := p.supplyRun.set b n, supplyWarned := p.supplyWarned.set b (bad && (p.supplyWarned[b] || n ≥ 8)) }
  if n ≥ 8 && !s.pump.supplyWarned[b] then
    s1.iceRecord 0x0121 (0x40 + b.val) 1 (le 2 0 ++ repU 2 (100 * v) ++ repU 2 (100 * rail))
  else s1

/-! ### Snapshots of the wire model (R210, R213) -/

/-- Every 25th Period of RUN, and in the Period after a WIRE_MODEL trip. -/
def State.snapPeriod (s : State) : State :=
  let k := s.fr.count / 250 - s.pw.runAt / 250
  if s.wmTrip || (s.inRun && k != 0 && k % 25 == 0) then ({ s with wmTrip := false }).snapWrite else s

/-- The record of the restart, at the first boundary from Frame 250 on at which every HELD Channel outside a FAILED Group
has had R212 applied (log 96). -/
def State.snapRecord (s : State) : State :=
  let wait := allCh.any fun n => (s.ch[n]).st == .held && (s.grp[chGroup n]).health < 3 && !(s.ch[s.leader n]).stepping
  if s.wmRecDone || s.fr.count == 0 || wait then s
  else
    let n11 := (allCh.filter fun n => (s.ch[n]).raised11).length
    let n12 := (allCh.filter fun n => (s.ch[n]).raised12).length
    let s1 := { s with wmRecDone := true }
    match s.snapSrc with
    | some q => s1.iceRecord 0x0124 rDevice 0 (le 4 q ++ le 1 n11 ++ le 1 n12)
    | none => s1.iceRecord 0x0125 rDevice 1 (le 4 0 ++ le 1 0 ++ le 1 n12)

/-! ### The Period -/

/-- Commands whose effect applied at the boundary complete. -/
def State.periodDone (s : State) : State :=
  s.completeOuts (fun o => match o.wait with | .period _ _ => true | _ => false) fun o s =>
    match o.wait with
    | .period st res => s.complete o.cmd st.toNat (some s.fr.count) res
    | _ => s

/-- Creep: measurements, re-planning and at most one probe (R231-R242). -/
def State.creepPeriod (s : State) : State :=
  let s1 := overL allCh (fun n s => s.creepMeasure n) s
  (overL allCh (fun n s => (s.creepReplan n).creepDaily n) s1).probeStart

/-- Corrections of the slices for the Period that has ended (R96); none has at Frame count 0. -/
def State.slicePeriod (s : State) (p : PeriodIn) : State :=
  if s.fr.count == 0 then s else overL (List.finRange 5) (fun (g : Fin 5) s => s.sliceUpdate g p.est[g] p.margin[g]) s

/-- The Periods of a trial (R600). -/
def State.figures (s : State) : State :=
  s.updUpd fun u => { u with trialPeriods := if s.inRun then u.trialPeriods + 1 else u.trialPeriods }

/-- Energy, converter and ports: the estimator, the zone (with the PCV of the Period), then the converter and the ports. -/
def State.energyPeriod (s : State) : State :=
  let s1 := s.auxPeriod.batPeriod
  ((s1.updCv fun c => { c with pcv := c.sumPcv / 250 }).zonePeriod).cvPeriod.pdPeriod

/-- Commands of Class B and C: those that waited behind a FENCE, then the batch (R51, R403, R417). -/
def State.commands (s : State) : State :=
  let s1 := (overL (s.queuesOf .b) (fun q s => s.runWaiting q) s).batch
  overL (s1.queuesOf .c) (fun q s => s.runWaiting q) s1

/-- The Period, unless the thermal work shut the device down. -/
def State.period (s : State) (p : PeriodIn) : State :=
  let s1 := ((s.hingeTest.applyDue .period).periodDone).thPeriod
  if !s1.live then s1
  else
    let s2 := (s1.meterPeriod p).energyPeriod.creepPeriod
    let s3 := overL (List.finRange 4) (fun (b : Fin 4) s => s.supplyCheck b) (s2.slicePeriod p)
    s3.snapPeriod.snapRecord.figures.hingePeriod.commands

/-- PERIOD_BOUNDARY, at a tick whose Frame count is a multiple of 250. -/
def execPeriodBoundary (p : PeriodIn) (s : State) : Host.Outcome State Fault Refusal :=
  .next (if s.live && s.fr.count % 250 == 0 then s.period p else s)

end Sys2Proof.Machine
end

