-- ==== Sys2Proof/Machine/Dispatch.lean ====
section
/-! DEFINITION. The dispatch: one arm per command of the table. -/

namespace Sys2Proof.Machine

open Sys2Proof

def exec (i : Instr) (s : State) : Host.Outcome State Fault Refusal :=
  match i with
  | .powerUp => Sys2Proof.Machine.execPowerUp s
  | .keepAlivePor => Sys2Proof.Machine.execKeepAlivePor s
  | .logicPor => Sys2Proof.Machine.execLogicPor s
  | .logicPorRelease => Sys2Proof.Machine.execLogicPorRelease s
  | .resetN => Sys2Proof.Machine.execResetN s
  | .lockstepMismatch => Sys2Proof.Machine.execLockstepMismatch s
  | .pllLockLoss => Sys2Proof.Machine.execPllLockLoss s
  | .crystalFault => Sys2Proof.Machine.execCrystalFault s
  | .pllRelock => Sys2Proof.Machine.execPllRelock s
  | .rcOscillatorFault => Sys2Proof.Machine.execRcOscillatorFault s
  | .crystalStartTimeout => Sys2Proof.Machine.execCrystalStartTimeout s
  | .pllLock => Sys2Proof.Machine.execPllLock s
  | .ceRelease offFrames => Sys2Proof.Machine.execCeRelease offFrames s
  | .pumpRegulated bank vsup => Sys2Proof.Machine.execPumpRegulated bank vsup s
  | .pumpStartTimeout x => Sys2Proof.Machine.execPumpStartTimeout x s
  | .pumpFail bank => Sys2Proof.Machine.execPumpFail bank s
  | .converterRegulation => Sys2Proof.Machine.execConverterRegulation s
  | .startFail => Sys2Proof.Machine.execStartFail s
  | .frameTick fin => Sys2Proof.Machine.execFrameTick fin s
  | .frameOverrun slot => Sys2Proof.Machine.execFrameOverrun slot s
  | .ceRestart => Sys2Proof.Machine.execCeRestart s
  | .periodBoundary p => Sys2Proof.Machine.execPeriodBoundary p s
  | .classAServiceSlot => Sys2Proof.Machine.execClassAServiceSlot s
  | .classAAcceptTimeout n => Sys2Proof.Machine.execClassAAcceptTimeout n s
  | .comparatorTrip x => Sys2Proof.Machine.execComparatorTrip x s
  | .tumblerRamp n => Sys2Proof.Machine.execTumblerRamp n s
  | .rampTimeout n => Sys2Proof.Machine.execRampTimeout n s
  | .gateFail n => Sys2Proof.Machine.execGateFail n s
  | .fetShortTest n => Sys2Proof.Machine.execFetShortTest n s
  | .fetShort n => Sys2Proof.Machine.execFetShort n s
  | .retryDue n => Sys2Proof.Machine.execRetryDue n s
  | .tstableExpiry n => Sys2Proof.Machine.execTstableExpiry n s
  | .dischargeTimeout n => Sys2Proof.Machine.execDischargeTimeout n s
  | .ambFallback n => Sys2Proof.Machine.execAmbFallback n s
  | .arcBlock a => Sys2Proof.Machine.execArcBlock a s
  | .probeEnd n a => Sys2Proof.Machine.execProbeEnd n a s
  | .injectedConversion g defn round ns => Sys2Proof.Machine.execInjectedConversion g defn round ns s
  | .hkRound h => Sys2Proof.Machine.execHkRound h s
  | .captureDone stream => Sys2Proof.Machine.execCaptureDone stream s
  | .shedholdExpiry => Sys2Proof.Machine.execShedholdExpiry s
  | .interleaveRotation => Sys2Proof.Machine.execInterleaveRotation s
  | .autoRestart => Sys2Proof.Machine.execAutoRestart s
  | .countedRestart rail => Sys2Proof.Machine.execCountedRestart rail s
  | .profileTimeout n => Sys2Proof.Machine.execProfileTimeout n s
  | .injectionStart => Sys2Proof.Machine.execInjectionStart s
  | .sweepPointEnd => Sys2Proof.Machine.execSweepPointEnd s
  | .holdupReturn => Sys2Proof.Machine.execHoldupReturn s
  | .returnTimeout => Sys2Proof.Machine.execReturnTimeout s
  | .spentStartTimeout => Sys2Proof.Machine.execSpentStartTimeout s
  | .huTestEnd => Sys2Proof.Machine.execHuTestEnd s
  | .powerFailWarning => Sys2Proof.Machine.execPowerFailWarning s
  | .powerFailClear => Sys2Proof.Machine.execPowerFailClear s
  | .wake src => Sys2Proof.Machine.execWake src s
  | .keyringWakeInterval => Sys2Proof.Machine.execKeyringWakeInterval s
  | .dormantEntryStep => Sys2Proof.Machine.execDormantEntryStep s
  | .sramScrub => Sys2Proof.Machine.execSramScrub s
  | .firnScrub => Sys2Proof.Machine.execFirnScrub s
  | .eccSingle r => Sys2Proof.Machine.execEccSingle r s
  | .eccDouble r addr part => Sys2Proof.Machine.execEccDouble r addr part s
  | .parity w => Sys2Proof.Machine.execParity w s
  | .busError addr => Sys2Proof.Machine.execBusError addr s
  | .keyringSeal count => Sys2Proof.Machine.execKeyringSeal count s
  | .keyringKeyWrite task val => Sys2Proof.Machine.execKeyringKeyWrite task val s
  | .keyringRegister task key => Sys2Proof.Machine.execKeyringRegister task key s
  | .keyringEnable => Sys2Proof.Machine.execKeyringEnable s
  | .expire => Sys2Proof.Machine.execExpire s
  | .krgClock => Sys2Proof.Machine.execKrgClock s
  | .tumblerTighten f ch hi val => Sys2Proof.Machine.execTumblerTighten f ch hi val s
  | .offPermitLapse n => Sys2Proof.Machine.execOffPermitLapse n s
  | .iceFlushDone => Sys2Proof.Machine.execIceFlushDone s
  | .iceClearDone => Sys2Proof.Machine.execIceClearDone s
  | .fenceComplete q => Sys2Proof.Machine.execFenceComplete q s
  | .spiFrame words midWord => Sys2Proof.Machine.execSpiFrame words midWord s
  | .qmSqdb q w => Sys2Proof.Machine.execQmSqdb q w s
  | .qmCqdb q w => Sys2Proof.Machine.execQmCqdb q w s
  | .qmQctlEn q en ie => Sys2Proof.Machine.execQmQctlEn q en ie s
  | .qmQctlRestart q => Sys2Proof.Machine.execQmQctlRestart q s
  | .qmWinbase w => Sys2Proof.Machine.execQmWinbase w s
  | .vioCtlClear => Sys2Proof.Machine.execVioCtlClear s
  | .hptFaultClear w => Sys2Proof.Machine.execHptFaultClear w s
  | .registerWrite addr w => Sys2Proof.Machine.execRegisterWrite addr w s
  | .commandMessage m => Sys2Proof.Machine.execCommandMessage m s
  | .echoReq m => Sys2Proof.Machine.execEchoReq m s
  | .neighbourSolicitation link target src mac => Sys2Proof.Machine.execNeighbourSolicitation link target src mac s
  | .linkState link up => Sys2Proof.Machine.execLinkState link up s
  | .permit m => Sys2Proof.Machine.execPermit m s
  | .revoke m => Sys2Proof.Machine.execRevoke m s
  | .failover m => Sys2Proof.Machine.execFailover m s
  | .hingeGnt level => Sys2Proof.Machine.execHingeGnt level s
  | .partnerPulse hold => Sys2Proof.Machine.execPartnerPulse hold s
  | .heartbeat f => Sys2Proof.Machine.execHeartbeat f s
  | .hingeLinkLost => Sys2Proof.Machine.execHingeLinkLost s
  | .partnerAbsent => Sys2Proof.Machine.execPartnerAbsent s
  | .handingRegain => Sys2Proof.Machine.execHandingRegain s
  | .coldStartTake => Sys2Proof.Machine.execColdStartTake s
  | .offer f => Sys2Proof.Machine.execOffer f s
  | .ack f => Sys2Proof.Machine.execAck f s
  | .nak f => Sys2Proof.Machine.execNak f s
  | .resyncEnd f => Sys2Proof.Machine.execResyncEnd f s
  | .converterHandoverEnd => Sys2Proof.Machine.execConverterHandoverEnd s
  | .hostNotify e => Sys2Proof.Machine.execHostNotify e s
  | .hostNotifyRetry e => Sys2Proof.Machine.execHostNotifyRetry e s
  | .tw1BlockWrite code count bytes pec => Sys2Proof.Machine.execTw1BlockWrite code count bytes pec s
  | .tw1BlockRead code complete => Sys2Proof.Machine.execTw1BlockRead code complete s
  | .tw1ReadWord code => Sys2Proof.Machine.execTw1ReadWord code s
  | .tw0BlockRead code => Sys2Proof.Machine.execTw0BlockRead code s
  | .tw0QuickCommand => Sys2Proof.Machine.execTw0QuickCommand s
  | .illegalStart b => Sys2Proof.Machine.execIllegalStart b s
  | .twBusError b => Sys2Proof.Machine.execTwBusError b s
  | .twTimeout b asController => Sys2Proof.Machine.execTwTimeout b asController s
  | .attach p a => Sys2Proof.Machine.execAttach p a s
  | .rdAbsent p => Sys2Proof.Machine.execRdAbsent p s
  | .detach p vSafeUs => Sys2Proof.Machine.execDetach p vSafeUs s
  | .request p r => Sys2Proof.Machine.execRequest p r s
  | .srcTransition p => Sys2Proof.Machine.execSrcTransition p s
  | .noPdReply p => Sys2Proof.Machine.execNoPdReply p s
  | .contractHardReset p => Sys2Proof.Machine.execContractHardReset p s
  | .moistureTest p imp => Sys2Proof.Machine.execMoistureTest p imp s
  | .vconnLimit p => Sys2Proof.Machine.execVconnLimit p s
  | .updVerifyDone readError => Sys2Proof.Machine.execUpdVerifyDone readError s
  | .trialConfirm => Sys2Proof.Machine.execTrialConfirm s
  | .commandedReset => Sys2Proof.Machine.execCommandedReset s
  | .chOn q d => Sys2Proof.Machine.execChOn q d s
  | .chOff q d => Sys2Proof.Machine.execChOff q d s
  | .chCfg q d => Sys2Proof.Machine.execChCfg q d s
  | .chRead q d => Sys2Proof.Machine.execChRead q d s
  | .chClear q d => Sys2Proof.Machine.execChClear q d s
  | .cvSet q d => Sys2Proof.Machine.execCvSet q d s
  | .cvCfg q d => Sys2Proof.Machine.execCvCfg q d s
  | .auxCfg q d => Sys2Proof.Machine.execAuxCfg q d s
  | .lawCfg q d => Sys2Proof.Machine.execLawCfg q d s
  | .cvRead q d => Sys2Proof.Machine.execCvRead q d s
  | .capSet q d => Sys2Proof.Machine.execCapSet q d s
  | .huCfg q d => Sys2Proof.Machine.execHuCfg q d s
  | .shedOrder q d => Sys2Proof.Machine.execShedOrder q d s
  | .zoneRead q d => Sys2Proof.Machine.execZoneRead q d s
  | .huTest q d => Sys2Proof.Machine.execHuTest q d s
  | .stagCfg q d => Sys2Proof.Machine.execStagCfg q d s
  | .batCfg q d => Sys2Proof.Machine.execBatCfg q d s
  | .batRead q d => Sys2Proof.Machine.execBatRead q d s
  | .snsMask q d => Sys2Proof.Machine.execSnsMask q d s
  | .snsGain q d => Sys2Proof.Machine.execSnsGain q d s
  | .snsFilter q d => Sys2Proof.Machine.execSnsFilter q d s
  | .snsInj q d => Sys2Proof.Machine.execSnsInj q d s
  | .snsZone q d => Sys2Proof.Machine.execSnsZone q d s
  | .snsRead q d => Sys2Proof.Machine.execSnsRead q d s
  | .capCfg q d => Sys2Proof.Machine.execCapCfg q d s
  | .capArm q d => Sys2Proof.Machine.execCapArm q d s
  | .capTrig q d => Sys2Proof.Machine.execCapTrig q d s
  | .capRelease q d => Sys2Proof.Machine.execCapRelease q d s
  | .capRead q d => Sys2Proof.Machine.execCapRead q d s
  | .capNetStart q d => Sys2Proof.Machine.execCapNetStart q d s
  | .capNetStop q d => Sys2Proof.Machine.execCapNetStop q d s
  | .iceRead q d => Sys2Proof.Machine.execIceRead q d s
  | .iceFlush q d => Sys2Proof.Machine.execIceFlush q d s
  | .iceClear q d => Sys2Proof.Machine.execIceClear q d s
  | .fence q d => Sys2Proof.Machine.execFence q d s
  | .reset q d => Sys2Proof.Machine.execReset q d s
  | .dormant q d => Sys2Proof.Machine.execDormant q d s
  | .wakeCfg q d => Sys2Proof.Machine.execWakeCfg q d s
  | .ownerMap q d => Sys2Proof.Machine.execOwnerMap q d s
  | .ownerRes q d => Sys2Proof.Machine.execOwnerRes q d s
  | .qCfg q d => Sys2Proof.Machine.execQCfg q d s
  | .qCtlDisable q d => Sys2Proof.Machine.execQCtlDisable q d s
  | .qCtlEnable q d => Sys2Proof.Machine.execQCtlEnable q d s
  | .qCtlRestart q d => Sys2Proof.Machine.execQCtlRestart q d s
  | .vioClear q d => Sys2Proof.Machine.execVioClear q d s
  | .idRead q d => Sys2Proof.Machine.execIdRead q d s
  | .hingeCfg q d => Sys2Proof.Machine.execHingeCfg q d s
  | .hingeHandover q d => Sys2Proof.Machine.execHingeHandover q d s
  | .hingeResync q d => Sys2Proof.Machine.execHingeResync q d s
  | .hingeCounterClear q d => Sys2Proof.Machine.execHingeCounterClear q d s
  | .hingeRead q d => Sys2Proof.Machine.execHingeRead q d s
  | .pdCfg q d => Sys2Proof.Machine.execPdCfg q d s
  | .pdReadvertise q d => Sys2Proof.Machine.execPdReadvertise q d s
  | .pdHardReset q d => Sys2Proof.Machine.execPdHardReset q d s
  | .pdMoistureTestNow q d => Sys2Proof.Machine.execPdMoistureTestNow q d s
  | .pdClearFault q d => Sys2Proof.Machine.execPdClearFault q d s
  | .pdClearCorrosion q d => Sys2Proof.Machine.execPdClearCorrosion q d s
  | .pdRead q d => Sys2Proof.Machine.execPdRead q d s
  | .updBegin q d => Sys2Proof.Machine.execUpdBegin q d s
  | .updData q d => Sys2Proof.Machine.execUpdData q d s
  | .updEnd q d => Sys2Proof.Machine.execUpdEnd q d s
  | .updActivate q d => Sys2Proof.Machine.execUpdActivate q d s
  | .updRead q d => Sys2Proof.Machine.execUpdRead q d s
  | .injStart q d => Sys2Proof.Machine.execInjStart q d s
  | .injStop q d => Sys2Proof.Machine.execInjStop q d s
  | .injRead q d => Sys2Proof.Machine.execInjRead q d s
  | .ceStat q d => Sys2Proof.Machine.execCeStat q d s
  | .resetNRelease => Sys2Proof.Machine.execResetNRelease s
  | .rdReturn p => Sys2Proof.Machine.execRdReturn p s
  | .pdReceivedMessage p m => Sys2Proof.Machine.execPdReceivedMessage p m s
  | .vconnInputLow => Sys2Proof.Machine.execVconnInputLow s
  | .mkaFrame link newSak => Sys2Proof.Machine.execMkaFrame link newSak s
  | .transmitOpportunity => Sys2Proof.Machine.execTransmitOpportunity s
  | .flashWriteDone => Sys2Proof.Machine.execFlashWriteDone s
  | .firnWriteDone verifyOk => Sys2Proof.Machine.execFirnWriteDone verifyOk s
  | .neighbourAdvertisement link ip mac => Sys2Proof.Machine.execNeighbourAdvertisement link ip mac s

end Sys2Proof.Machine
end

