-- ==== Sys2Proof/Machine/Pins.lean ====
section
/-! DEFINITION. The levels of the output pins as functions of the state (Table 21.10, R141, R251, R257, R326, R337, R495,
R512, R570, R626, R638). -/

namespace Sys2Proof.Machine

open Sys2Proof

/-- CHnn_G: 50 kΩ to the output, released, held at 4 Ω, linear in RAMP, linear with VDS at a level in V during a Creep probe, or at
full drive. -/
inductive GatePin where
  | weak
  | released
  | low
  | ramp
  | probe (vds : ℚ)
  | full
deriving DecidableEq, Repr

/-- BBISO_G: 50 kΩ to BBISO_S, released, open or closed. -/
inductive IsoPin where
  | weak
  | released
  | opened
  | closed
deriving DecidableEq, Repr

/-- PHnn_PWM and AUXn_PWM: not driven, at mid-level, or high for a number of ns in each switching period, but for those periods
that R261, R262 or R275 changes. -/
inductive PwmPin where
  | bias
  | mid
  | high (ns : Nat)
deriving DecidableEq, Repr

/-- HINGE_HB: let go, pulled low for 400 ns at each Frame tick, or for 1,200 ns every 4 µs in reset hold (R499). -/
inductive HbPin where
  | idle
  | tick
  | hold
deriving DecidableEq, Repr

/-- The output pins. corn, faultN and irqN are true where the open-drain output is low; miso, tw and flash are true where
the pin takes part in transfers; cc is true where the port presents Rp. -/
structure Pins where
  gate : Vector GatePin 64
  iso : IsoPin
  phPwm : Vector PwmPin 16
  /-- the switching periods of the last Frame, as R261, R262 and R275 left each of them. -/
  phPeriods : Vector (List SwPeriod) 16
  phEn : Vector Bool 16
  auxPwm : Vector PwmPin 4
  auxEn : Vector Bool 4
  corn : Bool
  hb : HbPin
  faultN : Bool
  irqN : Bool
  miso : Bool
  tw0 : Bool
  tw1 : Bool
  cc : Vector Bool 2
  vconn : Vector Bool 2
  flash : Bool
deriving DecidableEq, Repr

/-- A chip of a pair whose outputs are released (R495, R498, R570). -/
def State.released (s : State) : Bool := s.hinge.hen && !s.hinge.driving && !s.hinge.resetHold

/-- Whether the drive die's outputs follow the Frames: from step 6 on, outside DORMANT and SHUTDOWN. -/
def State.framed (s : State) : Bool := s.live && (s.pw.mode == .start || s.pw.mode == .run)

/-- CHnn_G. In DORMANT and before step 6 the drive die holds what a logic-die reset left (Table 2.10, R512). -/
def State.gatePin (s : State) (n : Fin 64) : GatePin :=
  if s.pw.mode == .off then .weak
  else if s.released then .released
  else if s.pw.mode == .shutdown then .low
  else match (s.ch[n]).gate with
    | .low => .low
    | .ramp => .ramp
    | .full => if (s.ch[n]).probing (s.lf n Fld.PLEN) s.fr.count then .probe ((s.lf n Fld.PVDS : ℚ) / 10) else .full

/-- What the linear amplifier of a Channel steers to: its reference at a time in the Frame, in V, and the clamp of its current,
in A; where the load would draw more, the clamp holds the current (R149). -/
structure RampDrive where
  ref : ℚ
  clamp : ℚ
deriving DecidableEq, Repr

/-- The amplifier a number of ns after the tick: the reference slews continuously at SR. None where no gate is in ramp drive. -/
def State.rampDrive (s : State) (n : Fin 64) (ns : Nat) : Option RampDrive :=
  let c := s.ch[n]
  if c.gate == .ramp then some ⟨c.ref + c.slope * ns / 1000000, c.clamp⟩ else none

/-- The current of a Channel in ramp drive for a current that its load would draw. -/
def RampDrive.hold (d : RampDrive) (load : ℚ) : ℚ := min load d.clamp

/-- BBISO_G (R326, R327). -/
def State.isoPin (s : State) : IsoPin :=
  if s.pw.mode == .off then .weak
  else if s.released then .released
  else if s.pw.mode == .shutdown then .opened
  else if s.zone.iso then .closed else .opened

/-- Whether this chip drives the pins that a pair wires to it alone: its AUX rails and PD ports run in SOLO and ACTIVE only
(Table 15.1). -/
def State.ownPins (s : State) : Bool := s.framed && (s.hinge.st == .solo || s.hinge.st == .active)

/-- A PWM output: what it does while its Frames run, bias or mid-level outside (Table 21.10). -/
def State.pwmPin (s : State) (drive : Option Nat) : PwmPin :=
  if s.pw.mode == .off || s.pw.mode == .dormant then .bias
  else if s.framed then (match drive with | some n => .high n | none => .mid)
  else .mid

/-- PHnn_PWM: the on-time of an ACTIVE Phase (R301); mid-level where it does not switch, and where BOOST waits for the end of a
freeze (R331). -/
def State.phPwm (s : State) (k : Fin 16) : PwmPin :=
  s.pwmPin (if (s.cv.ph[k]).enAp && !(s.cv.ph[k]).midAp then some (onTime (s.cvf Fld.TSW) (s.cv.ph[k]).dutyAp) else none)

/-- PHnn_EN (Table 7.4). -/
def State.phEn (s : State) (k : Fin 16) : Bool := s.framed && (s.cv.ph[k]).enAp

/-- AUXn_PWM and AUXn_EN: a rail switches in START, ON and CC (R289). -/
def State.auxPwm (s : State) (r : Fin 4) : PwmPin :=
  s.pwmPin (if (s.aux[r]).enAp && s.ownPins then some (onTime (s.axf r Fld.TSWA) (s.aux[r]).dutyAp) else none)

def State.auxEn (s : State) (r : Fin 4) : Bool := s.ownPins && (s.aux[r]).enAp

/-- CORNICE0_N-CORNICE3_N assert and release together (R337). -/
def State.cornPin (s : State) : Bool :=
  if s.pw.mode == .off || s.released then false
  else s.pw.mode == .shutdown || s.zone.corn

/-- HINGE_HB of a chip of a pair: a drive die in reset hold, else a chip that drives (R499). -/
def State.hbPin (s : State) : HbPin :=
  if s.pw.mode == .off || s.pw.mode == .shutdown || !s.hinge.hen then .idle
  else if s.hinge.resetHold then .hold
  else if s.framed && s.hinge.driving then .tick else .idle

/-- FAULT_N: any bit of HPT_FAULT, and what the keep-alive domain holds until step 6 (R638, Table 21.10). -/
def State.faultPin (s : State) : Bool :=
  if s.pw.mode == .off then false
  else s.pw.mode == .shutdown || s.pw.faultHeld || s.faultN

/-- PDn_CC: Rp in the states that Table 19.3 lists with it. -/
def State.ccPin (s : State) (p : Fin 2) : Bool :=
  s.ownPins && (match (s.pd[p]).st with
    | .unattached => true
    | .attached => true
    | .typecOnly => true
    | .contract => true
    | .transition => true
    | .disabled => false
    | .moist => false
    | .suspended => false
    | .fault => false)

/-- Every output pin of the state. -/
def State.pins (s : State) : Pins :=
  let bus : Bool := s.pw.logic == .running && s.pw.mode != .shutdown && s.pw.mode != .dormant
  { gate := Vector.ofFn s.gatePin
    iso := s.isoPin
    phPwm := Vector.ofFn s.phPwm
    phPeriods := s.cv.ph.map (·.sw)
    phEn := Vector.ofFn s.phEn
    auxPwm := Vector.ofFn s.auxPwm
    auxEn := Vector.ofFn s.auxEn
    corn := s.cornPin
    hb := s.hbPin
    faultN := s.faultPin
    irqN := (s.framed || s.upd.recovery) && s.irqLow
    miso := bus
    tw0 := s.pw.mode != .off && s.pw.mode != .shutdown && s.otp.tw0Addr.isSome
    tw1 := bus && s.otp.tw1Addr.isSome
    cc := Vector.ofFn s.ccPin
    vconn := Vector.ofFn fun (p : Fin 2) => s.ownPins && (s.pd[p]).vconn
    flash := bus && 4 ≤ s.pw.step }

end Sys2Proof.Machine
end

