-- ==== Sys2Proof/Safety.lean ====
section
/-! DEFINITION. What a safe state and a safe step are, in the terms the claims use. -/

namespace Sys2Proof.Machine

/-- A step that neither faults nor is refused. -/
def safeStep (s : State) : Prop := ∃ t, step s = .next t

end Sys2Proof.Machine
end

