-- ==== Sys2Proof/Certificates/Slice0/Obligations.lean ====
section
/-! DEFINITION. The statements about the block, as OBLIGATIONS.json lists them. The definitions before them name what the
statements speak of: a descriptor as the Supervisor takes it, the checks of its command, the state in which its command is
executed. -/

namespace Sys2Proof.Stated

open Sys2Proof Sys2Proof.Machine

/-- The opcode, the Queue and the descriptor of a command of the host that a row of the table names; a row that names a sub-action
fixes byte 16. -/
def rowOf : Instr → Option (Nat × Fin 32 × CmdArgs)
  | .chOn q d => some (0x0101, q, d)
  | .chOff q d => some (0x0102, q, d)
  | .chCfg q d => some (0x0103, q, d)
  | .chRead q d => some (0x0104, q, d)
  | .chClear q d => some (0x0105, q, d)
  | .cvSet q d => some (0x0201, q, d)
  | .cvCfg q d => some (0x0202, q, d)
  | .auxCfg q d => some (0x0203, q, d)
  | .lawCfg q d => some (0x0204, q, d)
  | .cvRead q d => some (0x0205, q, d)
  | .capSet q d => some (0x0301, q, d)
  | .huCfg q d => some (0x0302, q, d)
  | .shedOrder q d => some (0x0303, q, d)
  | .zoneRead q d => some (0x0304, q, d)
  | .huTest q d => some (0x0305, q, d)
  | .stagCfg q d => some (0x0306, q, d)
  | .batCfg q d => some (0x0401, q, d)
  | .batRead q d => some (0x0402, q, d)
  | .snsMask q d => some (0x0501, q, d)
  | .snsGain q d => some (0x0502, q, d)
  | .snsFilter q d => some (0x0503, q, d)
  | .snsInj q d => some (0x0504, q, d)
  | .snsZone q d => some (0x0505, q, d)
  | .snsRead q d => some (0x0506, q, d)
  | .capCfg q d => some (0x0510, q, d)
  | .capArm q d => some (0x0511, q, d)
  | .capTrig q d => some (0x0512, q, d)
  | .capRelease q d => some (0x0513, q, d)
  | .capRead q d => some (0x0514, q, d)
  | .capNetStart q d => some (0x0515, q, withAction d 1)
  | .capNetStop q d => some (0x0515, q, withAction d 0)
  | .iceRead q d => some (0x0601, q, d)
  | .iceFlush q d => some (0x0602, q, d)
  | .iceClear q d => some (0x0603, q, d)
  | .fence q d => some (0x0701, q, d)
  | .reset q d => some (0x0702, q, d)
  | .dormant q d => some (0x0703, q, d)
  | .wakeCfg q d => some (0x0704, q, d)
  | .ownerMap q d => some (0x0705, q, d)
  | .ownerRes q d => some (0x0706, q, d)
  | .qCfg q d => some (0x0707, q, d)
  | .qCtlDisable q d => some (0x0708, q, withAction d 0)
  | .qCtlEnable q d => some (0x0708, q, withAction d 1)
  | .qCtlRestart q d => some (0x0708, q, withAction d 2)
  | .vioClear q d => some (0x0709, q, d)
  | .idRead q d => some (0x070A, q, d)
  | .hingeCfg q d => some (0x0801, q, d)
  | .hingeHandover q d => some (0x0802, q, withAction d 0)
  | .hingeResync q d => some (0x0802, q, withAction d 1)
  | .hingeCounterClear q d => some (0x0802, q, withAction d 2)
  | .hingeRead q d => some (0x0803, q, d)
  | .pdCfg q d => some (0x0901, q, d)
  | .pdReadvertise q d => some (0x0902, q, withAction d 0)
  | .pdHardReset q d => some (0x0902, q, withAction d 1)
  | .pdMoistureTestNow q d => some (0x0902, q, withAction d 2)
  | .pdClearFault q d => some (0x0902, q, withAction d 3)
  | .pdClearCorrosion q d => some (0x0902, q, withAction d 4)
  | .pdRead q d => some (0x0903, q, d)
  | .updBegin q d => some (0x0A01, q, d)
  | .updData q d => some (0x0A02, q, d)
  | .updEnd q d => some (0x0A03, q, d)
  | .updActivate q d => some (0x0A04, q, d)
  | .updRead q d => some (0x0A05, q, d)
  | .injStart q d => some (0x0B01, q, d)
  | .injStop q d => some (0x0B02, q, d)
  | .injRead q d => some (0x0B03, q, d)
  | .ceStat q d => some (0x0B04, q, d)
  | _ => none

/-- The checks of a command of the host beside the ones that every command has (R433). -/
def ownChecks : Instr → Taken → State → List (Nat × Bool)
  | .chOn .. => chkChOn
  | .chOff .. => fun t s => (0x10, (s.ch[chIx t]).tmb.classA && driven (s.ch[chIx t]).st && targetOk .channel t && !s.credOk t) ::
      chkChOff t s
  | .chCfg .. => fun t s => s.cfgChecks t (cfgChCfg t s)
  | .chClear .. => chkChClear
  | .cvSet .. => chkCvSet
  | .cvCfg .. => fun t s => s.cfgChecks t (cfgCvCfg t s)
  | .auxCfg .. => fun t s => s.cfgChecks t (cfgAuxCfg t s)
  | .lawCfg .. => fun t s => s.cfgChecks t (cfgLawCfg t s)
  | .cvRead .. => chkCvRead
  | .capSet .. => fun t s => s.cfgChecks t (cfgCapSet t s)
  | .huCfg .. => fun t s => s.cfgChecks t (cfgHuCfg t s)
  | .shedOrder .. => chkShedOrder
  | .huTest .. => chkHuTest
  | .stagCfg .. => fun t s => s.cfgChecks t (cfgStagCfg t s)
  | .batCfg .. => fun t s => s.cfgChecks t (cfgBatCfg t s)
  | .snsMask .. => chkSnsMask
  | .snsGain .. => chkSnsGain
  | .snsFilter .. => chkSnsFilter
  | .snsInj .. => chkSnsInj
  | .snsZone .. => chkSnsZone
  | .capCfg .. => chkCapCfg
  | .capArm .. => chkCapArm
  | .capRead .. => chkCapRead
  | .capNetStart .. => chkCapNet
  | .capNetStop .. => chkCapNet
  | .iceRead .. => chkIceRead
  | .iceClear .. => chkIceClear
  | .fence .. => chkFence
  | .dormant .. => chkDormant
  | .wakeCfg .. => chkWakeCfg
  | .ownerMap .. => chkOwnerMap
  | .ownerRes .. => fun t s => (0x10, ((ownedUnits t.target).any fun r =>
      if h : r < 64 then (s.ch[r]).tmb.classA && (s.ownerOf r).val != t.p 16 1 else false) && !s.credOk t) :: chkOwnerRes t s
  | .qCfg .. => chkQCfg
  | .qCtlDisable .. => chkQCtl
  | .qCtlEnable .. => chkQCtl
  | .qCtlRestart .. => chkQCtl
  | .hingeCfg .. => fun t s => s.cfgChecks t (cfgHingeCfg t s)
  | .hingeHandover .. => chkHingeCmd
  | .hingeResync .. => chkHingeCmd
  | .hingeCounterClear .. => chkHingeCmd
  | .pdCfg .. => fun t s => s.cfgChecks t (cfgPdCfg t s)
  | .pdReadvertise .. => chkPdCtl
  | .pdHardReset .. => chkPdCtl
  | .pdMoistureTestNow .. => chkPdCtl
  | .pdClearFault .. => chkPdCtl
  | .pdClearCorrosion .. => chkPdCtl
  | .updBegin .. => chkUpdBegin
  | .updData .. => chkUpdData
  | .updEnd .. => chkUpdEnd
  | .updActivate .. => chkUpdActivate
  | .injStart .. => fun t s => s.cfgChecks t (cfgInjStart t s)
  | _ => fun _ _ => []

/-- The descriptor d of Queue q as it is taken: the area's bytes, the owner of the Queue, the owners of the resources, and the Frame at
which it is visible. -/
def taken (s : State) (q : Fin 32) (op : Nat) (d : CmdArgs) : Taken :=
  ⟨q, BitVec.ofNat 16 op, d, s.areaBytes q d, (s.qs[q]).owner, s.resOwner, s.newVis q 0 0 false, false⟩

/-- The state in which a taken command is executed: its Queue counts it, and a ninth outstanding Class A command is counted
(R412). -/
def entered (s : State) (q : Fin 32) (op : Nat) (d : CmdArgs) : State :=
  let s1 := s.updQ q fun k => { k with nIn := k.nIn + 1, nTaken := k.nTaken + 1 }
  if (taken s q op d).vis.ninth then { s1 with nBeyond := min 65535 (s1.nBeyond + 1) } else s1

/-- A descriptor of Queue q is taken and its command executed at once: the Queue is in RUN, has a free completion entry
(R396), and no FENCE of its own holds it (R417). -/
def AtOnce (s : State) (q : Fin 32) : Prop :=
  s.takeable q = true ∧ s.fenced q = false ∧ (s.qs[q]).waiting = []

/-- Every check that a command of the host meets, in the order of R433, on the state in which it is executed. -/
def allChecks (c : Instr) (r : OpRow) (s : State) (q : Fin 32) (op : Nat) (d : CmdArgs) : List (Nat × Bool) :=
  baseChecks r (taken s q op d) (entered s q op d) ++ ownChecks c (taken s q op d) (entered s q op d)

/-- Command c with the opcode op and descriptor d of Queue q is executed at once, and no check turns it away. -/
def Accepted (c : Instr) (s : State) (q : Fin 32) (op : Nat) (d : CmdArgs) : Prop :=
  AtOnce s q ∧ ∃ r, opRow op = some r ∧ ∀ p ∈ allChecks c r s q op d, p.2 = false

/-- The state after a configuration or control command: its writes are staged for the point at which they apply, and the command
waits for that point, where it completes with 0x00 DONE and the result. -/
def withStaged (e : State) (t : Taken) (due : DueAt) (writes : List (FKey × Nat)) (result : List Byte) : State :=
  { e with
    staged := e.staged ++ [⟨due, writes⟩]
    outs := e.outs ++ [⟨t, e.outs.length, match due with
      | .tick => .tick 0 result
      | .block => .block 0 result
      | .period => .period 0 result⟩] }

/-- The state after a command whose outcome comes later: it waits, and nothing else has changed. -/
def withWait (e : State) (t : Taken) (w : Wait) : State := { e with outs := e.outs ++ [⟨t, e.outs.length, w⟩] }

/-- The free value that a read's RESULT takes where R439 leaves it open has been used. -/
def bumped (e : State) : State := { e with free := e.free + 1 }

/-- The RESULT that R439 leaves open. -/
def openRes (e : State) : List Byte := le 8 (Config.readResult e.free).toNat

/-- An accepted command stages its writes for the next tick, block or Period boundary, and waits for it. -/
def Stages (c : Instr) (op : Nat) (q : Fin 32) (d : CmdArgs) (due : Taken → State → DueAt)
    (writes : Taken → State → List (FKey × Nat)) (result : Taken → List Byte) : Prop :=
  ∀ s, Accepted c s q op d →
    let t := taken s q op d
    let e := entered s q op d
    exec c s = .next (withStaged e t (due t e) (writes t e) (result t))

/-- An accepted read completes with 0x00 DONE, the Frame count, its RESULT, and its data where the descriptor has an area. After a
FENCE whose next latch is still to come, it waits for that latch (R418). -/
def Reads (c : Instr) (op : Nat) (q : Fin 32) (d : CmdArgs) (free : Bool) (result data : Taken → State → List Byte) : Prop :=
  ∀ s, Accepted c s q op d →
    let t := taken s q op d
    let e := entered s q op d
    (∀ f, (s.qs[q]).fenceAt = some f → s.fr.count < f + 1 → exec c s = .next (withWait e t (.readAfter (f + 1)))) ∧
    ((∀ f, (s.qs[q]).fenceAt = some f → f + 1 ≤ s.fr.count) →
      exec c s = .next ((if free then bumped e else e).complete t 0 (some s.fr.count)
        (if free then openRes e else result t e) (if d.flags.getLsbD 0 then data t e else [])))

/-- The outstanding commands that have not finished are the same. -/
def SameOpen (s t : State) : Prop := (t.outs.filter fun o => !o.wait.isDone) = s.outs.filter fun o => !o.wait.isDone

/-- Everything that a command turned away leaves alone: all but the rings, queue memory, messages, records, and the counters of
completions, events and violations. -/
def SameMachine (s t : State) : Prop :=
  t.pw = s.pw ∧ t.clk = s.clk ∧ t.fr = s.fr ∧ t.pump = s.pump ∧ t.settings = s.settings ∧ t.staged = s.staged ∧ t.ch = s.ch ∧
  t.adm = s.adm ∧ t.grp = s.grp ∧ t.g4 = s.g4 ∧ t.hk = s.hk ∧ t.cv = s.cv ∧ t.aux = s.aux ∧ t.inj = s.inj ∧ t.zone = s.zone ∧
  t.bat = s.bat ∧ t.winBase = s.winBase ∧ SameOpen s t ∧ t.owners = s.owners ∧ t.resOwner = s.resOwner ∧ t.hpt = s.hpt ∧
  t.ccount = s.ccount ∧ t.hinge = s.hinge ∧ t.tmb = s.tmb ∧ t.krg = s.krg ∧ t.th = s.th ∧ t.pd = s.pd ∧ t.upd = s.upd ∧
  t.otp = s.otp ∧ t.cap = s.cap ∧ t.mem = s.mem ∧ t.pending = s.pending

/-- How the power mode and the parts that it governs agree: the logic die runs in START and RUN alone; Frames run only
while the logic die runs, from step 6 on, and never in RECOVERY; Keyring in SAFE holds the logic die; neither SAFE nor RECOVERY goes
with SHUTDOWN. -/
def PowerInv (s : State) : Prop :=
  (s.pw.logic = .running → s.pw.mode = .start ∨ s.pw.mode = .run) ∧
  (s.fr.running = true → s.pw.logic = .running ∧ 7 ≤ s.pw.step) ∧
  (s.upd.recovery = true → s.fr.running = false) ∧ (s.krg.st = .safe → s.pw.logic ≠ .running) ∧
  (s.pw.mode = .shutdown → s.upd.recovery = false ∧ s.krg.st ≠ .safe)

end Sys2Proof.Stated

open Sys2Proof Sys2Proof.Machine Sys2Proof.Stated

/-! ### The whole block -/

/-- Log 1 and the rules of a block: a step takes the command at the front of the queue and runs it on the queue's rest; on an empty
queue the block idles. -/
def Obligations.StepRunsTheFrontCommand : Prop :=
  (∀ (c : Instr) (rest : List Instr) (s : State),
    step { s with pending := c :: rest } = exec c { s with pending := rest }) ∧
  (∀ s : State, s.pending = [] → step s = .next s)

/-- Every command has a next state and leaves the queue of waiting commands alone, so a step removes exactly the front command. -/
def Obligations.EveryCommandCompletesAndKeepsTheQueue : Prop :=
  ∀ (c : Instr) (s : State), ∃ t, exec c s = .next t ∧ t.pending = s.pending

/-- Queue memory keeps its canonical form (R385, log 13): addresses strictly rising, no entry that reads as an unlisted byte. -/
def Obligations.EveryStepKeepsQueueMemoryCanonical : Prop :=
  ∀ s t : State, memWf s.qmem = true → step s = .next t → memWf t.qmem = true

/-- The power mode, the logic die, Frames, RECOVERY and Keyring agree (R59, R62, R556, R569, R599), at reset and after every step. -/
def Obligations.EveryStepKeepsThePowerInvariant : Prop :=
  PowerInv State.reset ∧ ∀ s t : State, PowerInv s → step s = .next t → PowerInv t

/-- State.reset: R58 OFF, Table 11.1 (with the layout of Table 11.6), Table 3.8 and R103, registers of Tables 11.5, 22.7 and 22.10; the zeros are the ones of
log 2. -/
def Obligations.ResetState : Prop :=
  memWf State.reset.qmem = true ∧ State.reset.qmem = [] ∧ State.reset.pending = [] ∧ State.reset.pw.mode = .off ∧
  State.reset.live = false ∧ State.reset.hpt = 0 ∧ State.reset.vio = [] ∧ State.reset.vioOver = 0 ∧
  (∀ n : Fin 64, (State.reset.ch[n]).st = .off) ∧
  (∀ g : Fin 5, (State.reset.grp[g]).mask = 0xFFFFFFFF ∧ (State.reset.grp[g]).seqMode = false) ∧
  (∀ q : Fin 32, (State.reset.qs[q]).sqTail = 0 ∧ (State.reset.qs[q]).cqHead = 0 ∧ (State.reset.qs[q]).ie = false) ∧
  (∀ q : Fin 32, (State.reset.qs[q]).isEvent = decide (28 ≤ q.val) ∧
    ((State.reset.qs[q]).path = .none ↔ q.val = 31) ∧
    ((State.reset.qs[q]).cls = .a ↔ (q.val < 8 ∨ 28 ≤ q.val)) ∧ ((State.reset.qs[q]).cls = .b ↔ (8 ≤ q.val ∧ q.val < 18)))

/-- What memory the rings and data windows are: a byte list written at an address is read back there, and every other byte reads as
before, so a store reaches its own bytes and no others. -/
def Obligations.QueueMemoryReadsBackWhatWasWritten : Prop :=
  ∀ (m : List Host.Cell) (a : Nat) (bs : List Byte), memWf m = true →
    memReadN (memWriteL m a bs) a bs.length = bs ∧
    (∀ x, x < a ∨ a + bs.length ≤ x → memRead (memWriteL m a bs) x = memRead m x)

/-- Table 11.3: the 64 bytes of a descriptor are read as the opcode and the descriptor they encode, at every value of every
field. -/
def Obligations.DescriptorBytesDecodeToTheDescriptor : Prop :=
  ∀ (op : Half) (d : CmdArgs), d.wf = true →
    (descBytes op d).length = 64 ∧ parseDesc (descBytes op d) = (op, d)

/-- Tables 11.2 and 11.3 together: a descriptor written to slot SQHEAD of a Queue that takes commands is the command that the
Supervisor takes next from it, for every Queue and every descriptor without an area. -/
def Obligations.WrittenDescriptorIsTakenAsItself : Prop :=
  ∀ (s : State) (q : Fin 32) (op : Half) (d : CmdArgs) (v : Vis) (rest : List Vis),
    memWf s.qmem = true → d.wf = true → d.flags.getLsbD 0 = false → (s.qs[q]).vis = v :: rest → s.takeable q = true →
    ∃ t, ({ s with qmem := memWriteL s.qmem (sqBase q + 64 * (s.qs[q]).sqHead) (descBytes op d) }).takeRing q = some
        (⟨q, op, d, [], (s.qs[q]).owner, s.resOwner, v, false⟩, t) ∧
      (t.qs[q]).sqHead = ((s.qs[q]).sqHead + 1) % (s.qs[q]).depth ∧ (t.qs[q]).vis = rest

/-! ### Taking and checking commands (11, 12) -/

/-- A command that a check of R433 turns away with 0x41, 0x21, 0x22 or 0x40 completes with that status and has no effect: all of
the machine but its rings, messages, records and counters stays as it was. -/
def Obligations.RefusedCommandHasNoEffect : Prop :=
  ∀ (c : Instr) (op : Nat) (q : Fin 32) (d : CmdArgs) (r : OpRow) (x : Nat) (s : State),
    rowOf c = some (op, q, d) → AtOnce s q → opRow op = some r → firstStatus (allChecks c r s q op d) = some x →
    x ∈ [0x41, 0x21, 0x22, 0x40] →
    ∃ t res, exec c s = .next t ∧ t = (entered s q op d).refuse (taken s q op d) x res ∧
      SameMachine (entered s q op d) t

/-- R7, R388: a reserved field that is not zero, an area beyond the data window, an offset or a length without DATA, or CRED without
DATA turns every command of the host away with 0x22 BAD_PARAM, where no check that R406 puts before it fails. -/
def Obligations.BadDescriptorCompletesWithBadParam : Prop :=
  ∀ (c : Instr) (op : Nat) (q : Fin 32) (d : CmdArgs) (r : OpRow) (s : State),
    rowOf c = some (op, q, d) → AtOnce s q → opRow op = some r →
    (∀ p ∈ allChecks c r s q op d, p.1 ∈ [0x20, 0x41, 0x21] → p.2 = false) →
    (d.rsv ≠ 0 ∨ (d.flags >>> 2) ≠ 0 ∨ d.doff.toNat * 16 + d.dlen.toNat > 8192 ∨
      (d.flags.getLsbD 0 = false ∧ (d.doff ≠ 0 ∨ d.dlen ≠ 0)) ∨ (d.flags.getLsbD 1 = true ∧ d.flags.getLsbD 0 = false) ∨
      (r.cfg = false ∧ paramClear r.used (taken s q op d) = false)) →
    ∃ t res, exec c s = .next t ∧ t = (entered s q op d).refuse (taken s q op d) 0x22 res ∧
      SameMachine (entered s q op d) t

/-- R28: CH_OFF of a driven Class A Channel without a credential that verifies completes with 0x10 REFUSED_TUMBLER, and the Channel
stays as it was. The checks that R406 puts before this one pass. -/
def Obligations.ClassAOffWithoutCredentialIsRefused : Prop :=
  ∀ (q : Fin 32) (d : CmdArgs) (s : State) (n : Fin 64),
    AtOnce s q → d.target.toNat = n.val → (s.ch[n]).tmb.classA = true → driven (s.ch[n]).st = true →
    (∃ r, opRow 0x0102 = some r ∧ ∀ p ∈ allChecks (.chOff q d) r s q 0x0102 d, p.1 ∈ [0x20, 0x41, 0x21, 0x22, 0x40] → p.2 = false) →
    (entered s q 0x0102 d).credOk (taken s q 0x0102 d) = false →
    exec (.chOff q d) s = .next ((entered s q 0x0102 d).complete (taken s q 0x0102 d) 0x10 none) ∧
    ∀ t, exec (.chOff q d) s = .next t → t.ch = s.ch ∧ SameOpen s t

/-- R417: a command behind a FENCE of its own Queue that has not completed is not executed; it waits. No FENCE of another Queue
holds it: AtOnce asks nothing of the other Queues.
R396: a Queue that is not in RUN, or whose completion ring has no free entry to reserve, takes no descriptor; another Queue is
not affected. -/
def Obligations.CommandsNotTakenOrFencedAreNotExecuted : Prop :=
  (
    ∀ (c : Instr) (op : Nat) (q : Fin 32) (d : CmdArgs) (s : State),
      rowOf c = some (op, q, d) → s.takeable q = true → s.fenced q = true →
      exec c s = .next ((entered s q op d).updQ q fun k => { k with waiting := k.waiting ++ [taken s q op d] })
  ) ∧ (
    ∀ (c : Instr) (op : Nat) (q : Fin 32) (d : CmdArgs) (s : State),
      rowOf c = some (op, q, d) → ((s.qs[q]).held + (s.qs[q]).nTaken + 1 ≥ (s.qs[q]).depth ∨ (s.qs[q]).st ≠ .run) →
      exec c s = .next s
  )

/-- R390, Table 11.4: a completion of an SPI Queue is written in the slot at CQTAIL, its bytes where the table places them, and
CSEQ and CQTAIL advance; nothing but queue memory, its Queue, the free values and the counters of late completions changes.
R392: while an earlier command of the Queue is to complete first, no entry is written; with its completion, both entries are written in
the order of submission. -/
def Obligations.CompletionsAreWrittenInOrderAtCqtail : Prop :=
  (∀ (s : State) (t : Taken) (status : Nat) (frame : Option Nat) (res : List Byte),
    let k := s.qs[t.q]
    memWf s.qmem = true → t.dead = false → k.st = .run → k.disabling = false → k.path = .spi → s.upd.recovery = false →
    s.promised t = false → k.cqTail < k.depth → s.behind t = false →
    (∀ o ∈ s.outs, o.cmd.q = t.q → o.wait.isDone = false) →
    let u := s.complete t status frame res
    let b := memReadN u.qmem (cqBase t.q + 32 * k.cqTail) 32
    b.take 4 = le 4 t.d.tag.toNat ∧ (b.drop 4).take 2 = le 2 t.op.toNat ∧ (b.drop 6).take 1 = le 1 status ∧
    (b.drop 7).take 1 = le 1 (if k.phase then 1 else 0) ∧ (b.drop 8).take 2 = le 2 k.sqHead ∧ (b.drop 10).take 2 = le 2 k.cseq ∧
    (b.drop 12).take 4 = le 4 (match frame with | some f => f % 2 ^ 32 | none => 0xFFFFFFFF) ∧
    (b.drop 16).take 8 = fitTo 8 res ∧ b.drop 30 = [0, 0] ∧
    (u.qs[t.q]).cseq = (k.cseq + 1) % 65536 ∧ (u.qs[t.q]).cqTail = (k.cqTail + 1) % k.depth ∧
    (u.qs[t.q]).phase = (if k.cqTail + 1 ≥ k.depth then !k.phase else k.phase) ∧
    (∀ a, a < cqBase t.q + 32 * k.cqTail ∨ cqBase t.q + 32 * k.cqTail + 32 ≤ a → memRead u.qmem a = memRead s.qmem a) ∧
    (∀ r, r ≠ t.q → u.qs[r] = s.qs[r]) ∧ SameMachine s u) ∧
  (∀ (s : State) (t : Taken) (o : Out) (status : Nat) (frame : Option Nat) (res data : List Byte) (evt : Bool),
    o ∈ s.outs → o.cmd.q = t.q → o.cmd.vis.id < t.vis.id → o.cmd.dead = false → o.wait.holds = true → t.dead = false →
    let u := s.complete t status frame res data evt
    u.qs = s.qs ∧ u.qmem = s.qmem ∧ (∃ p ∈ u.outs, p.cmd = t ∧ p.wait = .done status frame res data evt false) ∧
    SameMachine s u) ∧
  (∀ (s : State) (t u : Taken) (k st su : Nat) (ft fu : Option Nat) (rt ru : List Byte),
    s.outs = [⟨u, k, .done su fu ru [] false false⟩] → u.q = t.q → t.vis.id < u.vis.id →
    s.complete t st ft rt = ({ s.writeCpl t st ft rt with outs := [] }).writeCpl u su fu ru)

/-- R437 and Tables 12.4, 12.5: when a staged write of a settings field applies, the field reads the new value, every other field
reads as before, and nothing else changes; a new ambient source alone also ends the fallback mark of its Channel (R182). -/
def Obligations.AppliedFieldReadsTheNewValue : Prop :=
  ∀ (s : State) (k : FKey) (v : Nat), k.code < 0x100 → ¬(k.code = 0x52 ∧ k.ord = 12) →
    lookupSet k (s.applyWrite (k, v)).settings = some v ∧
    (∀ k', k' ≠ k → lookupSet k' (s.applyWrite (k, v)).settings = lookupSet k' s.settings) ∧
    (¬(k.code = 0x52 ∧ k.ord = 10) → s.applyWrite (k, v) = { s with settings := (s.applyWrite (k, v)).settings }) ∧
    (k.code = 0x52 → k.ord = 10 → ∃ ch, s.applyWrite (k, v) = { s with settings := (s.applyWrite (k, v)).settings, ch := ch } ∧
      ∀ n : Fin 64, ch[n] = s.ch[n] ∨ (n.val = k.res ∧ ch[n] = { s.ch[n] with ambFb := false }))

/-! ### Commands of the host: what each does when it is accepted (12) -/

/-- The configuration commands (R437): every record is staged for one point, and the command waits for it with RESULT 0xFFFF and
NREC. CH_CFG that rebases a Class A Channel spends its credential's count. -/
def Obligations.ConfigurationCommandsStageTheirRecords : Prop :=
  let res := fun (t : Taken) => le 2 0xFFFF ++ le 2 (cfgNrec t)
  (∀ (q : Fin 32) (d : CmdArgs) (s : State), Accepted (.chCfg q d) s q 0x0103 d →
    let t := taken s q 0x0103 d
    let e := entered s q 0x0103 d
    let c := cfgChCfg t e
    exec (.chCfg q d) s = .next (withStaged (if c.needCred then e.takeCount t else e) t (c.due (cfgRecs t)) (c.writes t) (res t))) ∧
  (∀ (q : Fin 32) (d : CmdArgs),
    Stages (.cvCfg q d) 0x0202 q d (fun _ _ => .tick) (fun t e => (cfgCvCfg t e).writes t) res ∧
    Stages (.auxCfg q d) 0x0203 q d (fun _ _ => .tick) (fun t e => (cfgAuxCfg t e).writes t) res ∧
    Stages (.lawCfg q d) 0x0204 q d (fun _ _ => .tick) (fun t e => (cfgLawCfg t e).writes t) res ∧
    Stages (.capSet q d) 0x0301 q d (fun _ _ => .period) (fun t e => (cfgCapSet t e).writes t) res ∧
    Stages (.huCfg q d) 0x0302 q d (fun _ _ => .tick) (fun t e => (cfgHuCfg t e).writes t) res ∧
    Stages (.stagCfg q d) 0x0306 q d (fun _ _ => .tick) (fun t e => (cfgStagCfg t e).writes t) res ∧
    Stages (.batCfg q d) 0x0401 q d (fun _ _ => .period) (fun t e => (cfgBatCfg t e).writes t) res ∧
    Stages (.hingeCfg q d) 0x0801 q d (fun t _ => hingeDue (cfgRecs t)) (fun t e => (cfgHingeCfg t e).writes t) res ∧
    Stages (.pdCfg q d) 0x0901 q d (fun _ _ => .tick) (fun t e => (cfgPdCfg t e).writes t) res)

/-- Owner, Queue, violation-log and wake commands (R380-R382, R400, R428, R558, Table 12.7): their writes wait for the next tick.
OWNER_RES that moves a Class A Channel spends its credential's count.
Sense commands (R91, R103, R106, R120, R227, Table 12.7): masks, gains, filters and injection definitions apply at the next tick, ACOH at the next arc
block. -/
def Obligations.OwnerQueueAndSenseCommandsStageTheirWrites : Prop :=
  (
    (∀ (q : Fin 32) (d : CmdArgs),
      Stages (.ownerMap q d) 0x0705 q d (fun _ _ => .tick) (fun t _ => [(⟨kOwnerMap, t.p 16 2, 0, 0⟩, t.p 18 1)]) (fun _ => []) ∧
      Stages (.qCfg q d) 0x0707 q d (fun _ _ => .tick)
        (fun t _ => [(⟨kQCfg, t.target, 0, 0⟩, t.p 16 1), (⟨kQCfg, t.target, 1, 0⟩, t.p 17 1), (⟨kQCfg, t.target, 2, 0⟩, t.p 18 1),
          (⟨kQCfg, t.target, 3, 0⟩, t.p 19 1), (⟨kQCfg, t.target, 4, 0⟩, t.p 20 1), (⟨kQCfg, t.target, 5, 0⟩, t.p 22 2)])
        (fun _ => []) ∧
      Stages (.qCtlDisable q d) 0x0708 q (withAction d 0) (fun _ _ => .tick) (fun t _ => [(⟨kQCtl, t.target, 0, 0⟩, 0)]) (fun _ => []) ∧
      Stages (.qCtlEnable q d) 0x0708 q (withAction d 1) (fun _ _ => .tick) (fun t _ => [(⟨kQCtl, t.target, 0, 0⟩, 1)]) (fun _ => []) ∧
      Stages (.qCtlRestart q d) 0x0708 q (withAction d 2) (fun _ _ => .tick) (fun t _ => [(⟨kQCtl, t.target, 0, 0⟩, 2)]) (fun _ => []) ∧
      Stages (.vioClear q d) 0x0709 q d (fun _ _ => .tick) (fun _ _ => [(⟨kVioClear, 0, 0, 0⟩, 0)]) (fun _ => []) ∧
      Stages (.wakeCfg q d) 0x0704 q d (fun _ _ => .tick)
        (fun t _ => [(⟨kWake, 0, 0, 0⟩, t.p 16 2), (⟨kWake, 0, 1, 0⟩, t.p 18 1)]) (fun _ => [])) ∧
    (∀ (q : Fin 32) (d : CmdArgs) (s : State), Accepted (.ownerRes q d) s q 0x0706 d →
      let t := taken s q 0x0706 d
      let e := entered s q 0x0706 d
      let moves := (ownedUnits t.target).any fun r =>
        if h : r < 64 then (e.ch[r]).tmb.classA && (e.ownerOf r).val != t.p 16 1 else false
      exec (.ownerRes q d) s = .next (withStaged (if moves then e.takeCount t else e) t .tick
        [(⟨kOwnerRes, t.target, 0, 0⟩, t.p 16 1)] []))
  ) ∧ (
    ∀ (q : Fin 32) (d : CmdArgs),
      let inputs := fun (t : Taken) => allIn.filter fun i => t.p 16 4 / 2 ^ i.val % 2 == 1
      Stages (.snsMask q d) 0x0501 q d (fun _ _ => .tick)
        (fun t _ => [(⟨kMask, t.target, 0, 0⟩, t.p 16 4), (⟨kMask, t.target, 1, 0⟩, t.p 20 1)] ++
          (List.range 16).map fun k => (⟨kMask, t.target, 2, k⟩, t.p (24 + 2 * k) 2)) (fun _ => []) ∧
      Stages (.snsGain q d) 0x0502 q d (fun _ _ => .tick)
        (fun t _ => (inputs t).map fun i => (⟨kGain, t.target, 0, i.val⟩, t.p 20 1)) (fun _ => []) ∧
      Stages (.snsFilter q d) 0x0503 q d (fun _ _ => .tick)
        (fun t _ => (inputs t).map fun i => (⟨kFilter, t.target, 0, i.val⟩, t.p 20 4)) (fun _ => []) ∧
      Stages (.snsInj q d) 0x0504 q d (fun _ _ => .tick)
        (fun t _ => (⟨kInj, t.target, 0, 0⟩, t.p 16 2) ::
          (List.range 8).map fun k => (⟨kInj, t.target, 1, k⟩, t.p (24 + 4 * k) 4)) (fun _ => []) ∧
      Stages (.snsZone q d) 0x0505 q d (fun _ _ => .block) (fun t _ => [(⟨kAcoh, 0, 0, 0⟩, t.p 16 1)]) (fun _ => [])
  )

/-- Capture commands (R124-R129, Table 12.7): configuration, arming, triggering and release wait for the next tick; CAP_READ
completes with the words of the stream; CAP_NET starts or ends the sending of a stream at once. -/
def Obligations.CaptureCommandsAct : Prop :=
  (∀ (q : Fin 32) (d : CmdArgs),
    Stages (.capCfg q d) 0x0510 q d (fun _ _ => .tick)
      (fun t _ => [(⟨kCap, (streamIx t).val, 0, 0⟩, t.p 16 1), (⟨kCap, (streamIx t).val, 1, 0⟩, t.p 17 1),
        (⟨kCap, (streamIx t).val, 2, 0⟩, t.p 18 1), (⟨kCap, (streamIx t).val, 3, 0⟩, t.p 19 1),
        (⟨kCap, (streamIx t).val, 4, 0⟩, t.p 20 2), (⟨kCap, (streamIx t).val, 5, 0⟩, t.p 22 1),
        (⟨kCap, (streamIx t).val, 6, 0⟩, t.p 23 1), (⟨kCap, (streamIx t).val, 7, 0⟩, t.p 24 4)]) (fun _ => []) ∧
    Stages (.capArm q d) 0x0511 q d (fun _ _ => .tick) (fun t _ => [(⟨kCap, (streamIx t).val, 8, 0⟩, 0)]) (fun _ => []) ∧
    Stages (.capTrig q d) 0x0512 q d (fun _ _ => .tick) (fun t _ => [(⟨kCap, (streamIx t).val, 9, 0⟩, 0)]) (fun _ => []) ∧
    Stages (.capRelease q d) 0x0513 q d (fun _ _ => .tick) (fun t _ => [(⟨kCap, (streamIx t).val, 10, 0⟩, 0)]) (fun _ => [])) ∧
  (∀ (q : Fin 32) (d : CmdArgs) (s : State), Accepted (.capRead q d) s q 0x0514 d →
    let t := taken s q 0x0514 d
    let c := s.cap[streamIx t]
    exec (.capRead q d) s = .next ((entered s q 0x0514 d).complete t 0 (some s.fr.count)
      (le 4 c.words.length ++ le 4 c.trigIdx) (capBytes c.src (c.words.drop (t.p 16 4))))) ∧
  (∀ (q : Fin 32) (d : CmdArgs) (s : State), Accepted (.capNetStart q d) s q 0x0515 (withAction d 1) →
    let t := taken s q 0x0515 (withAction d 1)
    let e := entered s q 0x0515 (withAction d 1)
    exec (.capNetStart q d) s = .next (withStaged
      { e with net := { e.net with capNet := (e.net.capNet.filter fun x => x.1 != streamIx t) ++ [(streamIx t, t.p 18 2, (s.cap[streamIx t]).gone)] } }
      t .tick [] [])) ∧
  (∀ (q : Fin 32) (d : CmdArgs) (s : State), Accepted (.capNetStop q d) s q 0x0515 (withAction d 0) →
    let t := taken s q 0x0515 (withAction d 0)
    let e := entered s q 0x0515 (withAction d 0)
    exec (.capNetStop q d) s = .next (withStaged
      { e with net := { e.net with capNet := e.net.capNet.filter fun x => x.1 != streamIx t } } t .tick [] []))

/-- The reads of Table 12.2 (R418, R438, R439): each completes with 0x00 DONE, its RESULT and its data, and changes nothing else. A
RESULT that R439 leaves open is a free value. -/
def Obligations.ReadsCompleteWithTheirData : Prop :=
  ∀ (q : Fin 32) (d : CmdArgs),
    Reads (.chRead q d) 0x0104 q d false (fun t e => e.chResult (chIx t))
      (fun t e => e.chData1 (chIx t) ++ e.chData2 (chIx t) ++ e.chData3 (chIx t)) ∧
    Reads (.cvRead q d) 0x0205 q d true (fun _ _ => [])
      (fun t e => if t.p 16 1 = 0 then e.cvData else fitTo 128 (e.cv.faultNewest (t.p 16 1)).bytes) ∧
    Reads (.zoneRead q d) 0x0304 q d true (fun _ _ => []) (fun _ e => e.zoneData) ∧
    Reads (.batRead q d) 0x0402 q d true (fun _ _ => [])
      (fun _ e => if e.bat.read = [] then e.batData else e.bat.read) ∧
    Reads (.snsRead q d) 0x0506 q d true (fun _ _ => []) (fun t e => e.snsData (groupIx t)) ∧
    Reads (.idRead q d) 0x070A q d false (fun _ e => le 4 e.hptStat ++ le 4 e.frameReg) (fun _ e => e.idData) ∧
    Reads (.hingeRead q d) 0x0803 q d true (fun _ _ => []) (fun _ e => e.hingeData) ∧
    Reads (.pdRead q d) 0x0903 q d true (fun _ _ => []) (fun t e => e.pdData (pdIx t)) ∧
    Reads (.updRead q d) 0x0A05 q d true (fun _ _ => []) (fun _ e => e.updData) ∧
    Reads (.injRead q d) 0x0B03 q d false (fun _ e => le 1 e.inj.status ++ le 1 0 ++ le 2 e.inj.recs.length)
      (fun t e => ((if e.inj.status = 1 then [] else (e.inj.recs.drop (t.p 16 2)).take (t.p 18 2))).flatten) ∧
    Reads (.ceStat q d) 0x0B04 q d false (fun _ e => le 4 e.ceCyc) (fun _ _ => []) ∧
    (∀ s, Accepted (.iceRead q d) s q 0x0601 d →
      let t := taken s q 0x0601 d
      let e := entered s q 0x0601 d
      exec (.iceRead q d) s = .next (e.complete t 0 (some s.fr.count) (le 4 e.ice.oldest ++ le 4 e.iceSeq)
        ((e.iceRange (t.p 16 4) (t.p 20 2)).flatMap fun k => (e.iceLook k).bytes)))

/-- Channel commands (R146, R147, R162, R404, R405, R544, R640): CH_ON of a Channel that the commands executed before it leave in ON completes with
0x00 DONE, in RAMP with 0x01 ACCEPTED, else it waits for admission behind an entry of the admission queue; CH_OFF waits for its tick, with the off permit of R544 armed and the
count of the credential spent where a driven Class A Channel is switched off; CH_CLEAR of a Channel in OFF, RAMP or ON completes
with no effect, else it waits for the latch of the next Frame. -/
def Obligations.ChannelCommandsAct : Prop :=
  (∀ (q : Fin 32) (d : CmdArgs) (s : State), Accepted (.chOn q d) s q 0x0101 d →
    let t := taken s q 0x0101 d
    let e := entered s q 0x0101 d
    let n := chIx t
    ((∀ o ∈ s.outs, o.wait ≠ .chOff n ∧ o.wait ≠ .clearCheck n) → s.stAfter n = (s.ch[n]).st) ∧
    (∀ o rest, s.outs = rest ++ [o] → o.wait = .chOff n → (s.ch[n]).st = .ramp ∨ (s.ch[n]).st = .on ∨ (s.ch[n]).st = .tripped →
      s.stAfter n = .off) ∧
    (s.stAfter n = .on → exec (.chOn q d) s = .next (e.complete t 0 none)) ∧
    (s.stAfter n = .ramp → exec (.chOn q d) s = .next (e.complete t 1 none (evt := true))) ∧
    (s.stAfter n ≠ .on → s.stAfter n ≠ .ramp → ∃ u, exec (.chOn q d) s = .next u ∧ u.waiting n = true ∧
      (∃ o ∈ u.outs, o.cmd = t ∧ o.wait = .admission n) ∧ (u.ch[n]).st = (s.ch[n]).st)) ∧
  (∀ (q : Fin 32) (d : CmdArgs) (s : State), Accepted (.chOff q d) s q 0x0102 d →
    let t := taken s q 0x0102 d
    let e := entered s q 0x0102 d
    let n := chIx t
    (((s.ch[n]).tmb.classA && driven (s.ch[n]).st) = false → exec (.chOff q d) s = .next (withWait e t (.chOff n))) ∧
    (((s.ch[n]).tmb.classA && driven (s.ch[n]).st) = true →
      ∃ u, exec (.chOff q d) s = .next u ∧ u.ccount = (e.takeCount t).ccount ∧ (u.ch[n]).tmb.permit = some (s.fr.count + 3) ∧
        (u.ch[n]).st = (s.ch[n]).st ∧ ∃ o ∈ u.outs, o.cmd = t ∧ o.wait = .chOff n)) ∧
  (∀ (q : Fin 32) (d : CmdArgs) (s : State), Accepted (.chClear q d) s q 0x0105 d →
    let t := taken s q 0x0105 d
    let e := entered s q 0x0105 d
    let n := chIx t
    ((s.ch[n]).st = .off ∨ (s.ch[n]).st = .ramp ∨ (s.ch[n]).st = .on → exec (.chClear q d) s = .next (e.complete t 0 none)) ∧
    ((s.ch[n]).st ≠ .off → (s.ch[n]).st ≠ .ramp → (s.ch[n]).st ≠ .on →
      exec (.chClear q d) s = .next (withWait e t (.clearCheck n))))

/-- Deferred commands of the converter, the zone and the device (R84, R283, R336, R347, Table 2.11): CV_SET and HU_TEST start
at the next tick; SHED_ORDER waits for the Period boundary; DORMANT begins its first step and closes admission; RESET is due
251 ticks on: the tick at which it applies and 250 Frames after it.
Commands of the Hinge pair and of the PD ports (R511, R518, R589, Table 12.7): HANDOVER waits for the swap; a resync, a
clearing of the counters and each of the five actions of PD_CTL wait for the next tick. -/
def Obligations.DeferredCommandsWait : Prop :=
  (
    (∀ (q : Fin 32) (d : CmdArgs) (s : State), Accepted (.cvSet q d) s q 0x0201 d →
      exec (.cvSet q d) s = .next (withWait (entered s q 0x0201 d) (taken s q 0x0201 d) .start)) ∧
    (∀ (q : Fin 32) (d : CmdArgs) (s : State), Accepted (.huTest q d) s q 0x0305 d →
      exec (.huTest q d) s = .next (withWait (entered s q 0x0305 d) (taken s q 0x0305 d) .start)) ∧
    (∀ (q : Fin 32) (d : CmdArgs),
      Stages (.shedOrder q d) 0x0303 q d (fun _ _ => .period)
        (fun t _ => (parseWords (t.p 16 2) (if t.hasArea then t.body else d.param.drop 8)).zipIdx.map fun (w, i) =>
          ((⟨kOrder, rZone, 0, i⟩ : FKey), w)) (fun _ => [])) ∧
    (∀ (q : Fin 32) (d : CmdArgs) (s : State), Accepted (.dormant q d) s q 0x0703 d →
      let u := withWait (entered s q 0x0703 d) (taken s q 0x0703 d) .start
      exec (.dormant q d) s = .next { u with pw := { u.pw with dormStep := 1, admOpen := false } }) ∧
    (∀ (q : Fin 32) (d : CmdArgs) (s : State), Accepted (.reset q d) s q 0x0702 d →
      let u := withWait (entered s q 0x0702 d) (taken s q 0x0702 d) (.tick 0 [])
      exec (.reset q d) s = .next { u with pw := { u.pw with resetDue := some (s.fr.count + 251) } })
  ) ∧ (
    (∀ (q : Fin 32) (d : CmdArgs) (s : State), Accepted (.hingeHandover q d) s q 0x0802 (withAction d 0) →
      exec (.hingeHandover q d) s =
        .next (withWait (entered s q 0x0802 (withAction d 0)) (taken s q 0x0802 (withAction d 0)) .handover)) ∧
    (∀ (q : Fin 32) (d : CmdArgs),
      Stages (.hingeResync q d) 0x0802 q (withAction d 1) (fun _ _ => .tick) (fun _ _ => [(⟨kHinge, rDevice, 1, 0⟩, 0)]) (fun _ => []) ∧
      Stages (.hingeCounterClear q d) 0x0802 q (withAction d 2) (fun _ _ => .tick) (fun _ _ => [(⟨kHinge, rDevice, 2, 0⟩, 0)])
        (fun _ => []))
  ) ∧ (
    ∀ (q : Fin 32) (d : CmdArgs),
      let w := fun (a : Nat) (t : Taken) (_ : State) => [((⟨kPd, (pdIx t).val, a, 0⟩ : FKey), 0)]
      Stages (.pdReadvertise q d) 0x0902 q (withAction d 0) (fun _ _ => .tick) (w 0) (fun _ => []) ∧
      Stages (.pdHardReset q d) 0x0902 q (withAction d 1) (fun _ _ => .tick) (w 1) (fun _ => []) ∧
      Stages (.pdMoistureTestNow q d) 0x0902 q (withAction d 2) (fun _ _ => .tick) (w 2) (fun _ => []) ∧
      Stages (.pdClearFault q d) 0x0902 q (withAction d 3) (fun _ _ => .tick) (w 3) (fun _ => []) ∧
      Stages (.pdClearCorrosion q d) 0x0902 q (withAction d 4) (fun _ _ => .tick) (w 4) (fun _ => [])
  )

/-- FENCE (R415, R416): with no scoped Queue in RUN it completes at once; else it waits for the commands of its scoped Queues that
became visible no later than itself.
FENCE_COMPLETE (R416): a FENCE whose earlier commands are all done completes with 0x00 DONE and the Frame in which the last of them was, which is not
before that of its execution; its Queue remembers that Frame for R418, and the commands behind it run. -/
def Obligations.FenceWaitsAndCompletes : Prop :=
  (
    ∀ (q : Fin 32) (d : CmdArgs) (s : State), Accepted (.fence q d) s q 0x0701 d →
      let t := taken s q 0x0701 d
      let e := entered s q 0x0701 d
      let inScope := fun (r : Fin 32) =>
        t.p 16 4 / 2 ^ r.val % 2 = 1 ∧ r ≠ q ∧ (s.qs[r]).st = .run
      ((∀ r, ¬ inScope r) → exec (.fence q d) s = .next (e.complete t 0 none)) ∧
      ((∃ r, inScope r) → ∃ es, exec (.fence q d) s = .next (withWait e t (.fence es s.fr.count)) ∧
        ∀ r i, (r, i) ∈ es ↔ inScope r ∧ ∃ f, (i, f) ∈ e.openIds r ∧ f ≤ s.fr.count)
  ) ∧ (
    ∀ (s : State) (q : Fin 32), (s.fenceReady q = none → exec (.fenceComplete q) s = .next s) ∧
      (∀ o, s.fenceReady q = some o →
        let f := s.fenceFrame o
        exec (.fenceComplete q) s = .next (((((s.dropOuts (· == o)).fenceForget o).complete o.cmd 0 (some f)).updQ q
          fun k => { (if s.wideFence o.cmd then k.fenceOver else k) with fenceAt := some f }).runWaiting q) ∧
        ∀ es since, o.wait = .fence es since → since ≤ f ∧ (∀ e ∈ es, ∀ x ∈ (s.qs[e.1]).doneAt, x.1 = e.2 → x.2 ≤ f) ∧
          (f = since ∨ ∃ e ∈ es, (e.2, f) ∈ (s.qs[e.1]).doneAt))
  )

/-- Update commands (R602-R605): UPD_BEGIN puts the slot into RECEIVING with an empty content; UPD_DATA adds its bytes to the
receiving slot and starts the flash write; UPD_END starts the verification and completes with 0x01 ACCEPTED; UPD_ACTIVATE puts a
VALID slot into PENDING, with a reset due where its reset bit is set, and does nothing for the booted slot.
Update events (R600, R603, R604): the end of a flash write frees the flash; the end of a verification puts the slot into VALID or, with its reason, FAILED, and
posts CMD_DONE; after 1,000 Periods of RUN a trial is confirmed: its slot is ACTIVE, the other one VALID where it was ACTIVE, and SVNC and its
shadow are not below the image's SVN; while a power-fail warning stands the last two wait (R76). -/
def Obligations.UpdateCommandsAndEventsAct : Prop :=
  (
    (∀ (q : Fin 32) (d : CmdArgs) (s : State), Accepted (.updBegin q d) s q 0x0A01 d →
      let t := taken s q 0x0A01 d
      let b := t.p 16 1 == 1
      ∃ u, exec (.updBegin q d) s = .next u ∧ (u.upd.slot b).st = .receiving ∧ (u.upd.slot b).image = [] ∧
        u.upd.size = t.p 20 4 ∧ u.upd.slot (!b) = s.upd.slot (!b) ∧
        (s.upd.recovery = false → ∃ o ∈ u.outs, o.cmd = t ∧ o.wait = .tick 0 [])) ∧
    (∀ (q : Fin 32) (d : CmdArgs) (s : State), Accepted (.updData q d) s q 0x0A02 d →
      let t := taken s q 0x0A02 d
      ∀ b, s.receiver = some b →
      let img := (s.upd.slot b).image ++ t.body
      let reason := if imgTotal img = s.upd.size then s.hdrReason img else 1
      ((1024 ≤ (s.upd.slot b).image.length ∨ img.length < 1024 ∨ reason = 0) →
        ∃ u, exec (.updData q d) s = .next u ∧ (u.upd.slot b).image = img ∧ (u.upd.slot b).st = (s.upd.slot b).st ∧
          u.upd.flashBusy = true ∧ (s.upd.recovery = false → ∃ o ∈ u.outs, o.cmd = t ∧ o.wait = .tick 0 [])) ∧
      ((s.upd.slot b).image.length < 1024 → 1024 ≤ img.length → reason ≠ 0 →
        ∃ u, exec (.updData q d) s = .next u ∧ (u.upd.slot b).st = .failed ∧ (u.upd.slot b).reason = reason)) ∧
    (∀ (q : Fin 32) (d : CmdArgs) (s : State), Accepted (.updEnd q d) s q 0x0A03 d →
      let t := taken s q 0x0A03 d
      ∀ b, s.receiver = some b → ∃ u, exec (.updEnd q d) s = .next u ∧ u.upd.verifying = some (b, t) ∧
        u.qs = ((entered s q 0x0A03 d).complete t 1 none (evt := true)).qs ∧ u.upd.slot b = s.upd.slot b) ∧
    (∀ (q : Fin 32) (d : CmdArgs) (s : State), Accepted (.updActivate q d) s q 0x0A04 d →
      let t := taken s q 0x0A04 d
      let b := t.p 16 1 == 1
      (s.upd.recovery = false → b = s.upd.booted → exec (.updActivate q d) s = .next ((entered s q 0x0A04 d).complete t 0 none)) ∧
      (s.upd.recovery = true ∨ b ≠ s.upd.booted → ∃ u, exec (.updActivate q d) s = .next u ∧ (u.upd.slot b).st = .pending ∧
        u.upd.slot (!b) = s.upd.slot (!b) ∧ u.pw.resetDue = (if t.p 17 1 = 1 then some (s.fr.count + 251) else s.pw.resetDue)))
  ) ∧ (
    (∀ s : State, exec .flashWriteDone s = .next { s with upd := { s.upd with flashBusy := false } }) ∧
    (∀ (s : State) (b : Bool) (t : Taken) (e : Bool), s.upd.verifying = some (b, t) → ∃ u, exec (.updVerifyDone e) s = .next u ∧
      u.upd.verifying = none ∧ u.upd.slot (!b) = s.upd.slot (!b) ∧ (u.upd.slot b).image = (s.upd.slot b).image ∧
      (e = true → (u.upd.slot b).st = .failed ∧ (u.upd.slot b).reason = 8) ∧
      (e = false → (s.upd.slot b).image.length = imgTotal (s.upd.slot b).image → s.imgReason (s.upd.slot b).image = 0 →
        (u.upd.slot b).st = .valid) ∧
      (e = false → (s.upd.slot b).image.length ≠ imgTotal (s.upd.slot b).image →
        (u.upd.slot b).st = .failed ∧ (u.upd.slot b).reason = 1) ∧
      (e = false → (s.upd.slot b).image.length = imgTotal (s.upd.slot b).image → s.imgReason (s.upd.slot b).image ≠ 0 →
        (u.upd.slot b).st = .failed ∧ (u.upd.slot b).reason = s.imgReason (s.upd.slot b).image) ∧
      ∃ v : State, u = v.cmdDone t (if (u.upd.slot b).st = .valid then 0 else 0x22)
        (if (u.upd.slot b).st = .valid then [] else le 1 (u.upd.slot b).reason)) ∧
    (∀ (s : State) (e : Bool), s.upd.verifying = none → exec (.updVerifyDone e) s = .next s) ∧
    (∀ s : State, s.live = true → s.pw.mode = .run → (s.upd.slot s.upd.booted).st = .trial → 1000 ≤ s.upd.trialPeriods → ∃ u,
      exec .trialConfirm s = .next u ∧ (u.upd.slot s.upd.booted).st = .active ∧
      ((s.upd.slot !s.upd.booted).st = .active → (u.upd.slot !s.upd.booted).st = .valid) ∧
      ((s.upd.slot !s.upd.booted).st ≠ .active → (u.upd.slot !s.upd.booted).st = (s.upd.slot !s.upd.booted).st) ∧
      (s.pw.pfw = false → imgSvn (s.upd.slot s.upd.booted).image ≤ u.otp.svnc ∧ s.otp.svnc ≤ u.otp.svnc ∧
        imgSvn (s.upd.slot s.upd.booted).image ≤ u.upd.shadow) ∧
      (s.pw.pfw = true → u.otp = s.otp ∧ u.upd.shadow = s.upd.shadow ∧ u.upd.confirmLate = true))
  )

/-- Test injection and Icecore commands (R317, R319, R324, R437, R445, R530, R534): INJ_START arms an injection with the values of its records, and the
values in force for the fields that none names, and completes with 0x01 ACCEPTED and the RESULT of R437; its start is the Frame of START, or the first
Frame of the next Period. INJ_STOP ends the injection of its target at the next tick and leaves any other alone. ICE_FLUSH and ICE_CLEAR complete with
0x01 ACCEPTED first. A flush begins; a clear begins where its token verifies and names the newest record, with the
buffer empty and the records up to that one bounded. -/
def Obligations.InjectionAndRecordCommandsAct : Prop :=
  (∀ (q : Fin 32) (d : CmdArgs) (s : State), Accepted (.injStart q d) s q 0x0B01 d →
    let t := taken s q 0x0B01 d
    let e := entered s q 0x0B01 d
    ∃ u, exec (.injStart q d) s = .next u ∧
      u = ({ e with inj := u.inj } : State).complete t 1 none (le 2 0xFFFF ++ le 2 (cfgNrec t)) (evt := true) ∧
      u.inj.status = 1 ∧ u.inj.armed = true ∧ u.inj.ending = none ∧ u.inj.recs = [] ∧ u.inj.res = t.target ∧ u.inj.owner = t.owner ∧
      (∀ i : Fin 12, (∀ r, ((cfgRecs t).find? fun r => r.fld == (0x87, i.val)) = some r → u.inj.f[i] = r.val) ∧
        (((cfgRecs t).find? fun r => r.fld == (0x87, i.val)) = none → u.inj.f[i] = s.inj.f[i])) ∧
      (u.inj.f[(11 : Fin 12)] = 0 → u.inj.startAt = (s.fr.count / 250 + 1) * 250) ∧
      (u.inj.f[(11 : Fin 12)] ≠ 0 →
        u.inj.startAt = s.fr.count + (u.inj.f[(11 : Fin 12)] + 2 ^ 32 - s.fr.count % 2 ^ 32) % 2 ^ 32)) ∧
  (∀ (q : Fin 32) (d : CmdArgs) (s : State), Accepted (.injStop q d) s q 0x0B02 d →
    let t := taken s q 0x0B02 d
    let e := entered s q 0x0B02 d
    (s.inj.status = 1 → s.inj.ending = none → s.inj.res = t.target →
      exec (.injStop q d) s = .next (withStaged { e with inj := { e.inj with ending := some true } } t .tick [] [])) ∧
    (s.inj.status ≠ 1 ∨ s.inj.ending ≠ none ∨ s.inj.res ≠ t.target →
      exec (.injStop q d) s = .next (withStaged e t .tick [] []))) ∧
  (∀ (q : Fin 32) (d : CmdArgs) (s : State), Accepted (.iceFlush q d) s q 0x0602 d →
    let t := taken s q 0x0602 d
    let u := (entered s q 0x0602 d).complete t 1 none (evt := true)
    ∃ v, exec (.iceFlush q d) s = .next v ∧ v = { u with ice := v.ice } ∧ v.ice.flushCmds = s.ice.flushCmds ++ [t] ∧
      v.ice.flushing = true) ∧
  (∀ (q : Fin 32) (d : CmdArgs) (s : State), Accepted (.iceClear q d) s q 0x0603 d →
    let t := taken s q 0x0603 d
    let u := (entered s q 0x0603 d).complete t 1 none (evt := true)
    (s.tokenOk t.body = false → exec (.iceClear q d) s = .next (u.cmdDone t 0x10)) ∧
    (s.tokenOk t.body = true → getLe t.body 4 4 ≠ s.iceSeq →
      exec (.iceClear q d) s = .next (u.cmdDone t 0x12 (le 4 s.iceSeq))) ∧
    (s.tokenOk t.body = true → getLe t.body 4 4 = s.iceSeq → ∃ v, exec (.iceClear q d) s = .next v ∧ v = { u with ice := v.ice } ∧
      v.ice.clearing = some (t, u.iceSeq) ∧ v.ice.clearedHead = some u.iceSeq ∧ v.ice.buf = [] ∧ v.ice.flushing = false ∧ v.ch = s.ch))

/-! ### Power, reset, clocks and start (02) -/

/-- Supply and reset (R58, R59, R79-R81, Table 2.6): POWER_UP of an unpowered block begins a start at step 2 with Keyring counting or,
under KSTART software, off; a keep-alive POR keeps only what Firn, OTP and settings hold and turns every Channel OFF; the logic-die POR
switches the logic die off; its release begins step 3, in reset where RESET_N is low or Keyring is in SAFE. -/
def Obligations.SupplyCommandsActOnTheStart : Prop :=
  (∀ s : State, s.pw.mode = .off → s.pw.resetNLow = false → ∃ t, exec .powerUp s = .next t ∧ t.pw.mode = .start ∧ t.pw.step = 2 ∧
    t.pw.logic = .off ∧ t.krg.st = (if s.otp.kstart = some true then .off else .boot) ∧ t.ch = s.ch ∧ t.settings = s.settings) ∧
  (∀ s : State, ∃ t, exec .keepAlivePor s = .next t ∧ t.pw.mode = .off ∧ t.pw.logic = .off ∧ (∀ n : Fin 64, (t.ch[n]).st = .off) ∧
    t.settings = s.settings ∧ t.otp = s.otp ∧ t.owners = s.owners ∧ t.resOwner = s.resOwner ∧ t.krg.st = .off ∧ t.adm = [] ∧
    t.outs = [] ∧ t.qmem = [] ∧ t.hpt = 0 ∧ t.ice.ring = s.ice.ring) ∧
  (∀ s : State, s.pw.mode = .start ∨ s.pw.mode = .run → s.pw.logic ≠ .off → ∃ t, exec .logicPor s = .next t ∧
    t.pw.mode = .start ∧ t.pw.logic = .off ∧ t.pw.step = 2 ∧ t.pw.cause = 1 ∧ t.outs = [] ∧ t.adm = []) ∧
  (∀ s : State, s.pw.mode = .start → s.pw.logic = .off → s.pw.step = 2 → ∃ t, exec .logicPorRelease s = .next t ∧
    t.pw.step = 3 ∧ t.pw.logic = (if s.pw.resetNLow = true ∨ s.krg.st = .safe then .inReset else .running) ∧ t.ch = s.ch)

/-- The reset sources (Table 2.9, R80, R556): RESET_N low holds the logic die in reset until it is released; a lockstep mismatch, a loss of
PLL lock and a commanded reset restart the logic die at step 3, each with its cause. -/
def Obligations.ResetSourcesRestartTheLogicDie : Prop :=
  (∀ s : State, s.pw.mode = .start ∨ s.pw.mode = .run → s.pw.logic ≠ .off → s.krg.st ≠ .safe → ∃ t, exec .resetN s = .next t ∧
    t.pw.mode = .start ∧ t.pw.logic = .inReset ∧ t.pw.step = 3 ∧ t.pw.cause = 2 ∧ t.pw.resetNLow = true) ∧
  (∀ s : State, s.krg.st = .safe → s.pw.logic = .inReset → ∃ t, exec .resetN s = .next t ∧ t.krg.st = .boot ∧ t.pw.resetNLow = true) ∧
  (∀ s : State, s.pw.mode = .start → s.pw.logic = .inReset → s.krg.st ≠ .safe →
    exec .resetNRelease s = .next { s with tw := default, pw := { s.pw with resetNLow := false, logic := .running } }) ∧
  (∀ s : State, s.pw.mode = .start ∨ s.pw.mode = .run → s.pw.logic = .running →
    (∃ t, exec .lockstepMismatch s = .next t ∧ t.pw.mode = .start ∧ t.pw.logic = .running ∧ t.pw.step = 3 ∧ t.pw.cause = 4) ∧
    (4 ≤ s.pw.step → s.clk.relocking = false →
      ∃ t, exec .pllLockLoss s = .next t ∧ t.pw.mode = .start ∧ t.pw.logic = .running ∧ t.pw.step = 3 ∧ t.pw.cause = 7) ∧
    (∀ f, s.pw.resetDue = some f → f ≤ s.fr.count →
      ∃ t, exec .commandedReset s = .next t ∧ t.pw.mode = .start ∧ t.pw.logic = .running ∧ t.pw.step = 3 ∧ t.pw.cause = 8))

/-- R81, Table 2.10, R642: outside a Hinge pair, a logic-die reset moves each Channel as the table says, and empties the admission
queue, the restore lists and every Queue. A trip that the drive die has latched and no S1 has taken makes its Channel TRIPPED. -/
def Obligations.LogicResetMovesEachChannelByTable210 : Prop :=
  ∀ (s : State) (n : Fin 64), s.pw.mode = .start ∨ s.pw.mode = .run → s.pw.logic = .running → s.hinge.hen = false →
    (∃ t, exec .lockstepMismatch s = .next t ∧ ((s.ch[n]).cmpTrip = true → (t.ch[n]).st = .tripped)) ∧
    ((∀ m : Fin 64, (s.ch[m]).cmpTrip = true → (s.ch[m]).st = .tripped) → ∃ t, exec .lockstepMismatch s = .next t ∧
      ((s.ch[n]).st = .on → (s.holds n = true → (t.ch[n]).st = .held) ∧
        (s.holds n = false → (t.ch[n]).st = .off ∧ (t.ch[n]).gate = .low ∧
          ((t.ch[n]).sink = sinkOf (s.lf n Fld.DISCH) ∨ (s.lf n Fld.DISCH = 2 ∧ (t.ch[n]).sink = .active)))) ∧
      ((s.ch[n]).st = .ramp → (t.ch[n]).st = .off ∧ (t.ch[n]).gate = .low) ∧
      ((s.ch[n]).st = .tripped ∨ (s.ch[n]).st = .lockout ∨ (s.ch[n]).st = .fetFault ∨ (s.ch[n]).st = .off →
        (t.ch[n]).st = (s.ch[n]).st ∧ (t.ch[n]).gate = .low) ∧
      ((s.ch[n]).st = .held → (t.ch[n]).st = .held ∧ (t.ch[n]).gate = (s.ch[n]).gate) ∧
      t.adm = [] ∧ t.zone.restore = [] ∧ t.th.restore = [] ∧ t.outs = [] ∧ (∀ q : Fin 32, (t.qs[q]).vis = []))

/-- R569: SHUTDOWN is left only by a keep-alive POR; RESET_N, every wake source, HINGE_GNT and Keyring faults have no effect there
but on the remembered level of the RESET_N pin. PowerInv rules out states that no run reaches (EveryStepKeepsThePowerInvariant). -/
def Obligations.ShutdownIsLeftOnlyByAKeepAlivePor : Prop :=
  ∀ s : State, s.pw.mode = .shutdown → PowerInv s →
    (∀ (c : Instr) (t : State), c ≠ .keepAlivePor → exec c s = .next t → t.pw.mode = .shutdown) ∧
    exec .resetN s = .next { s with pw := { s.pw with resetNLow := true } } ∧
    (∀ w, exec (.wake w) s = .next s) ∧ exec .keyringWakeInterval s = .next s ∧ (∀ l, exec (.hingeGnt l) s = .next s) ∧
    (∀ n, exec (.keyringSeal n) s = .next s) ∧ exec .expire s = .next s ∧
    ∃ t, exec .keepAlivePor s = .next t ∧ t.pw.mode = .off

/-- Clock monitors (R54-R57, R60, Table 2.4): a crystal fault while Frames run moves the references to the RC oscillator, freezes
the actuators, sets HPT_FAULT bit 2 and takes both links down; a relock ends the relock; an RC fault marks the RC oscillator failed; a
crystal that has not started by the end of step 4 leaves the block on the RC oscillator, a spare whose record is kept for the start (R39). Before step 6 a crystal fault also moves the
references to the RC oscillator and, once the PLLs have locked, relocks them. -/
def Obligations.ClockMonitorsAct : Prop :=
  (∀ s : State, s.live = true → s.clk.rc = false → ∃ t, exec .crystalFault s = .next t ∧ t.clk.rc = true ∧ t.clk.relocking = true ∧
    t.fr.freeze = true ∧ t.fr.count = s.fr.count ∧ t.hpt.getLsbD 2 = true ∧ t.net.up1 = false ∧ t.net.upS = false ∧
    (∀ n : Fin 64, (t.ch[n]).st = (s.ch[n]).st)) ∧
  (∀ s : State, s.pw.logic = .running → s.live = false → s.clk.rc = false → ∃ t, exec .crystalFault s = .next t ∧
    t.clk = { s.clk with rc := true, relocking := decide (4 ≤ s.pw.step) } ∧ t.hpt.getLsbD 2 = true ∧ t.ch = s.ch ∧ t.fr = s.fr) ∧
  (∀ s : State, s.clk.relocking = true → s.clk.rcFailed = false →
    exec .pllRelock s = .next { s with clk := { s.clk with relocking := false } }) ∧
  (∀ s : State, s.pw.logic = .running → s.clk.rcFailed = false → ∃ t, exec .rcOscillatorFault s = .next t ∧
    t.clk = { s.clk with rcFailed := true } ∧ t.ch = s.ch ∧ t.pw = s.pw) ∧
  (∀ s : State, s.pw.logic = .running → s.pw.step = 3 →
    ∃ t, exec .crystalStartTimeout s = .next t ∧ t.clk = { s.clk with rc := true } ∧ t.ch = s.ch ∧ t.pw = s.pw ∧
      ((s.ice.kept.filter fun e => keptLimited e.1).length < 16 →
        t.ice.kept = s.ice.kept ++ [(0x0C01, rDevice, [4, 0, 0])] ∧ t.ice.keptLost = s.ice.keptLost))

/-- The start from PLL lock to RUN (R59, R62-R64, R597, Table 2.6): the slots' states are those of the update-state record; the first slot that
the boot ROM tries and whose image verifies is booted and step 5 follows; with no slot that verifies, the block enters RECOVERY; the
release of the CE starts the Frames at count 0, which are at step 11 once the Groups have started, at Frame count 50, with the pump of Bank 0 starting; a
pump in regulation within 125 Frames moves the start to the next Bank and, for the last Bank, to step 16 or 17; a pump that is late, or fails in service, is
replaced by the spare of its side, and with no spare its Bank is without a pump and FAULT_N is set. -/
def Obligations.StartStepsFollowInOrder : Prop :=
  (∀ s : State, s.pw.mode = .start → s.pw.logic = .running → s.pw.step = 3 →
    let s1 := ({ s with
      upd := s.upd.loadRec
      krg := { s.krg with clkMain := s.otp.kclk == some true && !s.krg.clkFail } } : State).slotsAtBoot
    let tried := s1.bootTry s1.upd.tryOrder
    (∀ b, tried.1 = some b → ∃ t, exec .pllLock s = .next t ∧ t.upd.recovery = false ∧ t.upd.booted = b ∧ t.pw.step = 5 ∧
      t.pw.starts = s.pw.starts + 1 ∧ t.ch = s.ch) ∧
    (tried.1 = none → exec .pllLock s = .next tried.2.enterRecovery ∧ tried.2.enterRecovery.upd.recovery = true ∧
      tried.2.enterRecovery.pw.step = 4 ∧ (tried.2.enterRecovery.qs[(4 : Fin 32)]).st = .run)) ∧
  (∀ (s : State) (b : Bool) (r : List Bool), ((s.upd.slot b).st = .active ∨ (s.upd.slot b).st = .valid) →
    (s.imgReason (s.upd.slot b).image = 0 → (s.bootTry (b :: r)).1 = some b) ∧
    (s.imgReason (s.upd.slot b).image ≠ 0 → (s.bootTry [b]).1 = none ∧ ((s.bootTry [b]).2.upd.slot b).st = .failed)) ∧
  (∀ (s : State) (off : Nat), s.pw.mode = .start → s.pw.logic = .running → s.pw.step = 5 → s.upd.recovery = false →
    s.clk.relocking = false →
    exec (.ceRelease off) s = .next (s.startBase off).startRecords ∧
    (s.startBase off).fr.count = 0 ∧ (s.startBase off).fr.running = true ∧ (s.startBase off).fr.drive = s.fr.drive + off ∧
    (s.startBase off).pw.step = 7 ∧ (∀ b : Fin 4, (s.startBase off).pump.bank[b] = .stopped)) ∧
  (∀ s : State, s.pw.mode = .start → 7 ≤ s.pw.step → s.pw.step ≤ 10 → 50 ≤ s.fr.count →
    s.groupSteps.pw.step = 11 ∧ s.groupSteps.pump.bank[(0 : Fin 4)] = .starting ∧ s.groupSteps.pump.startAt = s.fr.count) ∧
  (∀ (s : State) (b : Fin 4) (v : Nat), s.pumpWait b = true → s.fr.count ≤ s.pump.startAt + 125 → b.val < 3 →
    s.pump.domain48[b] = true ∨ v ≤ 2000 →
    ∃ t, exec (.pumpRegulated b v) s = .next t ∧ t.pw.step = 12 + b.val ∧
      (∀ h : b.val + 1 < 4, t.pump.bank[b.val + 1] = .starting) ∧ t.pump.startAt = s.fr.count ∧ t.ch = s.ch) ∧
  (∀ (s : State) (b : Fin 4) (v : Nat), s.pumpWait b = true → s.fr.count ≤ s.pump.startAt + 125 → b.val < 3 →
    s.pump.domain48[b] = false → 2000 < v →
    ∃ t, exec (.pumpRegulated b v) s = .next t ∧ t.pw.step = 12 + b.val ∧ t.pump.mismatch[b] = true ∧ t.hpt.getLsbD 3 = true) ∧
  (∀ (s : State) (v : Nat), s.pumpWait 3 = true → s.fr.count ≤ s.pump.startAt + 125 →
    ∃ t, exec (.pumpRegulated 3 v) s = .next t ∧ (t.pw.step = 16 ∨ t.pw.step = 17)) ∧
  (∀ (s : State) (b : Fin 4) (v : Nat), s.pumpWait b = true → s.pump.startAt + 125 ≤ s.fr.count → s.pump.spareFor[sideOf b] = none →
    ∃ t, exec (.pumpStartTimeout ⟨b, v⟩) s = .next t ∧ t.pump.bank[b] = .bad ∧ t.pump.spare[sideOf b] = .starting ∧
      t.pump.spareFor[sideOf b] = some b ∧ t.pump.startAt = s.fr.count ∧ t.pw = s.pw) ∧
  (∀ (s : State) (b : Fin 4) (v : Nat), s.pumpWait b = true → s.pump.startAt + 125 ≤ s.fr.count →
    (s.pump.spareFor[sideOf b]).isSome = true → b.val < 3 →
    ∃ t, exec (.pumpStartTimeout ⟨b, v⟩) s = .next t ∧ t.pump.bank[b] = .bad ∧ t.hpt.getLsbD 3 = true ∧ t.pw.step = 12 + b.val) ∧
  (∀ (s : State) (v : Nat), s.pumpWait 3 = true → s.pump.startAt + 125 ≤ s.fr.count → (s.pump.spareFor[sideOf 3]).isSome = true →
    ∃ t, exec (.pumpStartTimeout ⟨3, v⟩) s = .next t ∧ t.pump.bank[(3 : Fin 4)] = .bad ∧ (t.pw.step = 16 ∨ t.pw.step = 17)) ∧
  (∀ (s : State) (b : Fin 4), s.live = true → s.pump.bank[b] = .good → s.pump.spareFor[sideOf b] = none →
    ∃ t, exec (.pumpFail b) s = .next t ∧ t.pump.bank[b] = .bad ∧ t.pump.spare[sideOf b] = .good ∧
      t.pump.spareFor[sideOf b] = some b ∧ t.hpt = s.hpt) ∧
  (∀ (s : State) (b : Fin 4), s.live = true → s.pump.bank[b] = .good → (s.pump.spareFor[sideOf b]).isSome = true →
    ∃ t, exec (.pumpFail b) s = .next t ∧ t.pump.bank[b] = .bad ∧ t.pump.failNow[b] = true ∧ t.hpt.getLsbD 3 = true)

/-- Power-fail warning (R75, R76, R78) and wake sources (R85, R87, Table 2.12): a warning sets PFW and starts the flush, after which the
battery values are written; its clearing ends it; in Dormant, an unmasked wake source and the wake interval start the block from step 2 with their source; a masked one does
nothing, but that the address of TW0 is NACKed and counted while the block does not serve it (R480).
Dormant entry (R84, Table 2.11): each step leads to the next, step 3 only once the converter is IDLE and no freeze holds the gates (R45); at the end the block is in
Dormant with its logic die off, its Channels in the states that the entry left them in, every discharge sink released (R164), and Keyring
counting the wake interval. -/
def Obligations.PowerFailWakeAndDormantEntryAct : Prop :=
  (
    (∀ s : State, s.live = true → s.pw.mode ≠ .off → s.pw.pfw = false → ∃ t, exec .powerFailWarning s = .next t ∧ t.pw.pfw = true ∧
      t.pw.batDue = true ∧ t.ice.flushing = true ∧ t.ch = s.ch ∧ t.cv = s.cv) ∧
    (∀ s : State, s.pw.pfw = true → ∃ t, exec .powerFailClear s = .next t ∧ t.pw = { s.pw with pfw := false } ∧
      (∀ n : Fin 64, ∃ k, t.ch[n] = { s.ch[n] with creep := k }) ∧ (s.live = true → t.ccountFirn = s.ccount)) ∧
    (∀ (s : State) (w : WakeSrc), let b := match w with | .wakeIn => 0 | .t1s => 1 | .tw0 => 2
      (w ≠ .tw0 → s.krg.wakeMask.getLsbD b = true → exec (.wake w) s = .next s) ∧
      (w = .tw0 → s.otp.tw0Addr = none ∨ (s.live = true ∧ s.pw.dormStep = 0) → exec (.wake w) s = .next s) ∧
      (w = .tw0 → s.otp.tw0Addr.isSome = true → s.live = false → s.krg.wakeMask.getLsbD b = true → ∃ t, exec (.wake w) s = .next t ∧
        t.pw = s.pw ∧ t.ch = s.ch ∧ t.tw.c0.nackWake = inc16 s.tw.c0.nackWake) ∧
      (s.krg.wakeMask.getLsbD b = false → s.pw.mode = .dormant → (w = .tw0 → s.otp.tw0Addr.isSome = true ∧ s.live = false) → ∃ t, exec (.wake w) s = .next t ∧ t.pw.mode = .start ∧ t.pw.step = 2 ∧
        t.pw.logic = .off ∧ t.pw.wakeSrc = 2 + b ∧ t.pw.cause = 9 ∧ t.ch = s.ch)) ∧
    (∀ s : State, s.krg.st = .dormant → s.pw.mode = .dormant → s.krg.wakeLeft ≠ 0 → ∃ t, exec .keyringWakeInterval s = .next t ∧
      t.pw.mode = .start ∧ t.pw.step = 2 ∧ t.pw.wakeSrc = 1 ∧ t.krg.wakeLeft = 0)
  ) ∧ (
    (∀ s : State, s.live = true → s.pw.dormStep = 3 → s.cv.mode = .idle → s.fr.freeze = false → exec .dormantEntryStep s =
      .next { s.dormHold with pw := { s.dormHold.pw with dormStep := 4 } }) ∧
    (∀ s : State, s.live = true → s.pw.dormStep = 3 → s.cv.mode ≠ .idle ∨ s.fr.freeze = true → exec .dormantEntryStep s = .next s) ∧
    (∀ s : State, s.live = true → s.pw.dormStep = 4 → exec .dormantEntryStep s =
      .next { s.dormStore with pw := { s.dormStore.pw with dormStep := 5 } }) ∧
    (∀ s : State, s.live = true → s.pw.dormStep = 5 → exec .dormantEntryStep s =
      .next { s.dormPumps with pw := { s.dormPumps.pw with dormStep := 6 } }) ∧
    (∀ s : State, s.live = true → s.pw.dormStep = 6 → s.pw.wakeLatch = none →
      (∀ m : Fin 64, (s.ch[m]).cmpTrip = true → (s.ch[m]).st = .tripped) → ∃ t, exec .dormantEntryStep s = .next t ∧
      t.pw.mode = .dormant ∧ t.pw.logic = .off ∧ t.krg.st = .dormant ∧ t.krg.wakeLeft = s.krg.wakeS ∧ t.outs = [] ∧
      (∀ n : Fin 64, (t.ch[n]).st = (s.ch[n]).st ∧ (t.ch[n]).gate = (s.ch[n]).gate ∧ (t.ch[n]).sink = .none)) ∧
    (∀ (s : State) (w : Nat), s.live = true → s.pw.dormStep = 6 → s.pw.wakeLatch = some w → ∃ t, exec .dormantEntryStep s = .next t ∧
      t.pw.mode = .start ∧ t.pw.step = 2 ∧ t.pw.wakeSrc = w)
  )

/-! ### Frames, Periods and the Supervisor (02, 11) -/

/-- R40, R42, R44-R46, Table 2.1: a tick begins the next Frame: the Frame count and the drive-die time advance by one, the pages change places, the Frame has
no overrun yet, and a freeze is lifted where two Frames without an overrun have gone by outside a relock and with the CE running. What the converters and
bridges did in the Frame that ends is taken, and the slots run in the order of Table 2.1; a gate word lost on the die-to-die link is lost for one tick
(R11). R50, R171: a Period boundary acts at the tick of every 250th Frame, leaves the Frame count alone, and closes the figures of the Period: each
Channel's mean current and voltage are those of its 250 latches, and its sums start again; only a thermal shutdown ends Frames there. R401, R409: a
Class A service slot acts in every 25th Frame; with one Class A command visible before the tick it takes it from its ring and executes it, with none it
does nothing. None of them does anything before Frames run or in another Frame.
R44, R45, R47: a Frame overrun freezes the actuators and is counted once in its Frame; the 64th in a row halts the CE and sets HPT_FAULT bit 1; the restart of a
halted CE ends the halt and starts its laws again. -/
def Obligations.TicksRunTheSlotsAndOverrunsFreeze : Prop :=
  (
    (∀ (s : State) (i : FrameIn), s.live = true → ∃ t, exec (.frameTick i) s = .next t ∧
      t.fr.count = s.fr.count + 1 ∧ t.fr.drive = s.fr.drive + 1 ∧ t.fr.page = (!s.fr.page) ∧ t.fr.running = true ∧ t.fr.overNow = false ∧
      t.fr.ceHalted = s.fr.ceHalted ∧ t.fr.overRun = (if s.fr.overNow then s.fr.overRun else 0) ∧
      t.fr.cleanRun = (if s.fr.overNow then 0 else if s.fr.ceHalted then s.fr.cleanRun else s.fr.cleanRun + 1) ∧
      (t.fr.freeze = true ↔ s.fr.freeze = true ∧ (t.fr.cleanRun < 2 ∨ s.clk.relocking = true ∨ s.fr.ceHalted = true)) ∧
      t.linkLost = []) ∧
    (∀ (s : State) (i : FrameIn), s.live = true →
      let s0 := (s.fireRecord.senseFrame i).switchFrame.arcFeed
      let s1 := (((s0.lastS5 i.s5Carry).atTick i.s5Carry).s0 i).s1 i
      let s2 := s1.ceSlots.updFr fun f => f.cycles i.s2Cycles i.s3Cycles
      let s3 := s2.sendCodes
      exec (.frameTick i) s = .next { (if s3.drives then s3.placeSinks else s3).netTick with linkLost := [] }) ∧
    (∀ (s : State) (i : FrameIn), s.live = false → exec (.frameTick i) s = .next s) ∧
    (∀ (s : State) (p : PeriodIn), s.live = true → s.fr.count % 250 = 0 → ∃ t, exec (.periodBoundary p) s = .next t ∧
      t.fr = { s.fr with running := t.live } ∧ (t.live = false → t.pw.mode = .shutdown) ∧
      (s.s5Held = [] → s.staged = [] → s.outs = [] → s.rest = [] → (∀ q : Fin 32, (s.qs[q]).vis = [] ∧ (s.qs[q]).waiting = []) →
        t.live = true → ∀ n : Fin 64, (t.ch[n]).meanI = (s.ch[n]).sumI / 250 ∧ (t.ch[n]).meanV = (s.ch[n]).sumV / 250 ∧
          (t.ch[n]).sumI = 0 ∧ (t.ch[n]).sumV = 0 ∧ (t.ch[n]).onFrames = 0)) ∧
    (∀ (s : State) (p : PeriodIn), s.live = false ∨ s.fr.count % 250 ≠ 0 → exec (.periodBoundary p) s = .next s) ∧
    (∀ (s : State) (q : Fin 32) (v : Vis), s.live = true → s.fr.count % 25 = 0 → s.rest = [] →
      (∀ p : Fin 32, (s.qs[p]).waiting = []) → (s.qs[q]).cls = .a → (s.qs[q]).vis = [v] → v.frame < s.fr.count → s.takeable q = true →
      (∀ p : Fin 32, p ≠ q → (s.qs[p]).cls = .a → (s.qs[p]).vis = []) →
      ∃ t e, s.takeRing q = some (t, e) ∧ t.vis = v ∧ (e.qs[q]).vis = [] ∧ (e.qs[q]).sqHead = ((s.qs[q]).sqHead + 1) % (s.qs[q]).depth ∧
        (s.fenced q = false → exec .classAServiceSlot s = .next (perform t (e.took t))) ∧
        (s.fenced q = true → exec .classAServiceSlot s = .next ((e.took t).updQ q fun k => { k with waiting := [t] }))) ∧
    (∀ s : State, (∀ p : Fin 32, (s.qs[p]).waiting = []) →
      (∀ p : Fin 32, (s.qs[p]).cls = .a → ∀ v ∈ (s.qs[p]).vis, s.fr.count ≤ v.frame) → exec .classAServiceSlot s = .next s) ∧
    (∀ s : State, s.live = false ∨ s.fr.count % 25 ≠ 0 → exec .classAServiceSlot s = .next s)
  ) ∧ (
    (∀ (s : State) (k : Fin 4), s.live = true → s.fr.overNow = false → s.fr.overRun < 63 → ∃ t, exec (.frameOverrun k) s = .next t ∧
      t.fr = { s.fr with freeze := true, cleanRun := 0, overNow := true, overRun := s.fr.overRun + 1 } ∧ t.ch = s.ch ∧ t.cv = s.cv) ∧
    (∀ (s : State) (k : Fin 4), s.live = true → s.fr.overNow = true → ∃ t, exec (.frameOverrun k) s = .next t ∧
      t.fr = { s.fr with freeze := true, cleanRun := 0 } ∧ t.ch = s.ch ∧ t.cv = s.cv) ∧
    (∀ (s : State) (k : Fin 4), s.live = true → s.fr.overNow = false → s.fr.overRun = 63 → s.fr.ceFaultAt = none → ∃ t,
      exec (.frameOverrun k) s = .next t ∧ t.fr.ceHalted = true ∧ t.fr.freeze = true ∧ t.fr.count = s.fr.count ∧ t.hpt.getLsbD 1 = true) ∧
    (∀ (s : State) (k : Fin 4), s.live = false → exec (.frameOverrun k) s = .next s) ∧
    (∀ s : State, s.live = true → s.fr.ceHalted = true → ∃ t, exec .ceRestart s = .next t ∧
      t.fr = { s.fr with ceHalted := false, cleanRun := 0 } ∧ t.ch = s.ch ∧ t.cv.law = s.cv.law ∧
      (s.cv.law ≠ .idle → t.cv.integ = single ((s.switching.map fun p =>
          if s.cv.law = .boost then |s.iPh p| else s.iFlow s.cv.law p).sum) ∧ t.cv.gen = s.cv.gen.restAt (s.cvOut s.cv.law) s.cv.gen.target)) ∧
    (∀ s : State, s.live = false ∨ s.fr.ceHalted = false → exec .ceRestart s = .next s)
  )

/-! ### Channels (04, 05, 06) -/

/-- R141, R142: a cause that a driving chip may act on takes a Channel without parallel partners to its state, with its gate low, its
cause and detail recorded, and the Frame of the change; a Channel that the cause cannot move stays as it was. While a pair hands over, only
protection and commands move a Channel (R506). -/
def Obligations.RaisedCauseMovesItsChannel : Prop :=
  ∀ (s : State) (n : Fin 64) (c : Cause) (detail : Nat), s.drives = true → s.members n = [n] → s.leader n = n →
    (canMove (s.ch[n]).st .fetFault c = true → s.hinge.st ≠ .handing ∨ protCause c = true ∨ c = .command → ∃ t, t = s.raise1 n c .fetFault detail ∧ (t.ch[n]).st = .fetFault ∧
      (t.ch[n]).cause = c ∧ (t.ch[n]).gate = .low ∧ (t.ch[n]).gateNext = .low ∧ (t.ch[n]).lastTr = s.fr.count ∧
      (t.ch[n]).detail = BitVec.ofNat 16 detail ∧ ∀ m, m ≠ n → (t.ch[m]).st = (s.ch[m]).st) ∧
    (canMove (s.ch[n]).st .tripped c = false → (s.raise1 n c .tripped detail).ch = s.ch) ∧
    (s.hinge.st = .handing → protCause c = false → c ≠ .command → (s.raise1 n c .tripped detail).ch = s.ch)

/-- The Channel time-outs and gate checks (R55, R150, R154, R157-R160, R540): when its time has come, a ramp limit trips the Channel, also one in ON
whose gate was still in ramp drive at the limit's tick; a gate that does not follow and a shorted FET make FET_FAULT; a relock suspends the checks. -/
def Obligations.ChannelChecksRaiseTheirCauses : Prop :=
  (∀ (s : State) (n : Fin 64), (s.ch[n]).st = .ramp → (s.ch[n]).t0 + frames01ms * (s.ch[n]).tmb.tInrush ≤ s.fr.count →
    exec (.tumblerRamp n) s = .next (s.raise1 n .tumblerRamp .tripped)) ∧
  (∀ (s : State) (n : Fin 64), (s.ch[n]).st = .ramp → s.live = true → s.clk.relocking = false →
    (s.ch[n]).t0 + frames01ms * s.lf n Fld.TRAMP ≤ s.fr.count →
    exec (.rampTimeout n) s = .next (s.raise1 n .rampTimeout .tripped)) ∧
  (∀ (s : State) (n : Fin 64), (s.ch[n]).st = .on → (s.ch[n]).tmbOff = true →
    exec (.tumblerRamp n) s = .next (s.raise1 n .tumblerRamp .tripped)) ∧
  (∀ (s : State) (n : Fin 64), s.live = true → s.clk.relocking = false → (s.ch[n]).st = .ramp ∨ (s.ch[n]).st = .on →
    (s.ch[n]).gateBad = true ∨ ((s.ch[n]).gateDue = some s.fr.count ∧ (s.ch[n]).gateMin = false) → exec (.gateFail n) s = .next (s.raise1 n .gateFail .fetFault)) ∧
  (∀ (s : State) (n : Fin 64), s.live = true → s.clk.relocking = false → (s.ch[n]).st = .on → 13 ≤ (s.ch[n]).minRun →
    exec (.gateFail n) s = .next (s.raise1 n .gateFail .fetFault)) ∧
  (∀ (s : State) (n : Fin 64) (f : Nat), s.live = true → s.clk.relocking = false → (s.ch[n]).offAt = some f →
    f + 50 ≤ s.fr.count →
    (s.ch[n]).st = .off ∨ (s.ch[n]).st = .tripped ∨ (s.ch[n]).st = .lockout →
    let s1 := s.updCh n fun c => { c with offAt := none, fetRun := 0 }
    ((s.ch[n]).gateLow = false → exec (.fetShortTest n) s = .next (s1.raise1 n .gateFail .fetFault 1)) ∧
    ((s.ch[n]).gateLow = true → s.vsup n < (s.ch[n]).vP * 5 → s.lf n Fld.HOLDCAP = 0 ∨ s.fetLevel n ≤ (s.ch[n]).iP →
      exec (.fetShortTest n) s = .next (s1.raise1 n .fetShort .fetFault)) ∧
    ((s.ch[n]).gateLow = true → (s.ch[n]).vP * 5 ≤ s.vsup n →
      ∃ t, exec (.fetShortTest n) s = .next t ∧ t.ch = s1.ch ∧ t.fr = s.fr ∧ t.outs = s.outs)) ∧
  (∀ (s : State) (n : Fin 64), s.clk.relocking = true →
    exec (.rampTimeout n) s = .next s ∧ exec (.gateFail n) s = .next s ∧ exec (.fetShortTest n) s = .next s ∧
    exec (.fetShort n) s = .next s) ∧
  (∀ (s : State) (n : Fin 64), s.live = true → s.clk.relocking = false → 250 ≤ (s.ch[n]).fetRun → (s.ch[n]).offAt = none →
    (s.ch[n]).st = .off ∨ (s.ch[n]).st = .tripped ∨ (s.ch[n]).st = .lockout →
    exec (.fetShort n) s = .next (s.raise1 n .fetShort .fetFault)) ∧
  (∀ (s : State) (n : Fin 64), (s.ch[n]).st ≠ .ramp → exec (.rampTimeout n) s = .next s ∧
    ((s.ch[n]).st ≠ .on ∨ (s.ch[n]).tmbOff = false → exec (.tumblerRamp n) s = .next s))

/-- R9, R86, R178, R187, R191: the analog comparator of a driven Channel, whose amplified forward shunt voltage is at its code × 2 mV or above for
its filter time, takes the gates of its parallel set low at once, on the drive die; the Channel that tripped is marked for S1. A Channel that is
not driven, whose latch is set or whose comparator does not trip is left alone; in Dormant the trip of a HELD Channel wakes the block. -/
def Obligations.ComparatorTripsAtOnce : Prop :=
  (∀ (s : State) (n : Fin 64) (uv : Int) (ns : Nat), s.live = true → s.pw.mode ≠ .off → s.pw.mode ≠ .shutdown →
    driven (s.ch[n]).st = true → (s.ch[n]).latch = false → s.drives = true → (s.ch[n]).st ≠ .held → s.cmpTrips n uv ns = true →
    ∃ t, exec (.comparatorTrip ⟨n, uv, ns⟩) s = .next t ∧
    (t.ch[n]).cmpTrip = true ∧ (∀ m ∈ s.members n, (t.ch[m]).gate = .low ∧ (t.ch[m]).gateNext = .low ∧ (t.ch[m]).latch = true) ∧
    (∀ m, m ∉ s.members n → t.ch[m] = s.ch[m]) ∧ t.fr = s.fr ∧ t.adm = s.adm) ∧
  (∀ (s : State) (n : Fin 64) (uv : Int) (ns : Nat), driven (s.ch[n]).st = false ∨ (s.ch[n]).latch = true ∨ s.cmpTrips n uv ns = false →
    exec (.comparatorTrip ⟨n, uv, ns⟩) s = .next s) ∧
  (∀ (s : State) (n : Fin 64) (uv : Int) (ns : Nat), s.cmpTrips n uv ns = true ↔
    2000 * ((s.ch[n]).cmp : Int) ≤ uv * s.cmpGain n ∧ 0 < uv ∧ s.cmpfNs n ≤ ns) ∧
  (∀ (s : State) (n : Fin 64) (uv : Int) (ns : Nat), s.cmpTrips n uv ns = true → s.pw.mode = .dormant → s.live = false → s.hinge.hen = false → (s.ch[n]).st = .held →
    (s.ch[n]).latch = false → s.members n = [n] → ∃ t, exec (.comparatorTrip ⟨n, uv, ns⟩) s = .next t ∧ (t.ch[n]).st = .tripped ∧
      (t.ch[n]).cause = .comparator ∧ (t.ch[n]).gate = .low ∧ t.pw.mode = .start ∧ t.pw.wakeSrc = 5)

/-- Timers of a Channel (R147, R164, R182, R200-R203, R544): a due retry enters the admission queue or, with the rate of a member full, leads to
LOCKOUT; TSTABLE clears the trip count; a discharge sink is released after 30 s; the ambient fallback is marked and the off permit lapses; no Class A
CH_ON of the Channel that has waited 75 Frames is left waiting for admission, its entry of the admission queue stays, and one that is the only outstanding
command completes with 0x01 ACCEPTED.
R217, R235-R238: an arc block applies the writes that wait for it and then evaluates the detectors; the evaluation leaves a detector with no block due and
the state of every Channel as they were; the end of a probe ends it and, with two usable resistances and a steady current, adds one value to the window of
the Zth ratio; with an unusable resistance or a current that moved the window stays as it was. -/
def Obligations.ChannelTimersArcBlocksAndProbesAct : Prop :=
  (
    (∀ (s : State) (n : Fin 64) (a : Nat), s.live = true → (s.ch[n]).retryAt = some a → a ≤ s.fr.count → (s.ch[n]).st = .tripped →
      s.isFollower n = false → (s.members n).any s.rateFull = false → ∃ t, exec (.retryDue n) s = .next t ∧
        (t.ch[n]).retryAt = none ∧ t.waiting n = true ∧ (t.ch[n]).st = .tripped) ∧
    (∀ (s : State) (n : Fin 64) (a : Nat), s.live = true → (s.ch[n]).retryAt = some a → a ≤ s.fr.count → (s.ch[n]).st = .tripped →
      s.isFollower n = false → (s.members n).any s.rateFull = true → s.drives = true → ∃ t, exec (.retryDue n) s = .next t ∧
        (∀ m ∈ s.members n, (t.ch[m]).st = .lockout ∧ (t.ch[m]).detail = 0x200) ∧ (t.ch[n]).retryAt = none) ∧
    (∀ (s : State) (n : Fin 64), s.live = true → (s.ch[n]).st = .on → (s.ch[s.leader n]).hot = false →
      (s.ch[n]).tstabFrom + frames01s * s.lf n Fld.TSTABLE ≤ s.fr.count →
      exec (.tstableExpiry n) s = .next (s.updCh n fun c => { c with k := 0 })) ∧
    (∀ (s : State) (n : Fin 64), (s.ch[n]).sink ≠ .none → (s.ch[n]).sinkAt + 3 * frames10s ≤ s.fr.drive →
      exec (.dischargeTimeout n) s = .next ((s.updCh n fun c => { c with sink := .none }).placeSinks)) ∧
    (∀ (s : State) (n : Fin 64), s.live = true → (s.ambientOf n).2 = true → (s.ch[n]).ambFb = false → s.isFollower n = false →
      ∃ t, exec (.ambFallback n) s = .next t ∧ (t.ch[n]).ambFb = true ∧ (t.ch[n]).st = (s.ch[n]).st) ∧
    (∀ (s : State) (n : Fin 64) (f : Nat), (s.ch[n]).tmb.permit = some f → f ≤ s.fr.count →
      exec (.offPermitLapse n) s = .next (s.updCh n fun c => { c with tmb := { c.tmb with permit := none } })) ∧
    (∀ (s : State) (n : Fin 64), ∃ t, exec (.classAAcceptTimeout n) s = .next t ∧ t.adm = s.adm ∧ t.ch = s.ch ∧
      ∀ o ∈ t.outs, o.wait = .admission n → (s.qs[o.cmd.q]).cls = .a → s.fr.count < o.cmd.vis.frame + 75) ∧
    (∀ (s : State) (n : Fin 64) (t : Taken) (k : Nat), s.outs = [⟨t, k, .admission n⟩] → (s.qs[t.q]).cls = .a →
      t.vis.frame + 75 ≤ s.fr.count →
      exec (.classAAcceptTimeout n) s = .next (({ s with outs := [] }).complete t 1 none (evt := true)))
  ) ∧ (
    (∀ s : State, s.live = true → s.fr.count % 10 = 0 →
      exec (.arcBlock ()) s = .next ((s.applyStaged .block).arcBlock) ∧
      ∀ n : Fin 64, ((s.ch[n]).arc.due = false → ((s.arcEval 0).1.ch[n]).arc = (s.ch[n]).arc) ∧
        ((s.arcEval 0).1.ch[n]).st = (s.ch[n]).st) ∧
    (∀ (s : State) (n : Fin 64) (f : Nat), s.live = true → (s.ch[n]).creep.probe = some f →
      f + s.lf n Fld.PLEN + 2 ≤ s.fr.count → ∃ t, exec (.probeEnd n ()) s = .next t ∧ (t.ch[n]).creep.probe = none ∧
        (t.ch[n]).arc = (s.ch[n]).arc ∧ (t.ch[n]).st = (s.ch[n]).st ∧ (∀ k, k ≠ n → t.ch[k] = s.ch[k]) ∧ t.fr = s.fr ∧
        let k := (s.ch[n]).creep
        let iPre := s.probeMean n
        let iDur := meanQ (k.during.map (s.rawAmp n))
        (∀ pre post, s.probeRon n k.pre = some pre → s.probeRon n k.post = some post →
          let dp := iDur * ((s.lf n Fld.PVDS : ℚ) / 10) - iPre * pre * iPre
          pre ≠ 0 → dp ≠ 0 → movedTenth iPre iDur = false →
          let w := k.winZth ++ [(post / pre - 1) / ((s.lf n Fld.TCR : ℚ) / 10000) / dp]
          (t.ch[n]).creep.winZth = w.drop (w.length - 16) ∧ (t.ch[n]).creep.lastProbe = some s.fr.count) ∧
        ((s.probeRon n k.pre = none ∨ s.probeRon n k.post = none ∨ movedTenth iPre iDur = true) →
          (t.ch[n]).creep.winZth = k.winZth))
  )

/-! ### Sense, capture, temperature (03, 18) -/

/-- Sense and capture events (R107, R109, R111, R121, R123, R125, R568): an edge of the drive that a definition names puts its conversion on the list of those due, DELAY after it; a
conversion of G0 to G3 with no free slot within 200 ns is lost; a result posted to the mailbox is a word of TAG 10 with the Frame count, without a result a word of TAG 01 with the input's previous value; a housekeeping
round is taken, a second one in a row with a self-check conversion off its value sets the self-check fault, and a second one with a sensor in the
shutdown range shuts the block down; a stream whose words have come is DONE, or FROZEN where it freezes. -/
def Obligations.SenseEventsAct : Prop :=
  (∀ (s : State) (g : Fin 5) (k : Fin 8) (r : Fin 20) (ns : Fin 200), s.converts g = true → injEn (s.grp[g]).inj[k] = true →
    s.trigEdge (injTrig (s.grp[g]).inj[k]) (200 * r.val + ns.val) = true →
    ∃ t, exec (.injectedConversion g k r ns) s = .next t ∧
      (∃ a b, (s.grp[g]).injReq = a ++ b ∧ (t.grp[g]).injReq = a ++ (k, ((200 * r.val + ns.val + injDelay (s.grp[g]).inj[k] : Nat) : Int)) :: b) ∧
      (∀ j, j ≠ g → t.grp[j] = s.grp[j]) ∧ t.ch = s.ch) ∧
  (∀ (s : State) (g : Fin 5) (k : Fin 8) (r : Fin 20) (ns : Fin 200), s.converts g = false ∨ injEn (s.grp[g]).inj[k] = false ∨
    s.trigEdge (injTrig (s.grp[g]).inj[k]) (200 * r.val + ns.val) = false →
    exec (.injectedConversion g k r ns) s = .next s) ∧
  (∀ (s : State) (p : Fin 16) (t : Nat), s.trigEdge p.val t = true ↔
    ∃ x ∈ s.phDrive p, x.on ≠ 0 ∧ (t : ℚ) ≤ x.start ∧ x.start < t + 1) ∧
  (∀ (x : Group) (d : Fin 8) (due : Int) (r : Nat), x.injReq = [(d, due)] →
    (∀ i, i < 32 → planFree x.plan i = true → 4 * due ≤ 25 * (32 * r + i : Nat) → 4 * (due + 200) < 25 * (32 * r + i : Nat)) →
    4 * (due + 200) < 25 * (32 * r + 32 : Nat) → (x.claims false r).lost = [d] ∧ (x.claims false r).taken = []) ∧
  (∀ (x : Group) (d : Fin 8) (f : Nat) (v : Int), x.injNew = [] →
    ((x.injTake f d (some v)).injPost.injWord[d]) = rawWord v 2 ∧ ((x.injTake f d (some v)).injPost.injFrame[d]) = f ∧
    ((x.injTake f d none).injPost.injWord[d]) = rawWord (x.flt[injInput x.inj[d]]).prev 1 ∧
    ∀ e, e ≠ d → (x.injTake f d (some v)).injPost.injWord[e] = x.injWord[e]) ∧
  (∀ (s : State) (h : HkIn), s.live = true → s.hk.checkBad = true ∨ hkBadSlot h = none → (∀ i : Fin 24, h.ts[i] < 10560) →
    exec (.hkRound h) s = .next { s with hk := s.hk.take h }) ∧
  (∀ (s : State) (h : HkIn) (k : Nat), s.live = true → s.hk.checkBad = false → hkBadSlot h = some k → 1 ≤ s.hk.checkRun →
    (∀ i : Fin 24, h.ts[i] < 10560) → ∃ t, exec (.hkRound h) s = .next t ∧ t.hk.checkBad = true ∧ t.hk.lastCheck = k ∧
      t.ch = s.ch ∧ t.th = s.th) ∧
  (∀ (s : State) (h : HkIn) (i : Fin 24), s.live = true → 10560 ≤ h.ts[i] → h.ts[i] ≤ 12800 → 1 ≤ s.hk.hotRun[i] →
    s.th.latch = false → ∃ t, exec (.hkRound h) s = .next t ∧ t.th.latch = true ∧ t.th.level = 3 ∧ t.pw.mode = .shutdown ∧
      t.pw.logic ≠ .running ∧ t.live = false) ∧
  (∀ (s : State) (i : Fin 16), (s.cap[i]).st = 2 → (s.cap[i]).postLeft = 0 →
    exec (.captureDone i) s = .next (s.updCap i fun c => { c with st := if c.freeze then 4 else 3 })) ∧
  (∀ (s : State) (i : Fin 16), (s.cap[i]).st ≠ 2 → exec (.captureDone i) s = .next s)

/-! ### The converter, the AUX rails and test injection (07, 08) -/

/-- Converter events (R274, R276, R280-R282, R286, R290, R308): 8 Frames in regulation end a start; a start that lasts 25,000 Frames is
START_FAIL; 250 Frames of a good V48_IN let a waiting start begin, that of step 16 or of a return only while STARTMODE is BUCK; a counted restart after three within 60 s leads to CV_LOCKOUT, of an AUX rail
to its stop;
SHEDHOLD and the rotation end when their times have come; a profile that is late ends without a transfer. -/
def Obligations.ConverterEventsAct : Prop :=
  (∀ s : State, s.live = true → cvRunning s.cv.start = true → 8 ≤ s.cv.regRun → s.pw.step ≠ 16 → s.zone.hu ≠ .ret →
    ∃ t, exec .converterRegulation s = .next t ∧ t.cv.start = .none ∧ t.cv.mode = s.cv.mode ∧ t.ch = s.ch) ∧
  (∀ s : State, s.live = true → cvRunning s.cv.start = true → 8 ≤ s.cv.regRun → s.pw.step = 16 → s.pw.admOpen = false → s.zone.hu ≠ .ret →
    ∃ t, exec .converterRegulation s = .next t ∧ t.cv.start = .none ∧ t.pw.step = 17 ∧ t.pw.mode = .run ∧ t.pw.admOpen = true) ∧
  (∀ (s : State) (f : Nat), s.live = true → s.cv.start = .running f → f + 25000 ≤ s.fr.count →
    exec .startFail s = .next (s.cvFault 8 0xFFFF).cvStartOver) ∧
  (∀ (s : State) (own : Bool), s.live = true → s.cv.start = .waiting own → (own = true ∨ s.cvf Fld.STARTMODE = 1) → 250 ≤ s.cv.vinRun → s.cv.mode = .idle → s.cv.modeNext = none →
    s.cv.stop = none → s.cv.noPhase = false → s.cv.lockout = false →
    exec .autoRestart s = .next { s with cv := { s.cv with start := .waiting own, modeNext := some .buck } }) ∧
  (∀ s : State, s.cv.start = .waiting false → s.cvf Fld.STARTMODE ≠ 1 → exec .autoRestart s = .next s) ∧
  (∀ (s : State) (f : Nat), s.live = true → s.cv.countedAt = some f → f ≤ s.fr.count → s.cv.mode = .idle →
    3 ≤ (s.cv.counted.filter fun x => s.fr.count < x + 15000000).length → ∃ t, exec (.countedRestart 0) s = .next t ∧
      t.cv.lockout = true ∧ t.cv.countedAt = none ∧ t.cv.mode = .idle) ∧
  (∀ (s : State) (f : Nat), s.live = true → s.cv.countedAt = some f → f ≤ s.fr.count → s.cv.mode = .idle → s.cv.stop = none →
    s.cv.noPhase = false → s.cv.lockout = false → (s.cv.counted.filter fun x => s.fr.count < x + 15000000).length < 3 →
    ∃ t, exec (.countedRestart 0) s = .next t ∧ t.cv.start = .waiting true ∧ t.cv.countedAt = none ∧
      t.cv.counted = s.fr.count :: s.cv.counted.filter fun x => s.fr.count < x + 15000000) ∧
  (∀ (s : State) (r : Fin 4) (f : Nat), s.live = true → (s.aux[r]).countedAt = some f → f ≤ s.fr.count →
    (s.aux[r]).st = .fault → 3 ≤ ((s.aux[r]).counted.filter fun x => s.fr.count < x + 15000000).length →
    exec (.countedRestart ⟨r.val + 1, by omega⟩) s =
      .next ((s.updAux r fun a => { a with countedAt := none, stopped := true, target := 0 }).cvSetsEnd (isAuxSet r) 0x12)) ∧
  (∀ (s : State) (f : Nat), s.live = true → s.cv.holdEnd = some f → f ≤ s.fr.count →
    exec .shedholdExpiry s = .next { s with cv := { s.cv with holdEnd := none, dwell := 0 } }) ∧
  (∀ s : State, s.live = true → s.cv.mode ≠ .idle → 1024 * (s.cvf Fld.TSW : ℚ) ≤ s.cv.rotNs → ∃ t,
    exec .interleaveRotation s = .next t ∧ t.cv = { s.cv with rot := s.cv.rot + 1, rotNs := 0 }) ∧
  (∀ (s : State) (n : Fin 64) (p : Profile), s.live = true → (s.cv.profiles.find? fun f => f.ch == n) = some p →
    p.start + p.npred + 25 ≤ s.fr.count → ∃ t, exec (.profileTimeout n) s = .next t ∧
      t.cv.profiles = (s.cv.profiles.filter fun g => g.ch != p.ch) ∧ t.cv.integ = s.cv.integ ∧ t.ch = s.ch)

/-- Test injection (R319, R320, R323, R324): an armed injection starts at its Frame with its generator reset, which gives its first value; a point of a sweep whose settling and
measuring are over adds one record and leads to the next point, the last one to the end. -/
def Obligations.InjectionEventsAct : Prop :=
  (∀ s : State, s.live = true → s.inj.status = 1 → s.inj.armed = true → s.inj.ending = none → s.inj.startAt ≤ s.fr.count →
    ∃ t, exec .injectionStart s = .next t ∧ t.inj.armed = false ∧ t.inj.status = 1 ∧ t.inj.k = 0 ∧ t.inj.f = s.inj.f ∧
      (s.inj.f[(2 : Fin 12)] = 0 → t.inj.value = single ((singleVal s.inj.f[(3 : Fin 12)]).getD 0 * sineTurn 0)) ∧
      (s.inj.f[(2 : Fin 12)] ≠ 0 → t.inj.value = (singleVal s.inj.f[(3 : Fin 12)]).getD 0) ∧
      t.cv = s.cv ∧ t.ch = s.ch) ∧
  (∀ s : State, s.live = true → s.inj.status = 1 → s.inj.armed = false → s.inj.ending = none → s.inj.f[(2 : Fin 12)] = 0 →
    s.inj.settleLeft = 0 → s.inj.measLeft = 0 → ∃ t, exec .sweepPointEnd s = .next t ∧
      t.inj.recs = s.inj.recs ++ [s.sweepRec] ∧
      (s.inj.k < s.inj.f[(6 : Fin 12)] → t.inj.k = s.inj.k + 1 ∧ t.inj.ending = none) ∧
      (s.inj.f[(6 : Fin 12)] ≤ s.inj.k → t.inj.ending = some false) ∧ t.cv = s.cv)

/-! ### Zone functions (09) -/

/-- Hold-up (R333, R334, R336, R344, R345, Tables 9.3 and 9.5): V48_IN back for HURET leads from HOLDUP or SPENT to RETURN, and so does the end of a
test; a RETURN that takes 25,000 Frames falls back to HOLDUP; one from SPENT whose start cannot come ends. -/
def Obligations.HoldUpEventsAct : Prop :=
  (∀ s : State, s.live = true → s.drives = true → s.zone.huNext = none → (s.zone.hu = .holdup ∧ s.zone.testEnd = none) ∨ s.zone.hu = .spent →
    250 * s.znf Fld.HURET ≤ s.zone.retRun → ∃ t, exec .holdupReturn s = .next t ∧ t.zone.hu = .ret ∧ t.zone.retStep = 1 ∧
      t.zone.retAt = s.fr.count ∧ (t.zone.retSpent = true ↔ s.zone.hu = .spent)) ∧
  (∀ (s : State) (f : Nat), s.live = true → s.drives = true → s.zone.huNext = none → s.zone.hu = .holdup → s.zone.testEnd = some f → f ≤ s.fr.count →
    ∃ t, exec .huTestEnd s = .next t ∧ t.zone.hu = .ret ∧ t.zone.retSpent = false ∧ t.zone.testEnd = none) ∧
  (∀ s : State, s.live = true → s.drives = true → s.zone.hu = .ret → s.zone.retSpent = false → s.zone.huNext = none →
    s.zone.retAt + 25000 ≤ s.fr.count → ∃ t, exec .returnTimeout s = .next t ∧ t.zone.hu = .holdup ∧ t.zone.huCause = 8 ∧
      t.zone.isoNext = some false) ∧
  (∀ s : State, s.live = true → s.drives = true → s.zone.hu = .ret → s.zone.retSpent = true → s.zone.huNext = none → s.zone.retStep = 2 →
    cvRunning s.cv.start = false → s.zone.isoClosedAt + 25000 ≤ s.fr.count →
    exec .spentStartTimeout s = .next s.huReturned) ∧
  (∀ s : State, s.live = false ∨ s.drives = false → exec .holdupReturn s = .next s ∧ exec .huTestEnd s = .next s ∧
    exec .returnTimeout s = .next s ∧ exec .spentStartTimeout s = .next s)

/-! ### Memory errors (01) and records (16) -/

/-- Table 1.5, R11, R16, R19-R23, R39: scrubs are counted, 8 s and 24 h after the last; a corrected error is counted for its region; a parity error sets
HPT_FAULT bit 0 and aborts its transaction or discards the word; an access outside the map is remembered; a double-bit error in a Queue's ring
stops the Queue, in the Supervisor's SRAM resets the logic die, in Firn takes its copy out of use; a failed Firn write brings a spare row into
service. -/
def Obligations.MemoryErrorsActByTable15 : Prop :=
  (∀ s : State, s.live = true →
    (s.mem.sramAt + 2000000 ≤ s.fr.drive → exec .sramScrub s =
      .next { s with mem := { s.mem with sramScrubs := s.mem.sramScrubs + 1, sramAt := s.fr.drive } }) ∧
    (s.fr.drive < s.mem.sramAt + 2000000 → exec .sramScrub s = .next s) ∧
    (s.mem.firnAt + 21600000000 ≤ s.fr.drive + s.mem.firnFor → exec .firnScrub s =
      .next { s with mem := { s.mem with firnScrubs := s.mem.firnScrubs + 1, firnAt := s.fr.drive, firnFor := 0 } }) ∧
    (s.fr.drive + s.mem.firnFor < s.mem.firnAt + 21600000000 → exec .firnScrub s = .next s)) ∧
  (∀ (s : State) (r : Region), s.pw.logic = .running → isEccMem r = true → ∃ t, exec (.eccSingle r) s = .next t ∧
    t.mem.corrected[regionIx r] = s.mem.corrected[regionIx r] + 1 ∧
    (∀ i, i ≠ regionIx r → t.mem.corrected[i] = s.mem.corrected[i]) ∧ t.ch = s.ch ∧ t.qs = s.qs ∧ t.qmem = s.qmem) ∧
  (∀ (s : State) (w : ParityAt), s.pw.logic = .running → ∃ t, exec (.parity w) s = .next t ∧ t.hpt = s.hpt ||| 1#9 ∧
    t.ch = s.ch ∧ t.qs = s.qs ∧ (∀ i, w = .fabric i → t.mem = { s.mem with aborted := some i } ∧ t.linkLost = s.linkLost) ∧
    (∀ d, w = .dieLink d → t.linkLost = s.linkLost ++ [d] ∧ t.mem = s.mem)) ∧
  (∀ (s : State) (a : Word) (b : Bool), s.pw.logic = .running → firnHolds (.snapshot b) a = true →
    ∃ t, exec (.eccDouble .firn a (.snapshot b)) s = .next t ∧ (if b then t.snap1 else t.snap0).valid = false ∧
      (if b then t.snap0 = s.snap0 else t.snap1 = s.snap1)) ∧
  (∀ (s : State) (a : Word) (b : Bool), s.pw.logic = .running → firnHolds (.cvLearned b) a = true →
    ∃ t, exec (.eccDouble .firn a (.cvLearned b)) s = .next t ∧ (if b then t.cv.slot1 else t.cv.slot0).valid = false ∧
      (if b then t.cv.slot0 = s.cv.slot0 else t.cv.slot1 = s.cv.slot1) ∧ t.cv.ph = s.cv.ph) ∧
  (∀ (s : State) (a : Word), s.pw.logic = .running → inMap a.toNat = false → ∃ t, exec (.busError a) s = .next t ∧
    t.mem = { s.mem with lastBusError := some a } ∧ t.ch = s.ch) ∧
  (∀ (s : State) (a : Word), inMap a.toNat = true → exec (.busError a) s = .next s) ∧
  (∀ (s : State) (a : Word) (p : FirnPart) (q : Fin 32) (k : Nat), s.pw.logic = .running → a.toNat = 0x40000000 + (q.val * 0x6000 + k) →
    k < (s.qs[q]).depth * 64 → k < 0x4000 → (s.qs[q]).st = .run → (s.qs[q]).isEvent = false →
    ∃ t, exec (.eccDouble .queueMem a p) s = .next t ∧ (t.qs[q]).st = .stopped) ∧
  (∀ (s : State) (a : Word) (p : FirnPart), s.pw.mode = .start ∨ s.pw.mode = .run → s.pw.logic = .running →
    ∃ t, exec (.eccDouble .supSram a p) s = .next t ∧ t.pw.mode = .start ∧ t.pw.step = 3 ∧ t.pw.cause = 5) ∧
  (∀ s : State, s.pw.logic = .running → ∃ t, exec (.firnWriteDone false) s = .next t ∧
    t.mem = { s.mem with firnSpares := s.mem.firnSpares + 1 }) ∧
  (∀ s : State, exec (.firnWriteDone true) s = .next s)

/-- R521: a record has 32 bytes, its fields where Table 16.1 places them, and its CRC does not depend on its repeat count. -/
def Obligations.RecordCrcLeavesTheRepeatCountOut : Prop :=
  ∀ (r : IceRec) (n : Nat), r.bytes.length = 32 ∧ r.bytes.take 4 = le 4 r.seq ∧ (r.bytes.drop 4).take 2 = le 2 r.rep ∧
    (r.bytes.drop 6).take 2 = le 2 r.code ∧ (r.bytes.drop 8).take 2 = le 2 r.source ∧ (r.bytes.drop 10).take 2 = le 2 r.flags ∧
    (r.bytes.drop 12).take 16 = fitTo 16 r.payload ∧
    r.bytes.drop 28 = le 4 (crc32c (r.bytes.take 4 ++ (r.bytes.drop 6).take 22)).toNat ∧
    ({ r with rep := n } : IceRec).bytes.drop 28 = r.bytes.drop 28

/-- R527, R528: an occurrence equal to the newest buffered record in CODE, SOURCE, FLAGS and PAYLOAD is folded into it while its
REPEAT is below 65,535; one that finds 1,024 records buffered is lost and counted, and takes no sequence number.
Icecore's flush and clear (R529, R530, R534, R535): the end of a flush moves every buffered record to the ring and ends it; the end of a clear
removes the records up to the head named and posts the command's CMD_DONE. -/
def Obligations.RecordsFoldFlushAndClear : Prop :=
  (
    (∀ (s : State) (code src sev : Nat) (p : List Byte) (old : List IceRec) (r : IceRec), s.live = true →
      s.ice.buf = old ++ [r] → r.code = code → r.source = src → r.payload = fitTo 16 p →
      r.flags = (if s.pw.pfw then 16 else 0) + 4 * s.srcClass src + sev → r.rep < 65535 →
      s.iceRecord code src sev p = { s with ice := { s.ice with buf := old ++ [{ r with rep := r.rep + 1 }] } }) ∧
    (∀ (s : State) (code src flags : Nat) (p : List Byte), 1024 ≤ s.ice.buf.length → ∃ t, t = s.iceOpen code src flags p ∧
      t.ice.lost = s.ice.lost + 1 ∧ t.ice.next = s.ice.next ∧ t.ice.buf = s.ice.buf)
  ) ∧ (
    (∀ s : State, s.live = true → s.ice.flushing = true → s.ice.clearing = none → ∃ t, exec .iceFlushDone s = .next t ∧
      t.ch = s.ch ∧ t.outs = s.outs ∧ (s.ice.flushCmds = [] → s.ice.lostPend = 0 → t.ice.buf = [] ∧ t.ice.flushing = false ∧ t.ice.foldPend = 0 ∧
        t.ice.ring = s.ice.buf.foldl ringPut (foldLast s.ice.ring s.ice.foldPend)) ∧ t.pw.batDue = false) ∧
    (∀ s : State, s.ice.flushing = false → exec .iceFlushDone s = .next s) ∧
    (∀ (s : State) (t : Taken) (h : Nat), s.live = true → s.pw.pfw = false → s.ice.clearing = some (t, h) →
      exec .iceClearDone s = .next (({ s with ice := { s.ice with
        clearing := none, ring := s.ice.ring.filter fun r => !seqUpTo h r.seq } }).cmdDone t 0)) ∧
    (∀ s : State, s.ice.clearing = none → exec .iceClearDone s = .next s)
  )

/-! ### Tumbler and Keyring (17) -/

/-- R538: after lock, a field takes a new value only where it is tighter than the one in force; every other write is refused and the
value in force stays. -/
def Obligations.TumblerOnlyTightens : Prop :=
  ∀ (s : State) (f : TmbField) (n : Fin 64) (hi : Bool) (v : Nat), s.live = true → s.tmb.locked = true →
    (tmbIsZone f = true ∨ s.linkLost.contains (.limit n) = false) →
    let hi' := hi && tmbIsWin f
    ∃ t, exec (.tumblerTighten f n hi v) s = .next t ∧
      (s.tmbAccepts f n hi' v = true → t.tmbCur f n hi' = v ∧ tmbTighter f hi' v (s.tmbCur f n hi') = true) ∧
      (s.tmbAccepts f n hi' v = false → t.tmb = s.tmb ∧ t.ch = s.ch) ∧
      (tmbTighter f hi' v (s.tmbCur f n hi') = false → t.tmbCur f n hi' = s.tmbCur f n hi')

/-- R551, Table 17.13: the result of a seal at count c is that of the first matching row, and a good seal sets the counter to 0,
empties the key set and advances PSEQ (R552). -/
def Obligations.SealHasTheResultOfTheFirstMatchingRow : Prop :=
  ∀ (s : State) (c : Nat), s.krgCounts = true →
    let miss := s.krg.reg &&& ~~~(s.krg.given ||| (if s.fr.ceHalted then 1 else 0))
    (s.krgP ≤ c → exec (.keyringSeal c) s = .next (s.krgFault 2 s.krgP 0 0)) ∧
    (c < s.krgP → c < s.krgW → exec (.keyringSeal c) s = .next (s.krgFault 1 c 0 0)) ∧
    (c < s.krgP → s.krgW ≤ c → s.krg.st = .run → miss ≠ 0 → exec (.keyringSeal c) s = .next (s.krgFault 3 c miss 0)) ∧
    (c < s.krgP → s.krgW ≤ c → s.krg.st = .run → miss = 0 → s.krg.bad ≠ 0 →
      exec (.keyringSeal c) s = .next (s.krgFault 4 c 0 s.krg.bad)) ∧
    (c < s.krgP → s.krgW ≤ c → (s.krg.st = .run → miss = 0 ∧ s.krg.bad = 0) → ∃ t, exec (.keyringSeal c) s = .next t ∧
      t.krg.st = .run ∧ t.krg.count = 0 ∧ t.krg.pseq = s.krg.pseq + 1 ∧ t.krg.given = 0 ∧ t.krg.bad = 0 ∧ t.krg.dup = 0 ∧
      t.krg.lastDup = s.krg.dup ∧ t.krg.reg = s.krg.reg ∧ t.krg.keys = s.krg.keys ∧
      (s.krg.st = .run → t.krg.regLock = true ∧ t.hpt.getLsbD 7 = false) ∧ t.ch = s.ch ∧ t.pw = s.pw)

/-- R554: a key write is correct when its task is registered and the value is KEY(t) XOR PSEQ[15:0]; a second correct one sets DUP for
the task; any other sets BADKEY for the task, or for task 15 when the task is not registered. While the CE
is held in reset, a seal finds task 0 present. -/
def Obligations.KeyWritesFollowPseq : Prop :=
  ∀ (s : State) (t : Fin 16) (v : Half), s.krgCounts = true →
    let ok := s.krg.reg.getLsbD t.val = true ∧ v = s.krg.keys[t] ^^^ s.krg.pseq.setWidth 16
    (ok → s.krg.given.getLsbD t.val = false →
      exec (.keyringKeyWrite t v) s = .next { s with krg := { s.krg with given := s.krg.given ||| (1#16 <<< t.val) } }) ∧
    (ok → s.krg.given.getLsbD t.val = true →
      exec (.keyringKeyWrite t v) s = .next { s with krg := { s.krg with dup := s.krg.dup ||| (1#16 <<< t.val) } }) ∧
    (¬ ok → exec (.keyringKeyWrite t v) s = .next { s with krg := { s.krg with
      bad := s.krg.bad ||| (1#16 <<< (if s.krg.reg.getLsbD t.val then t.val else 15)) } }) ∧
    (∀ c, s.fr.ceHalted = true → s.krg.st = .run → s.krg.reg &&& ~~~(s.krg.given ||| 1#16) = 0 → s.krg.bad = 0 → c < s.krgP →
      s.krgW ≤ c → ∃ u, exec (.keyringSeal c) s = .next u ∧ u.krg.st = .run ∧ u.krg.count = 0 ∧ u.krg.pseq = s.krg.pseq + 1)

/-- R549, R548: once Keyring has left OFF, nothing but a keep-alive POR and the power-up after it sets it to OFF. -/
def Obligations.NothingButAPorReturnsKeyringToOff : Prop :=
  ∀ (s t : State) (c : Instr), s.krg.st ≠ .off → c ≠ .keepAlivePor → c ≠ .powerUp → exec c s = .next t → t.krg.st ≠ .off

/-- R548, R553, R555-R557: tasks are registered in BOOT, or before the enable write, until the lock; the enable write starts RUN; an expiry is
a Keyring fault, counted, with FAULT_N set, and the fourth puts Keyring into SAFE; a clock that stops is replaced by the other. -/
def Obligations.KeyringEventsAct : Prop :=
  (∀ (s : State) (t : Fin 16) (k : Half), s.pw.logic = .running → s.krg.st = .boot ∨ s.krg.st = .off → s.krg.regLock = false →
    exec (.keyringRegister t k) s = .next { s with krg := { s.krg with
      reg := s.krg.reg ||| (1#16 <<< t.val), keys := s.krg.keys.set t.val k } }) ∧
  (∀ (s : State) (t : Fin 16) (k : Half), s.krg.regLock = true ∨ s.krg.st = .run → exec (.keyringRegister t k) s = .next s) ∧
  (∀ s : State, s.pw.logic = .running → s.krg.st = .off → s.otp.kstart = some true → exec .keyringEnable s =
    .next { s with krg := { s.krg with st := .run, count := 0, given := 0, bad := 0, dup := 0, goodCounts := 0 } }) ∧
  (∀ s : State, s.krgCounts = true → s.pw.mode = .start ∨ s.pw.mode = .run → s.krg.st = .boot → s.krg.rstCnt < 3 →
    ∃ t, exec .expire s = .next t ∧ t.krg.rstCnt = s.krg.rstCnt + 1 ∧ t.krg.lastKind = 2 ∧ t.krg.st = .boot ∧ t.pw.cause = 3 ∧
      t.pw.logic = .running ∧ t.hpt.getLsbD 7 = true) ∧
  (∀ s : State, s.krgCounts = true → s.pw.mode = .start ∨ s.pw.mode = .run → s.krg.st = .boot → 3 ≤ s.krg.rstCnt →
    ∃ t, exec .expire s = .next t ∧ t.krg.st = .safe ∧ t.pw.logic = .inReset) ∧
  (∀ s : State, s.krgCounts = true → 5 ≤ s.pw.step → s.krg.clkFail = false → ∃ t, exec .krgClock s = .next t ∧
    t.krg = { s.krg with clkMain := !s.krg.clkMain, clkFail := true } ∧ t.hpt.getLsbD 8 = true ∧ t.ch = s.ch)

/-! ### The SPI host port (11, 13, 22) -/

/-- R395, R427: each case makes a doorbell write of the SPI host a violation of kind DOORBELL that changes no Queue; a write of the present
completion head frees nothing and is no violation. -/
def Obligations.BadDoorbellIsAViolationAndIgnored : Prop :=
  ∀ (s : State) (q : Fin 32) (w : Word), s.live = true → s.upd.recovery = false →
    let k := s.qs[q]
    let i := w.toNat % 256
    let ours := k.path = .spi ∧ k.owner = s.srcOwner 0x400 ∧ (s.srcOwner 0x400).isSome = true
    let logged := fun (t : State) =>
      t.qs = s.qs ∧ t.qmem = s.qmem ∧ t.ch = s.ch ∧ t.spi.sts.getLsbD 31 = true ∧
      (s.vio.length < 32 → ∃ v, t.vio = s.vio ++ [v] ∧ v.kind = 3 ∧ v.path = 1 ∧ v.queue = q.val ∧ t.vioOver = s.vioOver) ∧
      (32 ≤ s.vio.length → t.vio = s.vio ∧ t.vioOver = min 65535 (s.vioOver + 1))
    ((k.depth ≤ i ∨ ¬ ours ∨ k.isEvent = true) → ∃ t, exec (.qmSqdb q w) s = .next t ∧ logged t) ∧
    ((k.depth ≤ i ∨ ¬ ours ∨ k.held < (i + k.depth - k.cqHead) % k.depth) → ∃ t, exec (.qmCqdb q w) s = .next t ∧ logged t) ∧
    (ours → i = k.cqHead → i < k.depth → ∃ t, exec (.qmCqdb q w) s = .next t ∧ t.vio = s.vio ∧ t.vioOver = s.vioOver ∧
      (t.qs[q]).cqHead = k.cqHead)

/-- R394, R396: a good submission doorbell makes (new tail − old tail) mod depth descriptors visible and sets the tail; a good
completion doorbell moves the completion head. No other Queue changes. -/
def Obligations.DoorbellsMoveTheirIndices : Prop :=
  (∀ (s : State) (q : Fin 32) (w : Word), s.live = true → s.upd.recovery = false → s.spiOwns q = true →
    w.toNat % 256 < (s.qs[q]).depth → (s.qs[q]).isEvent = false → ∃ t, exec (.qmSqdb q w) s = .next t ∧
      (t.qs[q]).sqTail = w.toNat % 256 ∧
      (t.qs[q]).vis.length = (s.qs[q]).vis.length + (w.toNat % 256 + (s.qs[q]).depth - (s.qs[q]).sqTail) % (s.qs[q]).depth ∧
      (∀ r, r ≠ q → t.qs[r] = s.qs[r]) ∧ t.vio = s.vio ∧ t.ch = s.ch) ∧
  (∀ (s : State) (q : Fin 32) (w : Word), s.live = true → s.upd.recovery = false → s.spiOwns q = true →
    w.toNat % 256 < (s.qs[q]).depth → (w.toNat % 256 + (s.qs[q]).depth - (s.qs[q]).cqHead) % (s.qs[q]).depth ≤ (s.qs[q]).held →
    ∃ t, exec (.qmCqdb q w) s = .next t ∧ (t.qs[q]).cqHead = w.toNat % 256 ∧ (∀ r, r ≠ q → t.qs[r] = s.qs[r]) ∧
      t.vio = s.vio ∧ t.ch = s.ch)

/-- R385, R399, R400, R428, R473, R638, Tables 11.7, 22.8, 22.10: EN and RESTART of QM_QCTLn act on a Queue of the SPI host and are violations of kind QCTL elsewhere;
QM_WINBASE takes bases up to 248; VIO_CTL clears the log for owner 0; HPT_FAULT clears the bits whose hold condition has ended; a frame before
step 4 or with the logic die not running carries nothing (R475). -/
def Obligations.HostPortRegistersAct : Prop :=
  (∀ (s : State) (q : Fin 32) (ie : Bool), s.live = true → s.spiOwns q = true → (s.qs[q]).st = .disabled →
    ∃ t, exec (.qmQctlEn q true ie) s = .next t ∧ (t.qs[q]).st = .run ∧ (t.qs[q]).ie = ie ∧ (t.qs[q]).sqHead = 0 ∧
      (t.qs[q]).sqTail = 0 ∧ (t.qs[q]).cqHead = 0 ∧ (t.qs[q]).cqTail = 0 ∧ (t.qs[q]).phase = true ∧ (t.qs[q]).cseq = 0 ∧
      (∀ r, r ≠ q → t.qs[r] = s.qs[r])) ∧
  (∀ (s : State) (q : Fin 32) (en ie : Bool), s.live = true → s.spiOwns q = false → ∃ t, exec (.qmQctlEn q en ie) s = .next t ∧
    t.qs = s.qs ∧ (s.vio.length < 32 → ∃ v, t.vio = s.vio ++ [v] ∧ v.kind = 8)) ∧
  (∀ (s : State) (q : Fin 32), s.live = true → s.spiOwns q = true → (s.qs[q]).st = .stopped →
    (s.qs[q]).isEvent = false → ∃ t, exec (.qmQctlRestart q) s = .next t ∧
      ((s.qs[q]).ctlWord % 2 = 1 → (t.qs[q]).st = .run ∧ (t.qs[q]).sqHead = 0 ∧ (t.qs[q]).vis = [])) ∧
  (∀ (s : State) (w : Word), s.live = true → w.toNat % 256 ≤ 248 → exec (.qmWinbase w) s =
    .next { s with spi := { s.spi with sts := 0 }, winBase := w.toNat % 256 }) ∧
  (∀ (s : State) (w : Word), s.live = true → 248 < w.toNat % 256 → ∃ t, exec (.qmWinbase w) s = .next t ∧ t.winBase = s.winBase) ∧
  (∀ s : State, s.live = true → s.srcOwner 0x400 = some 0 → exec .vioCtlClear s =
    .next { s with spi := { s.spi with sts := 0 }, vio := [], vioOver := 0 }) ∧
  (∀ (s : State) (w : Word) (b : Fin 9), s.live = true → ∃ t, exec (.hptFaultClear w) s = .next t ∧
    t.hpt.getLsbD b.val = (s.hpt.getLsbD b.val &&
      (!w.getLsbD b.val || s.faultHeld.getLsbD b.val || s.hptAt[b] == s.fr.count)) ∧ t.ch = s.ch ∧ t.qs = s.qs) ∧
  (∀ (s : State) (a : Half) (w : Word), s.pw.logic = .running → s.live = true → s.upd.recovery = false → a.toNat % 4 = 0 →
    0x8000 ≤ a.toNat → s.winOk (s.winOff a.toNat) true = true → exec (.registerWrite a w) s =
      .next { s with spi := { s.spi with sts := 0 }, qmem := memWriteL s.qmem (s.winOff a.toNat) (le 4 w.toNat) }) ∧
  (∀ (s : State) (ws : List Word) (m : Bool), s.pw.logic ≠ .running ∨ s.pw.step < 4 →
    exec (.spiFrame ws m) s = .next { s with spi := { s.spi with miso := [] } }) ∧
  (∀ (s : State) (ws : List Word) (m : Bool), s.pw.logic = .running → 4 ≤ s.pw.step → ∃ t, exec (.spiFrame ws m) s = .next t ∧
    t.spi.miso.length = ws.length ∧ t.spi.miso.head? = (if ws = [] then none else some (s.stsWord s.spi.sts [])))

/-! ### Network links and two-wire buses (13, 14) -/

/-- Received Euvos messages (R450, R454, R457, R459, Table 13.6): a frame that finds its lane full, does not verify, is fragmented, has a bad header or
length or an unknown type, or is not for this node, is dropped and counted in its row, and changes no Queue, no node and nothing of the pair; a packet
number that is not beyond the last of its channel does not verify (R450), and a frame of another EtherType or port is not taken (R457). A message on a link that is down, or before step 6, changes nothing. -/
def Obligations.ReceivedMessagesAct : Prop :=
  let dropped := fun (s t : State) (l : Link) (k : Nat) =>
    (t.net.drops = Vector.ofFn fun j => if j.val = linkIx l * 8 + k then min (2 ^ 32 - 1) (s.net.drops[j] + 1) else s.net.drops[j]) ∧
    t.qs = s.qs ∧ t.qmem = s.qmem ∧ t.hinge = s.hinge ∧ t.net.nodes = s.net.nodes
  (∀ (s : State) (m : NetMsg) (c : Instr), c ∈ [.commandMessage m, .echoReq m, .permit m, .revoke m, .failover m] → s.live = true →
    s.net.up m.link = true →
    (m.laneFull = true → ∃ t, exec c s = .next t ∧ dropped s t m.link 5) ∧
    (m.laneFull = false → s.macsecOk m = false → ∃ t, exec c s = .next t ∧ dropped s t m.link 0) ∧
    (m.secOk = false ∨ s.net.mka m.link ≠ 2 ∨
      (∃ x, (s.net.rxSc.find? fun x => x.link == m.link && x.sci == m.sci) = some x ∧ m.pn.toNat ≤ x.last) → s.macsecOk m = false) ∧
    (m.laneFull = false → s.macsecOk m = true → isEuvos m = false → ∃ t, exec c s = .next t ∧ t.net.drops = s.net.drops ∧
      t.qs = s.qs ∧ t.hinge = s.hinge ∧ t.net.nodes = s.net.nodes) ∧
    (m.laneFull = false → s.macsecOk m = true → isEuvos m = true →
      (m.ipBad = true → ∃ t, exec c s = .next t ∧ dropped s t m.link 4) ∧
      (m.ipBad = false → m.badHeader = true → ∃ t, exec c s = .next t ∧ dropped s t m.link 2) ∧
      (m.ipBad = false → m.badHeader = false → m.typeOk = false → ∃ t, exec c s = .next t ∧ dropped s t m.link 3) ∧
      (m.ipBad = false → m.badHeader = false → m.typeOk = true → m.badLen = true → ∃ t, exec c s = .next t ∧ dropped s t m.link 2) ∧
      (m.ipBad = false → m.badHeader = false → m.typeOk = true → m.badLen = false → s.badAddress m = true →
        ∃ t, exec c s = .next t ∧ dropped s t m.link 1))) ∧
  (∀ (s : State) (m : NetMsg) (c : Instr), c ∈ [.commandMessage m, .echoReq m, .permit m, .revoke m, .failover m] →
    s.live = false ∨ s.net.up m.link = false → exec c s = .next s)

/-- A COMMAND that passes the checks of Table 13.6 is written into the ring of its Queue at SQTAIL (R461-R463): the slot holds its opcode, TAG, TARGET
and PARAM, SQTAIL moves on by one, what is kept of the descriptor is its Frame, source, MSEQ and RLEN, the ring then holds one descriptor more, and no other
Queue, no Channel and no outstanding command changes. -/
def Obligations.CommandMessageEntersItsRing : Prop :=
  ∀ (s : State) (m : NetMsg) (q : Fin 32) (o : Fin 16) (off : Nat), s.live = true → s.net.up m.link = true → m.laneFull = false →
    s.macsecOk m = true → isEuvos m = true → m.ipBad = false → m.badHeader = false → m.typ = 1 → m.badLen = false → s.badAddress m = false →
    m.queue = q.val → s.srcOwner m.src = some o → (s.qs[q]).isEvent = false → (s.qs[q]).path = .network → (s.qs[q]).owner = some o →
    (s.qs[q]).st = .run → (s.qs[q]).disabling = false →
    ((s.qs[q]).recent.find? fun r => r.src == m.src && r.mseq.toNat == m.mseq) = none →
    (s.qs[q]).untaken + 1 < (s.qs[q]).depth → fitArea (s.qs[q]).areas m.areaUnits = some off →
    ∃ t, exec (.commandMessage m) s = .next t ∧ (t.qs[q]).sqTail = ((s.qs[q]).sqTail + 1) % (s.qs[q]).depth ∧
      (∃ v, (t.qs[q]).vis = (s.qs[q]).vis ++ [v] ∧ v.frame = s.fr.count ∧ v.src = m.src ∧ v.mseq = BitVec.ofNat 32 m.mseq ∧
        v.rlen = some (min 1024 m.rlen)) ∧
      (∀ r, r ≠ q → t.qs[r] = s.qs[r]) ∧ t.ch = s.ch ∧ t.outs = s.outs ∧
      ((s.qs[q]).sqHead < (s.qs[q]).depth → (s.qs[q]).sqTail < (s.qs[q]).depth → (t.qs[q]).untaken = (s.qs[q]).untaken + 1) ∧
      (memWf s.qmem = true → (s.qs[q]).sqTail < 256 →
        let slot := memReadN t.qmem (sqBase q + 64 * (s.qs[q]).sqTail) 64
        slot.take 2 = m.payload.take 2 ∧ (slot.drop 4).take 8 = (m.payload.drop 4).take 8 ∧
          slot.drop 16 = (m.payload.take 64).drop 16)

/-- Hinge and echo messages (R460, R503, R517): an ECHO_REQ is answered with its payload and MSEQ; a PERMIT of a new epoch from the arbiter sets
the permission, a REVOKE clears it, a FAILOVER makes a permitted STANDBY take over; an old epoch is counted and changes nothing. -/
def Obligations.EchoAndArbiterMessagesAct : Prop :=
  let goes := fun (s : State) (m : NetMsg) => s.live = true ∧ s.net.up m.link = true ∧ m.laneFull = false ∧ s.macsecOk m = true ∧ isEuvos m = true ∧
    m.ipBad = false ∧ m.badHeader = false ∧ m.badLen = false ∧ s.badAddress m = false
  let arbiter := fun (s : State) (m : NetMsg) (k : Nat) => m.typ = 6 ∧ s.hinge.hen = true ∧ s.hinge.euvos = true ∧
    m.src = s.hgf Fld.ARBNODE ∧ m.payload.length = 16 ∧ getLe m.payload 4 1 = k ∧ s.hinge.epoch.toNat < getLe m.payload 0 4
  (∀ (s : State) (m : NetMsg), goes s m → m.typ = 7 → exec (.echoReq m) s =
    .next (((s.rxPn m).netLearn m).sendMsg m.lane 8 m.src 0xFF 0 m.payload none false (some m.mseq))) ∧
  (∀ (s : State) (m : NetMsg), goes s m → arbiter s m 1 → ∃ t, exec (.permit m) s = .next t ∧ t.hinge.permitted = true ∧
    t.hinge.epoch.toNat = getLe m.payload 0 4 ∧ t.hinge.st = s.hinge.st ∧ t.ch = s.ch) ∧
  (∀ (s : State) (m : NetMsg), goes s m → arbiter s m 2 → ∃ t, exec (.revoke m) s = .next t ∧ t.hinge.permitted = false ∧
    t.hinge.epoch.toNat = getLe m.payload 0 4 ∧ t.hinge.st = s.hinge.st ∧ t.ch = s.ch) ∧
  (∀ (s : State) (m : NetMsg), goes s m → arbiter s m 3 → s.hinge.st = .standby → s.hinge.permitted = true →
    ∃ t, exec (.failover m) s = .next t ∧ t.hinge.st = .taking ∧ t.hinge.takeCause = 5 ∧ t.hinge.swap = false) ∧
  (∀ (s : State) (m : NetMsg), goes s m → m.typ = 6 → getLe m.payload 0 4 ≤ s.hinge.epoch.toNat →
    ∃ t, exec (.permit m) s = .next t ∧ exec (.revoke m) s = .next t ∧ exec (.failover m) s = .next t ∧ t.hinge = s.hinge ∧
      t.net.hingeDrops = s.net.hingeDrops + 1)

/-- Link events (R450, R451, R455, R456, R458, R459, R465, R467): a neighbour solicitation for the link-local address is answered by a tagged frame; an advertisement updates the MAC
address of the nodes it concerns; a link that comes up starts without a SAK; an MKA frame with a new SAK lets the link carry traffic, with no receive channel yet; a transmit
opportunity hands one message, the first of the highest lane, to the MAC with the next MSEQ. -/
def Obligations.LinkEventsAct : Prop :=
  (∀ (s : State) (l : Link) (src : BitVec 128) (mac : BitVec 48), s.live = true → s.net.carries l = true →
    exec (.neighbourSolicitation l (linkLocal (s.linkMac l)) src mac) s =
      .next { s with net := { s.net with nd := s.net.nd ++ [{
        link := l, solicit := false, target := linkLocal (s.linkMac l), dst := src, own := s.linkMac l, pcp := 2
        vlan := s.otp.vlan.getD 0, hop := 255 }] } }) ∧
  (∀ (s : State) (l : Link) (ip : BitVec 128) (mac : BitVec 48), s.live = true → s.net.carries l = true → ∃ t,
    exec (.neighbourAdvertisement l ip mac) s = .next t ∧ t.net.nodes.map (·.node) = s.net.nodes.map (·.node) ∧
      ∀ e ∈ t.net.nodes, ∀ p, e.link = l → e.encap = .udp ip p → e.mac = mac) ∧
  (∀ (s : State) (l : Link), s.live = true → s.net.up l = false → s.linkHeld l = false → ∃ t, exec (.linkState l true) s = .next t ∧
    t.net.up l = true ∧ t.net.mka l = 0 ∧ t.ch = s.ch ∧ t.qs = s.qs) ∧
  (∀ (s : State) (l : Link), s.live = true → s.net.up l = true → ∃ t, exec (.linkState l false) s = .next t ∧
    t.net.up l = false ∧ t.net.mka l = 0 ∧ t.ch = s.ch ∧ t.qs = s.qs) ∧
  (∀ (s : State) (l : Link), s.live = true → s.net.up l = true →
    (∃ t, exec (.mkaFrame l true) s = .next t ∧ t.net.carries l = true ∧ ∀ c ∈ t.net.rxSc, c.link ≠ l) ∧
    (∃ t, exec (.mkaFrame l false) s = .next t ∧ t.net.mka l = max 1 (s.net.mka l) ∧ t.net.nodes = s.net.nodes)) ∧
  (∀ (s : State) (m : TxMsg), s.live = true → s.net.carries .t1s = true → s.net.first .t1s = some m → ∃ t,
    exec .transmitOpportunity s = .next t ∧ t.net.mseq = s.net.mseq + 1 ∧
      (∃ b, t.net.sent = s.net.sent ++ [{ m with bytes := b, hdr := some (s.txHdr m) }] ∧
        (m.keepSeq = false → 12 ≤ m.bytes.length → getLe b 8 4 = s.net.mseq.toNat))) ∧
  (∀ s : State, s.net.first .t1s = none → exec .transmitOpportunity s = .next s)

/-- Two-wire transfers (R479, R481, R484, R486, Tables 14.3-14.5): before step 6 TW1 NACKs its address and counts it; a block whose count is outside 64-255 or
whose PEC is missing is discarded and counted; one with a wrong PEC is NACKed and counted; the response list is read in its order and its
first entry goes with a complete read; the summary word, the TW0 status block and its quick command are answered. -/
def Obligations.TwoWireTransfersAct : Prop :=
  (∀ (s : State) (a : Nat) (code : Byte) (n : Nat) (bs : List Byte) (pec : Option Byte), s.otp.tw1Addr = some a →
    (s.live = false → ∃ t, exec (.tw1BlockWrite code n bs pec) s = .next t ∧ t.tw.out = none ∧ t.tw.c1.nackWake = inc16 s.tw.c1.nackWake ∧
      t.qs = s.qs) ∧
    (s.live = true → 32 ≤ code.toNat → exec (.tw1BlockWrite code n bs pec) s = .next { s with tw := { s.tw with out := none } }) ∧
    (s.live = true → code.toNat < 32 → n < 64 ∨ 255 < n ∨ bs.length ≠ n ∨ pec = none → ∃ t,
      exec (.tw1BlockWrite code n bs pec) s = .next t ∧ t.tw.c1.format = inc16 s.tw.c1.format ∧ t.qs = s.qs ∧ t.qmem = s.qmem) ∧
    (s.live = true → code.toNat < 32 → 64 ≤ n → n ≤ 255 → bs.length = n → pec.isSome = true →
      pec ≠ some (crc8Smb (le 1 (a * 2) ++ [code] ++ le 1 n ++ bs)) → ∃ t, exec (.tw1BlockWrite code n bs pec) s = .next t ∧
        t.tw.c1.pecErr = inc16 s.tw.c1.pecErr ∧ t.tw.out = none ∧ t.qs = s.qs ∧ t.qmem = s.qmem) ∧
    (∀ h : code.toNat < 32, s.live = true → 64 ≤ n → n ≤ 255 → bs.length = n →
      pec = some (crc8Smb (le 1 (a * 2) ++ [code] ++ le 1 n ++ bs)) → exec (.tw1BlockWrite code n bs pec) s =
        .next (({ s with tw := { s.tw with out := some [] } }).twCommand ⟨code.toNat, h⟩ bs))) ∧
  (∀ (s : State) (a : Nat), s.otp.tw1Addr = some a → s.live = true →
    (s.tw.resp = [] → ∀ b, exec (.tw1BlockRead 0x40 b) s = .next { s with tw := { s.tw with out := some (blockReply a 0x40 []) } }) ∧
    (∀ e rest, s.tw.resp = e :: rest →
      exec (.tw1BlockRead 0x40 false) s =
        .next { s with tw := { s.tw with out := some (blockReply a 0x40 (le 1 e.kind ++ le 1 e.q.val ++ e.bytes)) } } ∧
      ∃ t, exec (.tw1BlockRead 0x40 true) s = .next t ∧ t.tw.resp = rest ∧
        t.tw.out = some (blockReply a 0x40 (le 1 e.kind ++ le 1 e.q.val ++ e.bytes))) ∧
    (let w := le 2 s.twSummary ++ [crc8Smb (le 1 (a * 2) ++ [0x41] ++ le 1 (a * 2 + 1) ++ le 2 s.twSummary)]
     exec (.tw1ReadWord 0x41) s = .next { s with tw := { s.tw with out := some w } }) ∧
    (∀ c b, c ≠ 0x40 → exec (.tw1BlockRead c b) s = .next { s with tw := { s.tw with out := none } }) ∧
    (∀ c, c ≠ 0x41 → exec (.tw1ReadWord c) s = .next { s with tw := { s.tw with out := none } })) ∧
  (∀ (s : State) (a : Nat), s.otp.tw0Addr = some a → s.live = true → s.pw.dormStep = 0 →
    exec (.tw0BlockRead 0) s = .next { s with tw := { s.tw with out := some (blockReply a 0 s.tw0Status) } } ∧
    exec .tw0QuickCommand s = .next { s with tw := { s.tw with out := some [] } } ∧
    (∀ c, c ≠ 0 → exec (.tw0BlockRead c) s = .next { s with tw := { s.tw with out := none } }))

/-- Two-wire errors and Host Notify (R485, R487-R491): each error is counted in its counter, which saturates; an acknowledged notify ends the case, a NACK
counts HN_FAIL, a lost arbitration records its position and is retried up to 8 times. -/
def Obligations.TwoWireErrorsAndNotifyAct : Prop :=
  (∀ (s : State) (b : Bus), s.live = true → (s.twAddr b).isSome = true →
    exec (.illegalStart b) s = .next (s.updCnt b fun c => { c with illegalStart := inc16 c.illegalStart })) ∧
  (∀ s : State, s.notifyOn = true → s.tw.notify = true → s.tw.losses < 7 → ∃ t, exec (.twBusError .tw1) s = .next t ∧
    t.tw.c1.busError = inc16 s.tw.c1.busError ∧ t.tw.notify = true ∧ t.tw.losses = s.tw.losses + 1) ∧
  (∀ (s : State) (b : Bus), s.live = true → (s.twAddr b).isSome = true → s.twSmbus b = true →
    exec (.twTimeout b false) s = .next (s.updCnt b fun c => { c with timeout := inc16 c.timeout })) ∧
  (∀ (s : State), s.notifyOn = true → s.tw.notify = true →
    (s.tw.losses = 0 → ∃ t, exec (.hostNotify .acked) s = .next t ∧ t.tw.notify = false ∧ t.tw.lastNotify = some s.fr.count ∧
      t.tw.resp = s.tw.resp) ∧
    (s.tw.losses = 0 → ∃ t, exec (.hostNotify .nacked) s = .next t ∧ t.tw.notify = false ∧ t.tw.c1.hnFail = inc16 s.tw.c1.hnFail) ∧
    (∀ (k : Nat) (i : Fin 8), s.tw.losses = 0 → ∃ t, exec (.hostNotify (.arbLost k i)) s = .next t ∧ t.tw.losses = 1 ∧
      t.tw.c1.arbLost = inc16 s.tw.c1.arbLost ∧ t.tw.c1.lastArb = BitVec.ofNat 16 (min 7 k * 256 + i.val)) ∧
    (s.tw.losses ≠ 0 → ∃ t, exec (.hostNotifyRetry .acked) s = .next t ∧ t.tw.notify = false ∧ t.tw.losses = 0) ∧
    (∀ (k : Nat) (i : Fin 8), s.tw.losses = 7 → ∃ t, exec (.hostNotifyRetry (.arbLost k i)) s = .next t ∧
      t.tw.notify = false ∧ t.tw.losses = 0 ∧ t.tw.c1.hnFail = inc16 s.tw.c1.hnFail))

/-! ### The Hinge pair (15) -/

/-- Permission and partner (R495, R497, R499, R503, R505, R510, Table 15.4): HINGE_GNT sets the permission under PIN; a partner's pulse ends a reset
hold; a link lost for 25 Frames is noted; a permitted STANDBY with a complete mirror takes over from an absent partner, and at a cold start; a
HANDING chip whose partner is gone goes back to ACTIVE; the former handing chip's converter begins to stop. -/
def Obligations.HingeEventsMoveThePair : Prop :=
  (∀ (s : State) (l : Bool), s.pw.mode ≠ .shutdown → s.pw.mode ≠ .off → s.pw.logic = .running → ∃ t, exec (.hingeGnt l) s = .next t ∧
    t.hinge.gntLevel = l ∧ t.hinge.permitted = (if s.hinge.euvos then s.hinge.permitted else l) ∧ t.hinge.st = s.hinge.st ∧
    t.ch = s.ch) ∧
  (∀ (s : State) (b : Bool), s.hinge.hen = true → s.hinge.st ≠ .handing → ∃ t, exec (.partnerPulse b) s = .next t ∧
    t.hinge.pulseEver = true ∧ t.hinge.resetHold = false ∧ t.hinge.partnerDrove = (s.hinge.partnerDrove || !b) ∧
    (b = true → t.hinge.holdNow = true) ∧ (b = false → t.hinge.pulseNow = true) ∧ t.hinge.st = s.hinge.st) ∧
  (∀ (s : State) (b : Bool), s.hinge.hen = false → exec (.partnerPulse b) s = .next s) ∧
  (∀ s : State, s.live = true → s.hinge.hen = true → s.hinge.linkUp = true → 25 ≤ s.hinge.missRun → ∃ t,
    exec .hingeLinkLost s = .next t ∧ t.hinge.linkUp = false ∧
    (s.hinge.st = .standby → s.hinge.noPulseRun = 0 → t.hinge.st = .out) ∧ (s.hinge.st ≠ .standby → t.hinge.st = s.hinge.st)) ∧
  (∀ s : State, s.live = true → s.hinge.st = .standby → s.hinge.permitted = true → s.hinge.partnerDrove = true →
    2 ≤ s.hinge.missRun → 2 ≤ s.hinge.noPulseRun → s.hinge.pulseNow = false → s.hinge.holdNow = false → s.hinge.gotBeat = false →
    s.hinge.mirror.complete = true → ∃ t, exec .partnerAbsent s = .next t ∧ t.hinge.st = .taking ∧ t.hinge.takeCause = 2 ∧
      t.ch = s.ch) ∧
  (∀ (s : State) (f : Nat), s.live = true → s.hinge.st = .standby → s.hinge.permitted = true → s.hinge.step17 = some f →
    f + (if s.primary then 0 else 250) ≤ s.fr.count → s.hinge.pulseEver = false → ∃ t, exec .coldStartTake s = .next t ∧
      t.hinge.st = .taking ∧ t.hinge.takeCause = 4 ∧ t.hinge.cold = true) ∧
  (∀ s : State, s.live = true → s.hinge.st = .handing → s.hinge.driving = true → 2 ≤ s.hinge.missRun → s.hinge.gotBeat = false →
    1 ≤ s.hinge.noPulseRun → s.hinge.pulseNow = false → s.hinge.holdNow = false → ∃ t, exec .handingRegain s = .next t ∧
      t.hinge.st = .active ∧ t.hinge.swap = false ∧ t.hinge.outRecs = [] ∧ t.hinge.nAborts = min 65535 (s.hinge.nAborts + 1)) ∧
  (∀ (s : State) (f : Nat), s.live = true → s.drives = false → s.hinge.handEnd = some f →
    s.hinge.partnerFlags.getLsbD 7 = true ∨ f ≤ s.fr.count → exec .converterHandoverEnd s =
      .next { s with hinge := { s.hinge with handEnd := none }, cv := { s.cv with dorm := some s.fr.count, shed := none } })

/-- Link frames (R500, R501, R506-R509, Table 15.2): a frame with a bad CRC is counted and carries nothing; a good one is a heartbeat that shows the partner;
an OFFER whose digest agrees takes a permitted STANDBY to TAKING, one that does not is answered with NAK; an ACK releases the outputs of a
HANDING chip at the next tick; RESYNC_END completes the mirror of a chip that does not drive. -/
def Obligations.LinkFramesAct : Prop :=
  let quiet := fun (s : State) (f : LinkFrame) => s.live = true ∧ s.hinge.hen = true ∧ f.crcOk = true ∧ s.hinge.linkUp = true ∧
    f.flags.getLsbD 1 = false ∧ f.state ≠ 1
  (∀ (s : State) (f : LinkFrame), s.live = true → s.hinge.hen = true → f.crcOk = false → ∃ t, exec (.heartbeat f) s = .next t ∧
    t.hinge.nCrc = min (2 ^ 32 - 1) (s.hinge.nCrc + 1) ∧ t.hinge.missRun = s.hinge.missRun ∧ t.hinge.gotBeat = s.hinge.gotBeat ∧
    t.ch = s.ch) ∧
  (∀ (s : State) (f : LinkFrame), quiet s f → f.recs = [] → ∃ t, exec (.heartbeat f) s = .next t ∧ t.hinge.gotBeat = true ∧
    t.hinge.missRun = 0 ∧ t.hinge.partner = f.state ∧ t.hinge.partnerFlags = f.flags ∧ t.hinge.st = s.hinge.st ∧ t.ch = s.ch) ∧
  (∀ (s : State) (f : LinkFrame) (n fr c : Word), quiet s f → f.recs = [.offer n fr c] → s.drives = false → s.hinge.st = .standby →
    s.hinge.permitted = true → s.hinge.accSeq.toNat < n.toNat → s.hinge.mirror.complete = true → s.hinge.mirror.seq = none →
    (c ≠ Config.targetCrc s.frozenTargets → ∃ t, exec (.offer f) s = .next t ∧ t.hinge.outRecs = s.hinge.outRecs ++ [.nak] ∧
      t.hinge.st = .standby) ∧
    (c = Config.targetCrc s.frozenTargets → ∃ t, exec (.offer f) s = .next t ∧ t.hinge.st = .taking ∧ t.hinge.swSeq = n ∧
      t.hinge.accSeq = n ∧ t.hinge.swap = true ∧ t.hinge.takeCause = 1)) ∧
  (∀ (s : State) (f : LinkFrame), quiet s f → f.recs = [.ack] → s.hinge.st = .handing → s.drives = true → ∃ t,
    exec (.ack f) s = .next t ∧ t.hinge.releaseNext = true ∧ t.hinge.st = .handing) ∧
  (∀ (s : State) (f : LinkFrame), quiet s f → f.recs = [.nak] → s.hinge.st = .handing → s.drives = true → ∃ t,
    exec (.nak f) s = .next t ∧ t.hinge.st = .handing ∧ (∃ r, t.hinge.outRecs = r ++ [s.offerRec])) ∧
  (∀ (s : State) (f : LinkFrame), quiet s f → f.recs = [.resyncEnd] → s.drives = false → s.hinge.st = .standby → ∃ t,
    exec (.resyncEnd f) s = .next t ∧ t.hinge.mirror.complete = true ∧ t.hinge.swSeq = f.swSeq ∧ t.hinge.accSeq = f.swSeq ∧
      t.hinge.st = .standby)

/-! ### USB PD ports (19) and update (20) -/

/-- Attach, detach and cable (R576, R578, R583, R586, R587): an attach in UNATTACHED leads to ATTACHED with the rail starting toward 5 V and the objects
advertised; Rd absent during TRANSITION holds the rail, and its return resumes; a detach voids the contract and leads to UNATTACHED; a VCONN
fault removes VCONN.
Moisture (R584, R585): a wet test in UNATTACHED leads to MOIST; three dry tests in a row there lead back; 600 wet tests in a row set CORROSION. -/
def Obligations.PdAttachDetachAndMoistureAct : Prop :=
  (
    (∀ (s : State) (p : Fin 2) (a : AttachIn), s.live = true → (s.pd[p]).st = .unattached → ∃ t, exec (.attach p a) s = .next t ∧
      (t.pd[p]).st = .attached ∧ (t.pd[p]).cc2 = a.cc2 ∧ (t.pd[p]).vconn = (s.pdf p Fld.VCONNEN == 1 && a.ra && a.vconnIn) ∧
      (t.pd[p]).life.attach = (s.pd[p]).life.attach + 1 ∧ (t.pd[p]).lastMsg = some .sourceCap ∧ (t.aux[pdRail p]).st = .start ∧
      (t.aux[pdRail p]).target = 500 ∧ (∀ r, r ≠ pdRail p → t.aux[r] = s.aux[r]) ∧ t.ch = s.ch) ∧
    (∀ (s : State) (p : Fin 2), s.live = true → (s.pd[p]).st = .transition → (s.pd[p]).rdGone = false → ∃ t,
      exec (.rdAbsent p) s = .next t ∧ (t.pd[p]).rdGone = true ∧ (t.pd[p]).st = .transition ∧ t.ch = s.ch) ∧
    (∀ (s : State) (p : Fin 2), s.live = true → (s.pd[p]).st = .transition → (s.pd[p]).rdGone = true → exec (.rdReturn p) s =
      .next ((s.updPd p fun k => { k with rdGone := false }).auxAim (pdRail p)
        (2 * (if (s.pd[p]).srcWait then (s.pd[p]).volt else (s.pd[p]).nextVolt)))) ∧
    (∀ (s : State) (p : Fin 2) (v : Nat), s.live = true → pdAttached (s.pd[p]).st = true → ∃ t, exec (.detach p v) s = .next t ∧
      (t.pd[p]).st = .unattached ∧ (t.pd[p]).obj = 0 ∧ (t.pd[p]).vconn = false ∧ (t.pd[p]).discharge = true ∧
      (t.aux[pdRail p]).st = .off ∧ t.ch = s.ch) ∧
    (∀ (s : State) (p : Fin 2), (s.pd[p]).vconn = true → exec (.vconnLimit p) s =
      .next (s.updPd p fun k => { k with vconn := false, cable5 := false })) ∧
    (∀ s : State, ∃ t, exec .vconnInputLow s = .next t ∧ (∀ p : Fin 2, (t.pd[p]).vconn = false ∧ (t.pd[p]).st = (s.pd[p]).st) ∧
      t.ch = s.ch)
  ) ∧ (
    ∀ (s : State) (p : Fin 2) (imp : Vector Nat 4), s.live = true → s.pdf p Fld.MOISTEN = 1 →
      let wet := ((s.pd[p]).pins.filter fun i => s.pinWet p imp i) ≠ []
      ((s.pd[p]).st = .unattached → wet → ∃ t, exec (.moistureTest p imp) s = .next t ∧ (t.pd[p]).st = .moist ∧
        (t.pd[p]).life.moist = (s.pd[p]).life.moist + 1) ∧
      ((s.pd[p]).st = .unattached → ¬ wet → ∃ t, exec (.moistureTest p imp) s = .next t ∧ (t.pd[p]).st = .unattached ∧
        (t.pd[p]).wetRun = 0) ∧
      ((s.pd[p]).st = .moist → ¬ wet → 2 ≤ (s.pd[p]).dryRun → ∃ t, exec (.moistureTest p imp) s = .next t ∧
        (t.pd[p]).st = .unattached) ∧
      ((s.pd[p]).st = .moist → ¬ wet → (s.pd[p]).dryRun < 2 → ∃ t, exec (.moistureTest p imp) s = .next t ∧
        (t.pd[p]).st = .moist ∧ (t.pd[p]).dryRun = (s.pd[p]).dryRun + 1) ∧
      ((s.pd[p]).st = .moist → wet → ∃ t, exec (.moistureTest p imp) s = .next t ∧ (t.pd[p]).st = .moist ∧ (t.pd[p]).dryRun = 0 ∧
        ((s.pd[p]).wetRun = 599 → (t.pd[p]).corrosion = true))
  )

/-- Contracts (R575, R578, R580, R581): a Request that names no advertised object is answered with Reject, one beyond the headroom with Wait, any other
with Accept; tSrcTransition moves the rail to the new voltage; a sink that does not answer leads to TYPEC_ONLY; a Hard Reset voids the contract; a
message outside the scope is answered with Not_Supported. -/
def Obligations.PdContractsAct : Prop :=
  (∀ (s : State) (p : Fin 2) (r : PdRequest), s.live = true → (s.pd[p]).st = .attached ∨ (s.pd[p]).st = .contract →
    (s.pd[p]).nextObj = 0 →
    (s.pdNamed p r = none → ∃ t, exec (.request p r) s = .next t ∧ (t.pd[p]).lastMsg = some .reject ∧
      (t.pd[p]).nMsgs = (s.pd[p]).nMsgs + 1 ∧ (t.pd[p]).st = (s.pd[p]).st ∧ (t.pd[p]).waits = 0 ∧ t.aux = s.aux) ∧
    (∀ o v, s.pdNamed p r = some (o, v) → s.pdMustWait p (pdWatt v r.cur - pdWatt (s.pd[p]).volt (s.pd[p]).cur) = false →
      ∃ t, exec (.request p r) s = .next t ∧ (t.pd[p]).lastMsg = some .accept ∧ (t.pd[p]).nextObj = r.obj ∧
        (t.pd[p]).nextVolt = v ∧ (t.pd[p]).nextCur = r.cur ∧ (t.pd[p]).srcWait = true ∧
        (t.pd[p]).st = (if (s.pd[p]).st = .contract then .transition else .attached) ∧ t.aux = s.aux) ∧
    (∀ o v, s.pdNamed p r = some (o, v) → s.pdMustWait p (pdWatt v r.cur - pdWatt (s.pd[p]).volt (s.pd[p]).cur) = true →
      (s.pd[p]).waits < 7 → ∃ t, exec (.request p r) s = .next t ∧ (t.pd[p]).lastMsg = some .wait ∧
        (t.pd[p]).waits = (s.pd[p]).waits + 1 ∧ (t.pd[p]).nextObj = 0)) ∧
  (∀ (s : State) (p : Fin 2), s.live = true → (s.pd[p]).nextObj ≠ 0 → (s.pd[p]).srcWait = true →
    (s.pd[p]).st = .transition ∨ (s.pd[p]).st = .attached → (s.pd[p]).rdGone = false → ∃ t, exec (.srcTransition p) s = .next t ∧
      (t.pd[p]).srcWait = false ∧ (t.aux[pdRail p]).target = 2 * (s.pd[p]).nextVolt ∧ (t.pd[p]).st = (s.pd[p]).st) ∧
  (∀ (s : State) (p : Fin 2), s.live = true → (s.pd[p]).st = .attached → (s.pd[p]).nextObj = 0 → ∃ t,
    exec (.noPdReply p) s = .next t ∧ (t.pd[p]).st = .typecOnly ∧ t.aux = s.aux) ∧
  (∀ (s : State) (p : Fin 2), s.live = true → (s.pd[p]).st = .contract → (s.pd[p]).pps = true ∨ 250 ≤ (s.pd[p]).ccPeriods → ∃ t,
    exec (.contractHardReset p) s = .next t ∧ (t.pd[p]).st = .attached ∧ (t.pd[p]).obj = 0 ∧
      (t.pd[p]).life.hard = (s.pd[p]).life.hard + 1 ∧ (t.aux[pdRail p]).target = 500) ∧
  (∀ (s : State) (p : Fin 2), s.live = true → pdAttached (s.pd[p]).st = true →
    (∀ b, exec (.pdReceivedMessage p (.other b)) s = .next (s.pdSend p .notSupported)) ∧
    exec (.pdReceivedMessage p .getStatus) s = .next (s.pdSend p .status) ∧
    exec (.pdReceivedMessage p .getSourceCapExtended) s = .next (s.pdSend p .sourceCapExtended) ∧
    exec (.pdReceivedMessage p .getPpsStatus) s = .next (s.pdSend p .ppsStatus) ∧
    exec (.pdReceivedMessage p .getSourceCap) s = .next (s.pdAdvertise p) ∧
    (∃ t, exec (.pdReceivedMessage p .hardReset) s = .next t ∧ (t.pd[p]).st = .attached ∧ (t.pd[p]).obj = 0))
end

