-- ==== Sys2Proof/Laws/State.lean ====
section
/-! SUPPORT. One lemma for each field after each small update of the state, so that no proof unfolds a record update. -/

namespace Sys2Proof.Machine

open Sys2Proof

variable (s : State)

@[simp] theorem State.updBat_pw (f : Bat → Bat) : (s.updBat f).pw = s.pw := rfl
@[simp] theorem State.updBat_clk (f : Bat → Bat) : (s.updBat f).clk = s.clk := rfl
@[simp] theorem State.updBat_fr (f : Bat → Bat) : (s.updBat f).fr = s.fr := rfl
@[simp] theorem State.updBat_pump (f : Bat → Bat) : (s.updBat f).pump = s.pump := rfl
@[simp] theorem State.updBat_settings (f : Bat → Bat) : (s.updBat f).settings = s.settings := rfl
@[simp] theorem State.updBat_staged (f : Bat → Bat) : (s.updBat f).staged = s.staged := rfl
@[simp] theorem State.updBat_ch (f : Bat → Bat) : (s.updBat f).ch = s.ch := rfl
@[simp] theorem State.updBat_adm (f : Bat → Bat) : (s.updBat f).adm = s.adm := rfl
@[simp] theorem State.updBat_grp (f : Bat → Bat) : (s.updBat f).grp = s.grp := rfl
@[simp] theorem State.updBat_g4 (f : Bat → Bat) : (s.updBat f).g4 = s.g4 := rfl
@[simp] theorem State.updBat_g4Ok (f : Bat → Bat) : (s.updBat f).g4Ok = s.g4Ok := rfl
@[simp] theorem State.updBat_hk (f : Bat → Bat) : (s.updBat f).hk = s.hk := rfl
@[simp] theorem State.updBat_cv (f : Bat → Bat) : (s.updBat f).cv = s.cv := rfl
@[simp] theorem State.updBat_aux (f : Bat → Bat) : (s.updBat f).aux = s.aux := rfl
@[simp] theorem State.updBat_inj (f : Bat → Bat) : (s.updBat f).inj = s.inj := rfl
@[simp] theorem State.updBat_zone (f : Bat → Bat) : (s.updBat f).zone = s.zone := rfl
@[simp] theorem State.updBat_bat (f : Bat → Bat) : (s.updBat f).bat = f s.bat := rfl
@[simp] theorem State.updBat_qs (f : Bat → Bat) : (s.updBat f).qs = s.qs := rfl
@[simp] theorem State.updBat_qmem (f : Bat → Bat) : (s.updBat f).qmem = s.qmem := rfl
@[simp] theorem State.updBat_winBase (f : Bat → Bat) : (s.updBat f).winBase = s.winBase := rfl
@[simp] theorem State.updBat_outs (f : Bat → Bat) : (s.updBat f).outs = s.outs := rfl
@[simp] theorem State.updBat_owners (f : Bat → Bat) : (s.updBat f).owners = s.owners := rfl
@[simp] theorem State.updBat_resOwner (f : Bat → Bat) : (s.updBat f).resOwner = s.resOwner := rfl
@[simp] theorem State.updBat_vio (f : Bat → Bat) : (s.updBat f).vio = s.vio := rfl
@[simp] theorem State.updBat_vioOver (f : Bat → Bat) : (s.updBat f).vioOver = s.vioOver := rfl
@[simp] theorem State.updBat_hpt (f : Bat → Bat) : (s.updBat f).hpt = s.hpt := rfl
@[simp] theorem State.updBat_hptAt (f : Bat → Bat) : (s.updBat f).hptAt = s.hptAt := rfl
@[simp] theorem State.updBat_nBeyond (f : Bat → Bat) : (s.updBat f).nBeyond = s.nBeyond := rfl
@[simp] theorem State.updBat_nLatMiss (f : Bat → Bat) : (s.updBat f).nLatMiss = s.nLatMiss := rfl
@[simp] theorem State.updBat_evDropped (f : Bat → Bat) : (s.updBat f).evDropped = s.evDropped := rfl
@[simp] theorem State.updBat_ccount (f : Bat → Bat) : (s.updBat f).ccount = s.ccount := rfl
@[simp] theorem State.updBat_ccountFirn (f : Bat → Bat) : (s.updBat f).ccountFirn = s.ccountFirn := rfl
@[simp] theorem State.updBat_ice (f : Bat → Bat) : (s.updBat f).ice = s.ice := rfl
@[simp] theorem State.updBat_net (f : Bat → Bat) : (s.updBat f).net = s.net := rfl
@[simp] theorem State.updBat_tw (f : Bat → Bat) : (s.updBat f).tw = s.tw := rfl
@[simp] theorem State.updBat_hinge (f : Bat → Bat) : (s.updBat f).hinge = s.hinge := rfl
@[simp] theorem State.updBat_tmb (f : Bat → Bat) : (s.updBat f).tmb = s.tmb := rfl
@[simp] theorem State.updBat_krg (f : Bat → Bat) : (s.updBat f).krg = s.krg := rfl
@[simp] theorem State.updBat_th (f : Bat → Bat) : (s.updBat f).th = s.th := rfl
@[simp] theorem State.updBat_pd (f : Bat → Bat) : (s.updBat f).pd = s.pd := rfl
@[simp] theorem State.updBat_upd (f : Bat → Bat) : (s.updBat f).upd = s.upd := rfl
@[simp] theorem State.updBat_otp (f : Bat → Bat) : (s.updBat f).otp = s.otp := rfl
@[simp] theorem State.updBat_spi (f : Bat → Bat) : (s.updBat f).spi = s.spi := rfl
@[simp] theorem State.updBat_cap (f : Bat → Bat) : (s.updBat f).cap = s.cap := rfl
@[simp] theorem State.updBat_snap0 (f : Bat → Bat) : (s.updBat f).snap0 = s.snap0 := rfl
@[simp] theorem State.updBat_snap1 (f : Bat → Bat) : (s.updBat f).snap1 = s.snap1 := rfl
@[simp] theorem State.updBat_snapSrc (f : Bat → Bat) : (s.updBat f).snapSrc = s.snapSrc := rfl
@[simp] theorem State.updBat_wmTrip (f : Bat → Bat) : (s.updBat f).wmTrip = s.wmTrip := rfl
@[simp] theorem State.updBat_wmRecDone (f : Bat → Bat) : (s.updBat f).wmRecDone = s.wmRecDone := rfl
@[simp] theorem State.updBat_acoh (f : Bat → Bat) : (s.updBat f).acoh = s.acoh := rfl
@[simp] theorem State.updBat_cvMarks (f : Bat → Bat) : (s.updBat f).cvMarks = s.cvMarks := rfl
@[simp] theorem State.updBat_mail (f : Bat → Bat) : (s.updBat f).mail = s.mail := rfl
@[simp] theorem State.updBat_mem (f : Bat → Bat) : (s.updBat f).mem = s.mem := rfl
@[simp] theorem State.updBat_linkLost (f : Bat → Bat) : (s.updBat f).linkLost = s.linkLost := rfl
@[simp] theorem State.updBat_s5Held (f : Bat → Bat) : (s.updBat f).s5Held = s.s5Held := rfl
@[simp] theorem State.updBat_rest (f : Bat → Bat) : (s.updBat f).rest = s.rest := rfl
@[simp] theorem State.updBat_promLost (f : Bat → Bat) : (s.updBat f).promLost = s.promLost := rfl
@[simp] theorem State.updBat_free (f : Bat → Bat) : (s.updBat f).free = s.free := rfl
@[simp] theorem State.updBat_pending (f : Bat → Bat) : (s.updBat f).pending = s.pending := rfl

@[simp] theorem State.updUpd_pw (f : Upd → Upd) : (s.updUpd f).pw = s.pw := rfl
@[simp] theorem State.updUpd_clk (f : Upd → Upd) : (s.updUpd f).clk = s.clk := rfl
@[simp] theorem State.updUpd_fr (f : Upd → Upd) : (s.updUpd f).fr = s.fr := rfl
@[simp] theorem State.updUpd_pump (f : Upd → Upd) : (s.updUpd f).pump = s.pump := rfl
@[simp] theorem State.updUpd_settings (f : Upd → Upd) : (s.updUpd f).settings = s.settings := rfl
@[simp] theorem State.updUpd_staged (f : Upd → Upd) : (s.updUpd f).staged = s.staged := rfl
@[simp] theorem State.updUpd_ch (f : Upd → Upd) : (s.updUpd f).ch = s.ch := rfl
@[simp] theorem State.updUpd_adm (f : Upd → Upd) : (s.updUpd f).adm = s.adm := rfl
@[simp] theorem State.updUpd_grp (f : Upd → Upd) : (s.updUpd f).grp = s.grp := rfl
@[simp] theorem State.updUpd_g4 (f : Upd → Upd) : (s.updUpd f).g4 = s.g4 := rfl
@[simp] theorem State.updUpd_g4Ok (f : Upd → Upd) : (s.updUpd f).g4Ok = s.g4Ok := rfl
@[simp] theorem State.updUpd_hk (f : Upd → Upd) : (s.updUpd f).hk = s.hk := rfl
@[simp] theorem State.updUpd_cv (f : Upd → Upd) : (s.updUpd f).cv = s.cv := rfl
@[simp] theorem State.updUpd_aux (f : Upd → Upd) : (s.updUpd f).aux = s.aux := rfl
@[simp] theorem State.updUpd_inj (f : Upd → Upd) : (s.updUpd f).inj = s.inj := rfl
@[simp] theorem State.updUpd_zone (f : Upd → Upd) : (s.updUpd f).zone = s.zone := rfl
@[simp] theorem State.updUpd_bat (f : Upd → Upd) : (s.updUpd f).bat = s.bat := rfl
@[simp] theorem State.updUpd_qs (f : Upd → Upd) : (s.updUpd f).qs = s.qs := rfl
@[simp] theorem State.updUpd_qmem (f : Upd → Upd) : (s.updUpd f).qmem = s.qmem := rfl
@[simp] theorem State.updUpd_winBase (f : Upd → Upd) : (s.updUpd f).winBase = s.winBase := rfl
@[simp] theorem State.updUpd_outs (f : Upd → Upd) : (s.updUpd f).outs = s.outs := rfl
@[simp] theorem State.updUpd_owners (f : Upd → Upd) : (s.updUpd f).owners = s.owners := rfl
@[simp] theorem State.updUpd_resOwner (f : Upd → Upd) : (s.updUpd f).resOwner = s.resOwner := rfl
@[simp] theorem State.updUpd_vio (f : Upd → Upd) : (s.updUpd f).vio = s.vio := rfl
@[simp] theorem State.updUpd_vioOver (f : Upd → Upd) : (s.updUpd f).vioOver = s.vioOver := rfl
@[simp] theorem State.updUpd_hpt (f : Upd → Upd) : (s.updUpd f).hpt = s.hpt := rfl
@[simp] theorem State.updUpd_hptAt (f : Upd → Upd) : (s.updUpd f).hptAt = s.hptAt := rfl
@[simp] theorem State.updUpd_nBeyond (f : Upd → Upd) : (s.updUpd f).nBeyond = s.nBeyond := rfl
@[simp] theorem State.updUpd_nLatMiss (f : Upd → Upd) : (s.updUpd f).nLatMiss = s.nLatMiss := rfl
@[simp] theorem State.updUpd_evDropped (f : Upd → Upd) : (s.updUpd f).evDropped = s.evDropped := rfl
@[simp] theorem State.updUpd_ccount (f : Upd → Upd) : (s.updUpd f).ccount = s.ccount := rfl
@[simp] theorem State.updUpd_ccountFirn (f : Upd → Upd) : (s.updUpd f).ccountFirn = s.ccountFirn := rfl
@[simp] theorem State.updUpd_ice (f : Upd → Upd) : (s.updUpd f).ice = s.ice := rfl
@[simp] theorem State.updUpd_net (f : Upd → Upd) : (s.updUpd f).net = s.net := rfl
@[simp] theorem State.updUpd_tw (f : Upd → Upd) : (s.updUpd f).tw = s.tw := rfl
@[simp] theorem State.updUpd_hinge (f : Upd → Upd) : (s.updUpd f).hinge = s.hinge := rfl
@[simp] theorem State.updUpd_tmb (f : Upd → Upd) : (s.updUpd f).tmb = s.tmb := rfl
@[simp] theorem State.updUpd_krg (f : Upd → Upd) : (s.updUpd f).krg = s.krg := rfl
@[simp] theorem State.updUpd_th (f : Upd → Upd) : (s.updUpd f).th = s.th := rfl
@[simp] theorem State.updUpd_pd (f : Upd → Upd) : (s.updUpd f).pd = s.pd := rfl
@[simp] theorem State.updUpd_upd (f : Upd → Upd) : (s.updUpd f).upd = f s.upd := rfl
@[simp] theorem State.updUpd_otp (f : Upd → Upd) : (s.updUpd f).otp = s.otp := rfl
@[simp] theorem State.updUpd_spi (f : Upd → Upd) : (s.updUpd f).spi = s.spi := rfl
@[simp] theorem State.updUpd_cap (f : Upd → Upd) : (s.updUpd f).cap = s.cap := rfl
@[simp] theorem State.updUpd_snap0 (f : Upd → Upd) : (s.updUpd f).snap0 = s.snap0 := rfl
@[simp] theorem State.updUpd_snap1 (f : Upd → Upd) : (s.updUpd f).snap1 = s.snap1 := rfl
@[simp] theorem State.updUpd_snapSrc (f : Upd → Upd) : (s.updUpd f).snapSrc = s.snapSrc := rfl
@[simp] theorem State.updUpd_wmTrip (f : Upd → Upd) : (s.updUpd f).wmTrip = s.wmTrip := rfl
@[simp] theorem State.updUpd_wmRecDone (f : Upd → Upd) : (s.updUpd f).wmRecDone = s.wmRecDone := rfl
@[simp] theorem State.updUpd_acoh (f : Upd → Upd) : (s.updUpd f).acoh = s.acoh := rfl
@[simp] theorem State.updUpd_cvMarks (f : Upd → Upd) : (s.updUpd f).cvMarks = s.cvMarks := rfl
@[simp] theorem State.updUpd_mail (f : Upd → Upd) : (s.updUpd f).mail = s.mail := rfl
@[simp] theorem State.updUpd_mem (f : Upd → Upd) : (s.updUpd f).mem = s.mem := rfl
@[simp] theorem State.updUpd_linkLost (f : Upd → Upd) : (s.updUpd f).linkLost = s.linkLost := rfl
@[simp] theorem State.updUpd_s5Held (f : Upd → Upd) : (s.updUpd f).s5Held = s.s5Held := rfl
@[simp] theorem State.updUpd_rest (f : Upd → Upd) : (s.updUpd f).rest = s.rest := rfl
@[simp] theorem State.updUpd_promLost (f : Upd → Upd) : (s.updUpd f).promLost = s.promLost := rfl
@[simp] theorem State.updUpd_free (f : Upd → Upd) : (s.updUpd f).free = s.free := rfl
@[simp] theorem State.updUpd_pending (f : Upd → Upd) : (s.updUpd f).pending = s.pending := rfl

@[simp] theorem State.updCv_pw (f : Conv → Conv) : (s.updCv f).pw = s.pw := rfl
@[simp] theorem State.updCv_clk (f : Conv → Conv) : (s.updCv f).clk = s.clk := rfl
@[simp] theorem State.updCv_fr (f : Conv → Conv) : (s.updCv f).fr = s.fr := rfl
@[simp] theorem State.updCv_pump (f : Conv → Conv) : (s.updCv f).pump = s.pump := rfl
@[simp] theorem State.updCv_settings (f : Conv → Conv) : (s.updCv f).settings = s.settings := rfl
@[simp] theorem State.updCv_staged (f : Conv → Conv) : (s.updCv f).staged = s.staged := rfl
@[simp] theorem State.updCv_ch (f : Conv → Conv) : (s.updCv f).ch = s.ch := rfl
@[simp] theorem State.updCv_adm (f : Conv → Conv) : (s.updCv f).adm = s.adm := rfl
@[simp] theorem State.updCv_grp (f : Conv → Conv) : (s.updCv f).grp = s.grp := rfl
@[simp] theorem State.updCv_g4 (f : Conv → Conv) : (s.updCv f).g4 = s.g4 := rfl
@[simp] theorem State.updCv_g4Ok (f : Conv → Conv) : (s.updCv f).g4Ok = s.g4Ok := rfl
@[simp] theorem State.updCv_hk (f : Conv → Conv) : (s.updCv f).hk = s.hk := rfl
@[simp] theorem State.updCv_cv (f : Conv → Conv) : (s.updCv f).cv = f s.cv := rfl
@[simp] theorem State.updCv_aux (f : Conv → Conv) : (s.updCv f).aux = s.aux := rfl
@[simp] theorem State.updCv_inj (f : Conv → Conv) : (s.updCv f).inj = s.inj := rfl
@[simp] theorem State.updCv_zone (f : Conv → Conv) : (s.updCv f).zone = s.zone := rfl
@[simp] theorem State.updCv_bat (f : Conv → Conv) : (s.updCv f).bat = s.bat := rfl
@[simp] theorem State.updCv_qs (f : Conv → Conv) : (s.updCv f).qs = s.qs := rfl
@[simp] theorem State.updCv_qmem (f : Conv → Conv) : (s.updCv f).qmem = s.qmem := rfl
@[simp] theorem State.updCv_winBase (f : Conv → Conv) : (s.updCv f).winBase = s.winBase := rfl
@[simp] theorem State.updCv_outs (f : Conv → Conv) : (s.updCv f).outs = s.outs := rfl
@[simp] theorem State.updCv_owners (f : Conv → Conv) : (s.updCv f).owners = s.owners := rfl
@[simp] theorem State.updCv_resOwner (f : Conv → Conv) : (s.updCv f).resOwner = s.resOwner := rfl
@[simp] theorem State.updCv_vio (f : Conv → Conv) : (s.updCv f).vio = s.vio := rfl
@[simp] theorem State.updCv_vioOver (f : Conv → Conv) : (s.updCv f).vioOver = s.vioOver := rfl
@[simp] theorem State.updCv_hpt (f : Conv → Conv) : (s.updCv f).hpt = s.hpt := rfl
@[simp] theorem State.updCv_hptAt (f : Conv → Conv) : (s.updCv f).hptAt = s.hptAt := rfl
@[simp] theorem State.updCv_nBeyond (f : Conv → Conv) : (s.updCv f).nBeyond = s.nBeyond := rfl
@[simp] theorem State.updCv_nLatMiss (f : Conv → Conv) : (s.updCv f).nLatMiss = s.nLatMiss := rfl
@[simp] theorem State.updCv_evDropped (f : Conv → Conv) : (s.updCv f).evDropped = s.evDropped := rfl
@[simp] theorem State.updCv_ccount (f : Conv → Conv) : (s.updCv f).ccount = s.ccount := rfl
@[simp] theorem State.updCv_ccountFirn (f : Conv → Conv) : (s.updCv f).ccountFirn = s.ccountFirn := rfl
@[simp] theorem State.updCv_ice (f : Conv → Conv) : (s.updCv f).ice = s.ice := rfl
@[simp] theorem State.updCv_net (f : Conv → Conv) : (s.updCv f).net = s.net := rfl
@[simp] theorem State.updCv_tw (f : Conv → Conv) : (s.updCv f).tw = s.tw := rfl
@[simp] theorem State.updCv_hinge (f : Conv → Conv) : (s.updCv f).hinge = s.hinge := rfl
@[simp] theorem State.updCv_tmb (f : Conv → Conv) : (s.updCv f).tmb = s.tmb := rfl
@[simp] theorem State.updCv_krg (f : Conv → Conv) : (s.updCv f).krg = s.krg := rfl
@[simp] theorem State.updCv_th (f : Conv → Conv) : (s.updCv f).th = s.th := rfl
@[simp] theorem State.updCv_pd (f : Conv → Conv) : (s.updCv f).pd = s.pd := rfl
@[simp] theorem State.updCv_upd (f : Conv → Conv) : (s.updCv f).upd = s.upd := rfl
@[simp] theorem State.updCv_otp (f : Conv → Conv) : (s.updCv f).otp = s.otp := rfl
@[simp] theorem State.updCv_spi (f : Conv → Conv) : (s.updCv f).spi = s.spi := rfl
@[simp] theorem State.updCv_cap (f : Conv → Conv) : (s.updCv f).cap = s.cap := rfl
@[simp] theorem State.updCv_snap0 (f : Conv → Conv) : (s.updCv f).snap0 = s.snap0 := rfl
@[simp] theorem State.updCv_snap1 (f : Conv → Conv) : (s.updCv f).snap1 = s.snap1 := rfl
@[simp] theorem State.updCv_snapSrc (f : Conv → Conv) : (s.updCv f).snapSrc = s.snapSrc := rfl
@[simp] theorem State.updCv_wmTrip (f : Conv → Conv) : (s.updCv f).wmTrip = s.wmTrip := rfl
@[simp] theorem State.updCv_wmRecDone (f : Conv → Conv) : (s.updCv f).wmRecDone = s.wmRecDone := rfl
@[simp] theorem State.updCv_acoh (f : Conv → Conv) : (s.updCv f).acoh = s.acoh := rfl
@[simp] theorem State.updCv_cvMarks (f : Conv → Conv) : (s.updCv f).cvMarks = s.cvMarks := rfl
@[simp] theorem State.updCv_mail (f : Conv → Conv) : (s.updCv f).mail = s.mail := rfl
@[simp] theorem State.updCv_mem (f : Conv → Conv) : (s.updCv f).mem = s.mem := rfl
@[simp] theorem State.updCv_linkLost (f : Conv → Conv) : (s.updCv f).linkLost = s.linkLost := rfl
@[simp] theorem State.updCv_s5Held (f : Conv → Conv) : (s.updCv f).s5Held = s.s5Held := rfl
@[simp] theorem State.updCv_rest (f : Conv → Conv) : (s.updCv f).rest = s.rest := rfl
@[simp] theorem State.updCv_promLost (f : Conv → Conv) : (s.updCv f).promLost = s.promLost := rfl
@[simp] theorem State.updCv_free (f : Conv → Conv) : (s.updCv f).free = s.free := rfl
@[simp] theorem State.updCv_pending (f : Conv → Conv) : (s.updCv f).pending = s.pending := rfl

@[simp] theorem State.updHinge_pw (f : Hinge → Hinge) : (s.updHinge f).pw = s.pw := rfl
@[simp] theorem State.updHinge_clk (f : Hinge → Hinge) : (s.updHinge f).clk = s.clk := rfl
@[simp] theorem State.updHinge_fr (f : Hinge → Hinge) : (s.updHinge f).fr = s.fr := rfl
@[simp] theorem State.updHinge_pump (f : Hinge → Hinge) : (s.updHinge f).pump = s.pump := rfl
@[simp] theorem State.updHinge_settings (f : Hinge → Hinge) : (s.updHinge f).settings = s.settings := rfl
@[simp] theorem State.updHinge_staged (f : Hinge → Hinge) : (s.updHinge f).staged = s.staged := rfl
@[simp] theorem State.updHinge_ch (f : Hinge → Hinge) : (s.updHinge f).ch = s.ch := rfl
@[simp] theorem State.updHinge_adm (f : Hinge → Hinge) : (s.updHinge f).adm = s.adm := rfl
@[simp] theorem State.updHinge_grp (f : Hinge → Hinge) : (s.updHinge f).grp = s.grp := rfl
@[simp] theorem State.updHinge_g4 (f : Hinge → Hinge) : (s.updHinge f).g4 = s.g4 := rfl
@[simp] theorem State.updHinge_g4Ok (f : Hinge → Hinge) : (s.updHinge f).g4Ok = s.g4Ok := rfl
@[simp] theorem State.updHinge_hk (f : Hinge → Hinge) : (s.updHinge f).hk = s.hk := rfl
@[simp] theorem State.updHinge_cv (f : Hinge → Hinge) : (s.updHinge f).cv = s.cv := rfl
@[simp] theorem State.updHinge_aux (f : Hinge → Hinge) : (s.updHinge f).aux = s.aux := rfl
@[simp] theorem State.updHinge_inj (f : Hinge → Hinge) : (s.updHinge f).inj = s.inj := rfl
@[simp] theorem State.updHinge_zone (f : Hinge → Hinge) : (s.updHinge f).zone = s.zone := rfl
@[simp] theorem State.updHinge_bat (f : Hinge → Hinge) : (s.updHinge f).bat = s.bat := rfl
@[simp] theorem State.updHinge_qs (f : Hinge → Hinge) : (s.updHinge f).qs = s.qs := rfl
@[simp] theorem State.updHinge_qmem (f : Hinge → Hinge) : (s.updHinge f).qmem = s.qmem := rfl
@[simp] theorem State.updHinge_winBase (f : Hinge → Hinge) : (s.updHinge f).winBase = s.winBase := rfl
@[simp] theorem State.updHinge_outs (f : Hinge → Hinge) : (s.updHinge f).outs = s.outs := rfl
@[simp] theorem State.updHinge_owners (f : Hinge → Hinge) : (s.updHinge f).owners = s.owners := rfl
@[simp] theorem State.updHinge_resOwner (f : Hinge → Hinge) : (s.updHinge f).resOwner = s.resOwner := rfl
@[simp] theorem State.updHinge_vio (f : Hinge → Hinge) : (s.updHinge f).vio = s.vio := rfl
@[simp] theorem State.updHinge_vioOver (f : Hinge → Hinge) : (s.updHinge f).vioOver = s.vioOver := rfl
@[simp] theorem State.updHinge_hpt (f : Hinge → Hinge) : (s.updHinge f).hpt = s.hpt := rfl
@[simp] theorem State.updHinge_hptAt (f : Hinge → Hinge) : (s.updHinge f).hptAt = s.hptAt := rfl
@[simp] theorem State.updHinge_nBeyond (f : Hinge → Hinge) : (s.updHinge f).nBeyond = s.nBeyond := rfl
@[simp] theorem State.updHinge_nLatMiss (f : Hinge → Hinge) : (s.updHinge f).nLatMiss = s.nLatMiss := rfl
@[simp] theorem State.updHinge_evDropped (f : Hinge → Hinge) : (s.updHinge f).evDropped = s.evDropped := rfl
@[simp] theorem State.updHinge_ccount (f : Hinge → Hinge) : (s.updHinge f).ccount = s.ccount := rfl
@[simp] theorem State.updHinge_ccountFirn (f : Hinge → Hinge) : (s.updHinge f).ccountFirn = s.ccountFirn := rfl
@[simp] theorem State.updHinge_ice (f : Hinge → Hinge) : (s.updHinge f).ice = s.ice := rfl
@[simp] theorem State.updHinge_net (f : Hinge → Hinge) : (s.updHinge f).net = s.net := rfl
@[simp] theorem State.updHinge_tw (f : Hinge → Hinge) : (s.updHinge f).tw = s.tw := rfl
@[simp] theorem State.updHinge_hinge (f : Hinge → Hinge) : (s.updHinge f).hinge = f s.hinge := rfl
@[simp] theorem State.updHinge_tmb (f : Hinge → Hinge) : (s.updHinge f).tmb = s.tmb := rfl
@[simp] theorem State.updHinge_krg (f : Hinge → Hinge) : (s.updHinge f).krg = s.krg := rfl
@[simp] theorem State.updHinge_th (f : Hinge → Hinge) : (s.updHinge f).th = s.th := rfl
@[simp] theorem State.updHinge_pd (f : Hinge → Hinge) : (s.updHinge f).pd = s.pd := rfl
@[simp] theorem State.updHinge_upd (f : Hinge → Hinge) : (s.updHinge f).upd = s.upd := rfl
@[simp] theorem State.updHinge_otp (f : Hinge → Hinge) : (s.updHinge f).otp = s.otp := rfl
@[simp] theorem State.updHinge_spi (f : Hinge → Hinge) : (s.updHinge f).spi = s.spi := rfl
@[simp] theorem State.updHinge_cap (f : Hinge → Hinge) : (s.updHinge f).cap = s.cap := rfl
@[simp] theorem State.updHinge_snap0 (f : Hinge → Hinge) : (s.updHinge f).snap0 = s.snap0 := rfl
@[simp] theorem State.updHinge_snap1 (f : Hinge → Hinge) : (s.updHinge f).snap1 = s.snap1 := rfl
@[simp] theorem State.updHinge_snapSrc (f : Hinge → Hinge) : (s.updHinge f).snapSrc = s.snapSrc := rfl
@[simp] theorem State.updHinge_wmTrip (f : Hinge → Hinge) : (s.updHinge f).wmTrip = s.wmTrip := rfl
@[simp] theorem State.updHinge_wmRecDone (f : Hinge → Hinge) : (s.updHinge f).wmRecDone = s.wmRecDone := rfl
@[simp] theorem State.updHinge_acoh (f : Hinge → Hinge) : (s.updHinge f).acoh = s.acoh := rfl
@[simp] theorem State.updHinge_cvMarks (f : Hinge → Hinge) : (s.updHinge f).cvMarks = s.cvMarks := rfl
@[simp] theorem State.updHinge_mail (f : Hinge → Hinge) : (s.updHinge f).mail = s.mail := rfl
@[simp] theorem State.updHinge_mem (f : Hinge → Hinge) : (s.updHinge f).mem = s.mem := rfl
@[simp] theorem State.updHinge_linkLost (f : Hinge → Hinge) : (s.updHinge f).linkLost = s.linkLost := rfl
@[simp] theorem State.updHinge_s5Held (f : Hinge → Hinge) : (s.updHinge f).s5Held = s.s5Held := rfl
@[simp] theorem State.updHinge_rest (f : Hinge → Hinge) : (s.updHinge f).rest = s.rest := rfl
@[simp] theorem State.updHinge_promLost (f : Hinge → Hinge) : (s.updHinge f).promLost = s.promLost := rfl
@[simp] theorem State.updHinge_free (f : Hinge → Hinge) : (s.updHinge f).free = s.free := rfl
@[simp] theorem State.updHinge_pending (f : Hinge → Hinge) : (s.updHinge f).pending = s.pending := rfl

@[simp] theorem State.updIce_pw (f : Ice → Ice) : (s.updIce f).pw = s.pw := rfl
@[simp] theorem State.updIce_clk (f : Ice → Ice) : (s.updIce f).clk = s.clk := rfl
@[simp] theorem State.updIce_fr (f : Ice → Ice) : (s.updIce f).fr = s.fr := rfl
@[simp] theorem State.updIce_pump (f : Ice → Ice) : (s.updIce f).pump = s.pump := rfl
@[simp] theorem State.updIce_settings (f : Ice → Ice) : (s.updIce f).settings = s.settings := rfl
@[simp] theorem State.updIce_staged (f : Ice → Ice) : (s.updIce f).staged = s.staged := rfl
@[simp] theorem State.updIce_ch (f : Ice → Ice) : (s.updIce f).ch = s.ch := rfl
@[simp] theorem State.updIce_adm (f : Ice → Ice) : (s.updIce f).adm = s.adm := rfl
@[simp] theorem State.updIce_grp (f : Ice → Ice) : (s.updIce f).grp = s.grp := rfl
@[simp] theorem State.updIce_g4 (f : Ice → Ice) : (s.updIce f).g4 = s.g4 := rfl
@[simp] theorem State.updIce_g4Ok (f : Ice → Ice) : (s.updIce f).g4Ok = s.g4Ok := rfl
@[simp] theorem State.updIce_hk (f : Ice → Ice) : (s.updIce f).hk = s.hk := rfl
@[simp] theorem State.updIce_cv (f : Ice → Ice) : (s.updIce f).cv = s.cv := rfl
@[simp] theorem State.updIce_aux (f : Ice → Ice) : (s.updIce f).aux = s.aux := rfl
@[simp] theorem State.updIce_inj (f : Ice → Ice) : (s.updIce f).inj = s.inj := rfl
@[simp] theorem State.updIce_zone (f : Ice → Ice) : (s.updIce f).zone = s.zone := rfl
@[simp] theorem State.updIce_bat (f : Ice → Ice) : (s.updIce f).bat = s.bat := rfl
@[simp] theorem State.updIce_qs (f : Ice → Ice) : (s.updIce f).qs = s.qs := rfl
@[simp] theorem State.updIce_qmem (f : Ice → Ice) : (s.updIce f).qmem = s.qmem := rfl
@[simp] theorem State.updIce_winBase (f : Ice → Ice) : (s.updIce f).winBase = s.winBase := rfl
@[simp] theorem State.updIce_outs (f : Ice → Ice) : (s.updIce f).outs = s.outs := rfl
@[simp] theorem State.updIce_owners (f : Ice → Ice) : (s.updIce f).owners = s.owners := rfl
@[simp] theorem State.updIce_resOwner (f : Ice → Ice) : (s.updIce f).resOwner = s.resOwner := rfl
@[simp] theorem State.updIce_vio (f : Ice → Ice) : (s.updIce f).vio = s.vio := rfl
@[simp] theorem State.updIce_vioOver (f : Ice → Ice) : (s.updIce f).vioOver = s.vioOver := rfl
@[simp] theorem State.updIce_hpt (f : Ice → Ice) : (s.updIce f).hpt = s.hpt := rfl
@[simp] theorem State.updIce_hptAt (f : Ice → Ice) : (s.updIce f).hptAt = s.hptAt := rfl
@[simp] theorem State.updIce_nBeyond (f : Ice → Ice) : (s.updIce f).nBeyond = s.nBeyond := rfl
@[simp] theorem State.updIce_nLatMiss (f : Ice → Ice) : (s.updIce f).nLatMiss = s.nLatMiss := rfl
@[simp] theorem State.updIce_evDropped (f : Ice → Ice) : (s.updIce f).evDropped = s.evDropped := rfl
@[simp] theorem State.updIce_ccount (f : Ice → Ice) : (s.updIce f).ccount = s.ccount := rfl
@[simp] theorem State.updIce_ccountFirn (f : Ice → Ice) : (s.updIce f).ccountFirn = s.ccountFirn := rfl
@[simp] theorem State.updIce_ice (f : Ice → Ice) : (s.updIce f).ice = f s.ice := rfl
@[simp] theorem State.updIce_net (f : Ice → Ice) : (s.updIce f).net = s.net := rfl
@[simp] theorem State.updIce_tw (f : Ice → Ice) : (s.updIce f).tw = s.tw := rfl
@[simp] theorem State.updIce_hinge (f : Ice → Ice) : (s.updIce f).hinge = s.hinge := rfl
@[simp] theorem State.updIce_tmb (f : Ice → Ice) : (s.updIce f).tmb = s.tmb := rfl
@[simp] theorem State.updIce_krg (f : Ice → Ice) : (s.updIce f).krg = s.krg := rfl
@[simp] theorem State.updIce_th (f : Ice → Ice) : (s.updIce f).th = s.th := rfl
@[simp] theorem State.updIce_pd (f : Ice → Ice) : (s.updIce f).pd = s.pd := rfl
@[simp] theorem State.updIce_upd (f : Ice → Ice) : (s.updIce f).upd = s.upd := rfl
@[simp] theorem State.updIce_otp (f : Ice → Ice) : (s.updIce f).otp = s.otp := rfl
@[simp] theorem State.updIce_spi (f : Ice → Ice) : (s.updIce f).spi = s.spi := rfl
@[simp] theorem State.updIce_cap (f : Ice → Ice) : (s.updIce f).cap = s.cap := rfl
@[simp] theorem State.updIce_snap0 (f : Ice → Ice) : (s.updIce f).snap0 = s.snap0 := rfl
@[simp] theorem State.updIce_snap1 (f : Ice → Ice) : (s.updIce f).snap1 = s.snap1 := rfl
@[simp] theorem State.updIce_snapSrc (f : Ice → Ice) : (s.updIce f).snapSrc = s.snapSrc := rfl
@[simp] theorem State.updIce_wmTrip (f : Ice → Ice) : (s.updIce f).wmTrip = s.wmTrip := rfl
@[simp] theorem State.updIce_wmRecDone (f : Ice → Ice) : (s.updIce f).wmRecDone = s.wmRecDone := rfl
@[simp] theorem State.updIce_acoh (f : Ice → Ice) : (s.updIce f).acoh = s.acoh := rfl
@[simp] theorem State.updIce_cvMarks (f : Ice → Ice) : (s.updIce f).cvMarks = s.cvMarks := rfl
@[simp] theorem State.updIce_mail (f : Ice → Ice) : (s.updIce f).mail = s.mail := rfl
@[simp] theorem State.updIce_mem (f : Ice → Ice) : (s.updIce f).mem = s.mem := rfl
@[simp] theorem State.updIce_linkLost (f : Ice → Ice) : (s.updIce f).linkLost = s.linkLost := rfl
@[simp] theorem State.updIce_s5Held (f : Ice → Ice) : (s.updIce f).s5Held = s.s5Held := rfl
@[simp] theorem State.updIce_rest (f : Ice → Ice) : (s.updIce f).rest = s.rest := rfl
@[simp] theorem State.updIce_promLost (f : Ice → Ice) : (s.updIce f).promLost = s.promLost := rfl
@[simp] theorem State.updIce_free (f : Ice → Ice) : (s.updIce f).free = s.free := rfl
@[simp] theorem State.updIce_pending (f : Ice → Ice) : (s.updIce f).pending = s.pending := rfl

@[simp] theorem State.updMem_pw (f : Mem → Mem) : (s.updMem f).pw = s.pw := rfl
@[simp] theorem State.updMem_clk (f : Mem → Mem) : (s.updMem f).clk = s.clk := rfl
@[simp] theorem State.updMem_fr (f : Mem → Mem) : (s.updMem f).fr = s.fr := rfl
@[simp] theorem State.updMem_pump (f : Mem → Mem) : (s.updMem f).pump = s.pump := rfl
@[simp] theorem State.updMem_settings (f : Mem → Mem) : (s.updMem f).settings = s.settings := rfl
@[simp] theorem State.updMem_staged (f : Mem → Mem) : (s.updMem f).staged = s.staged := rfl
@[simp] theorem State.updMem_ch (f : Mem → Mem) : (s.updMem f).ch = s.ch := rfl
@[simp] theorem State.updMem_adm (f : Mem → Mem) : (s.updMem f).adm = s.adm := rfl
@[simp] theorem State.updMem_grp (f : Mem → Mem) : (s.updMem f).grp = s.grp := rfl
@[simp] theorem State.updMem_g4 (f : Mem → Mem) : (s.updMem f).g4 = s.g4 := rfl
@[simp] theorem State.updMem_g4Ok (f : Mem → Mem) : (s.updMem f).g4Ok = s.g4Ok := rfl
@[simp] theorem State.updMem_hk (f : Mem → Mem) : (s.updMem f).hk = s.hk := rfl
@[simp] theorem State.updMem_cv (f : Mem → Mem) : (s.updMem f).cv = s.cv := rfl
@[simp] theorem State.updMem_aux (f : Mem → Mem) : (s.updMem f).aux = s.aux := rfl
@[simp] theorem State.updMem_inj (f : Mem → Mem) : (s.updMem f).inj = s.inj := rfl
@[simp] theorem State.updMem_zone (f : Mem → Mem) : (s.updMem f).zone = s.zone := rfl
@[simp] theorem State.updMem_bat (f : Mem → Mem) : (s.updMem f).bat = s.bat := rfl
@[simp] theorem State.updMem_qs (f : Mem → Mem) : (s.updMem f).qs = s.qs := rfl
@[simp] theorem State.updMem_qmem (f : Mem → Mem) : (s.updMem f).qmem = s.qmem := rfl
@[simp] theorem State.updMem_winBase (f : Mem → Mem) : (s.updMem f).winBase = s.winBase := rfl
@[simp] theorem State.updMem_outs (f : Mem → Mem) : (s.updMem f).outs = s.outs := rfl
@[simp] theorem State.updMem_owners (f : Mem → Mem) : (s.updMem f).owners = s.owners := rfl
@[simp] theorem State.updMem_resOwner (f : Mem → Mem) : (s.updMem f).resOwner = s.resOwner := rfl
@[simp] theorem State.updMem_vio (f : Mem → Mem) : (s.updMem f).vio = s.vio := rfl
@[simp] theorem State.updMem_vioOver (f : Mem → Mem) : (s.updMem f).vioOver = s.vioOver := rfl
@[simp] theorem State.updMem_hpt (f : Mem → Mem) : (s.updMem f).hpt = s.hpt := rfl
@[simp] theorem State.updMem_hptAt (f : Mem → Mem) : (s.updMem f).hptAt = s.hptAt := rfl
@[simp] theorem State.updMem_nBeyond (f : Mem → Mem) : (s.updMem f).nBeyond = s.nBeyond := rfl
@[simp] theorem State.updMem_nLatMiss (f : Mem → Mem) : (s.updMem f).nLatMiss = s.nLatMiss := rfl
@[simp] theorem State.updMem_evDropped (f : Mem → Mem) : (s.updMem f).evDropped = s.evDropped := rfl
@[simp] theorem State.updMem_ccount (f : Mem → Mem) : (s.updMem f).ccount = s.ccount := rfl
@[simp] theorem State.updMem_ccountFirn (f : Mem → Mem) : (s.updMem f).ccountFirn = s.ccountFirn := rfl
@[simp] theorem State.updMem_ice (f : Mem → Mem) : (s.updMem f).ice = s.ice := rfl
@[simp] theorem State.updMem_net (f : Mem → Mem) : (s.updMem f).net = s.net := rfl
@[simp] theorem State.updMem_tw (f : Mem → Mem) : (s.updMem f).tw = s.tw := rfl
@[simp] theorem State.updMem_hinge (f : Mem → Mem) : (s.updMem f).hinge = s.hinge := rfl
@[simp] theorem State.updMem_tmb (f : Mem → Mem) : (s.updMem f).tmb = s.tmb := rfl
@[simp] theorem State.updMem_krg (f : Mem → Mem) : (s.updMem f).krg = s.krg := rfl
@[simp] theorem State.updMem_th (f : Mem → Mem) : (s.updMem f).th = s.th := rfl
@[simp] theorem State.updMem_pd (f : Mem → Mem) : (s.updMem f).pd = s.pd := rfl
@[simp] theorem State.updMem_upd (f : Mem → Mem) : (s.updMem f).upd = s.upd := rfl
@[simp] theorem State.updMem_otp (f : Mem → Mem) : (s.updMem f).otp = s.otp := rfl
@[simp] theorem State.updMem_spi (f : Mem → Mem) : (s.updMem f).spi = s.spi := rfl
@[simp] theorem State.updMem_cap (f : Mem → Mem) : (s.updMem f).cap = s.cap := rfl
@[simp] theorem State.updMem_snap0 (f : Mem → Mem) : (s.updMem f).snap0 = s.snap0 := rfl
@[simp] theorem State.updMem_snap1 (f : Mem → Mem) : (s.updMem f).snap1 = s.snap1 := rfl
@[simp] theorem State.updMem_snapSrc (f : Mem → Mem) : (s.updMem f).snapSrc = s.snapSrc := rfl
@[simp] theorem State.updMem_wmTrip (f : Mem → Mem) : (s.updMem f).wmTrip = s.wmTrip := rfl
@[simp] theorem State.updMem_wmRecDone (f : Mem → Mem) : (s.updMem f).wmRecDone = s.wmRecDone := rfl
@[simp] theorem State.updMem_acoh (f : Mem → Mem) : (s.updMem f).acoh = s.acoh := rfl
@[simp] theorem State.updMem_cvMarks (f : Mem → Mem) : (s.updMem f).cvMarks = s.cvMarks := rfl
@[simp] theorem State.updMem_mail (f : Mem → Mem) : (s.updMem f).mail = s.mail := rfl
@[simp] theorem State.updMem_mem (f : Mem → Mem) : (s.updMem f).mem = f s.mem := rfl
@[simp] theorem State.updMem_linkLost (f : Mem → Mem) : (s.updMem f).linkLost = s.linkLost := rfl
@[simp] theorem State.updMem_s5Held (f : Mem → Mem) : (s.updMem f).s5Held = s.s5Held := rfl
@[simp] theorem State.updMem_rest (f : Mem → Mem) : (s.updMem f).rest = s.rest := rfl
@[simp] theorem State.updMem_promLost (f : Mem → Mem) : (s.updMem f).promLost = s.promLost := rfl
@[simp] theorem State.updMem_free (f : Mem → Mem) : (s.updMem f).free = s.free := rfl
@[simp] theorem State.updMem_pending (f : Mem → Mem) : (s.updMem f).pending = s.pending := rfl

@[simp] theorem State.updNet_pw (f : Net → Net) : (s.updNet f).pw = s.pw := rfl
@[simp] theorem State.updNet_clk (f : Net → Net) : (s.updNet f).clk = s.clk := rfl
@[simp] theorem State.updNet_fr (f : Net → Net) : (s.updNet f).fr = s.fr := rfl
@[simp] theorem State.updNet_pump (f : Net → Net) : (s.updNet f).pump = s.pump := rfl
@[simp] theorem State.updNet_settings (f : Net → Net) : (s.updNet f).settings = s.settings := rfl
@[simp] theorem State.updNet_staged (f : Net → Net) : (s.updNet f).staged = s.staged := rfl
@[simp] theorem State.updNet_ch (f : Net → Net) : (s.updNet f).ch = s.ch := rfl
@[simp] theorem State.updNet_adm (f : Net → Net) : (s.updNet f).adm = s.adm := rfl
@[simp] theorem State.updNet_grp (f : Net → Net) : (s.updNet f).grp = s.grp := rfl
@[simp] theorem State.updNet_g4 (f : Net → Net) : (s.updNet f).g4 = s.g4 := rfl
@[simp] theorem State.updNet_g4Ok (f : Net → Net) : (s.updNet f).g4Ok = s.g4Ok := rfl
@[simp] theorem State.updNet_hk (f : Net → Net) : (s.updNet f).hk = s.hk := rfl
@[simp] theorem State.updNet_cv (f : Net → Net) : (s.updNet f).cv = s.cv := rfl
@[simp] theorem State.updNet_aux (f : Net → Net) : (s.updNet f).aux = s.aux := rfl
@[simp] theorem State.updNet_inj (f : Net → Net) : (s.updNet f).inj = s.inj := rfl
@[simp] theorem State.updNet_zone (f : Net → Net) : (s.updNet f).zone = s.zone := rfl
@[simp] theorem State.updNet_bat (f : Net → Net) : (s.updNet f).bat = s.bat := rfl
@[simp] theorem State.updNet_qs (f : Net → Net) : (s.updNet f).qs = s.qs := rfl
@[simp] theorem State.updNet_qmem (f : Net → Net) : (s.updNet f).qmem = s.qmem := rfl
@[simp] theorem State.updNet_winBase (f : Net → Net) : (s.updNet f).winBase = s.winBase := rfl
@[simp] theorem State.updNet_outs (f : Net → Net) : (s.updNet f).outs = s.outs := rfl
@[simp] theorem State.updNet_owners (f : Net → Net) : (s.updNet f).owners = s.owners := rfl
@[simp] theorem State.updNet_resOwner (f : Net → Net) : (s.updNet f).resOwner = s.resOwner := rfl
@[simp] theorem State.updNet_vio (f : Net → Net) : (s.updNet f).vio = s.vio := rfl
@[simp] theorem State.updNet_vioOver (f : Net → Net) : (s.updNet f).vioOver = s.vioOver := rfl
@[simp] theorem State.updNet_hpt (f : Net → Net) : (s.updNet f).hpt = s.hpt := rfl
@[simp] theorem State.updNet_hptAt (f : Net → Net) : (s.updNet f).hptAt = s.hptAt := rfl
@[simp] theorem State.updNet_nBeyond (f : Net → Net) : (s.updNet f).nBeyond = s.nBeyond := rfl
@[simp] theorem State.updNet_nLatMiss (f : Net → Net) : (s.updNet f).nLatMiss = s.nLatMiss := rfl
@[simp] theorem State.updNet_evDropped (f : Net → Net) : (s.updNet f).evDropped = s.evDropped := rfl
@[simp] theorem State.updNet_ccount (f : Net → Net) : (s.updNet f).ccount = s.ccount := rfl
@[simp] theorem State.updNet_ccountFirn (f : Net → Net) : (s.updNet f).ccountFirn = s.ccountFirn := rfl
@[simp] theorem State.updNet_ice (f : Net → Net) : (s.updNet f).ice = s.ice := rfl
@[simp] theorem State.updNet_net (f : Net → Net) : (s.updNet f).net = f s.net := rfl
@[simp] theorem State.updNet_tw (f : Net → Net) : (s.updNet f).tw = s.tw := rfl
@[simp] theorem State.updNet_hinge (f : Net → Net) : (s.updNet f).hinge = s.hinge := rfl
@[simp] theorem State.updNet_tmb (f : Net → Net) : (s.updNet f).tmb = s.tmb := rfl
@[simp] theorem State.updNet_krg (f : Net → Net) : (s.updNet f).krg = s.krg := rfl
@[simp] theorem State.updNet_th (f : Net → Net) : (s.updNet f).th = s.th := rfl
@[simp] theorem State.updNet_pd (f : Net → Net) : (s.updNet f).pd = s.pd := rfl
@[simp] theorem State.updNet_upd (f : Net → Net) : (s.updNet f).upd = s.upd := rfl
@[simp] theorem State.updNet_otp (f : Net → Net) : (s.updNet f).otp = s.otp := rfl
@[simp] theorem State.updNet_spi (f : Net → Net) : (s.updNet f).spi = s.spi := rfl
@[simp] theorem State.updNet_cap (f : Net → Net) : (s.updNet f).cap = s.cap := rfl
@[simp] theorem State.updNet_snap0 (f : Net → Net) : (s.updNet f).snap0 = s.snap0 := rfl
@[simp] theorem State.updNet_snap1 (f : Net → Net) : (s.updNet f).snap1 = s.snap1 := rfl
@[simp] theorem State.updNet_snapSrc (f : Net → Net) : (s.updNet f).snapSrc = s.snapSrc := rfl
@[simp] theorem State.updNet_wmTrip (f : Net → Net) : (s.updNet f).wmTrip = s.wmTrip := rfl
@[simp] theorem State.updNet_wmRecDone (f : Net → Net) : (s.updNet f).wmRecDone = s.wmRecDone := rfl
@[simp] theorem State.updNet_acoh (f : Net → Net) : (s.updNet f).acoh = s.acoh := rfl
@[simp] theorem State.updNet_cvMarks (f : Net → Net) : (s.updNet f).cvMarks = s.cvMarks := rfl
@[simp] theorem State.updNet_mail (f : Net → Net) : (s.updNet f).mail = s.mail := rfl
@[simp] theorem State.updNet_mem (f : Net → Net) : (s.updNet f).mem = s.mem := rfl
@[simp] theorem State.updNet_linkLost (f : Net → Net) : (s.updNet f).linkLost = s.linkLost := rfl
@[simp] theorem State.updNet_s5Held (f : Net → Net) : (s.updNet f).s5Held = s.s5Held := rfl
@[simp] theorem State.updNet_rest (f : Net → Net) : (s.updNet f).rest = s.rest := rfl
@[simp] theorem State.updNet_promLost (f : Net → Net) : (s.updNet f).promLost = s.promLost := rfl
@[simp] theorem State.updNet_free (f : Net → Net) : (s.updNet f).free = s.free := rfl
@[simp] theorem State.updNet_pending (f : Net → Net) : (s.updNet f).pending = s.pending := rfl

@[simp] theorem State.updCh_pw (n : Fin 64) (f : Chan → Chan) : (s.updCh n f).pw = s.pw := rfl
@[simp] theorem State.updCh_clk (n : Fin 64) (f : Chan → Chan) : (s.updCh n f).clk = s.clk := rfl
@[simp] theorem State.updCh_fr (n : Fin 64) (f : Chan → Chan) : (s.updCh n f).fr = s.fr := rfl
@[simp] theorem State.updCh_pump (n : Fin 64) (f : Chan → Chan) : (s.updCh n f).pump = s.pump := rfl
@[simp] theorem State.updCh_settings (n : Fin 64) (f : Chan → Chan) : (s.updCh n f).settings = s.settings := rfl
@[simp] theorem State.updCh_staged (n : Fin 64) (f : Chan → Chan) : (s.updCh n f).staged = s.staged := rfl
@[simp] theorem State.updCh_ch (n : Fin 64) (f : Chan → Chan) : (s.updCh n f).ch = s.ch.set n.val (f s.ch[n]) := rfl
@[simp] theorem State.updCh_adm (n : Fin 64) (f : Chan → Chan) : (s.updCh n f).adm = s.adm := rfl
@[simp] theorem State.updCh_grp (n : Fin 64) (f : Chan → Chan) : (s.updCh n f).grp = s.grp := rfl
@[simp] theorem State.updCh_g4 (n : Fin 64) (f : Chan → Chan) : (s.updCh n f).g4 = s.g4 := rfl
@[simp] theorem State.updCh_g4Ok (n : Fin 64) (f : Chan → Chan) : (s.updCh n f).g4Ok = s.g4Ok := rfl
@[simp] theorem State.updCh_hk (n : Fin 64) (f : Chan → Chan) : (s.updCh n f).hk = s.hk := rfl
@[simp] theorem State.updCh_cv (n : Fin 64) (f : Chan → Chan) : (s.updCh n f).cv = s.cv := rfl
@[simp] theorem State.updCh_aux (n : Fin 64) (f : Chan → Chan) : (s.updCh n f).aux = s.aux := rfl
@[simp] theorem State.updCh_inj (n : Fin 64) (f : Chan → Chan) : (s.updCh n f).inj = s.inj := rfl
@[simp] theorem State.updCh_zone (n : Fin 64) (f : Chan → Chan) : (s.updCh n f).zone = s.zone := rfl
@[simp] theorem State.updCh_bat (n : Fin 64) (f : Chan → Chan) : (s.updCh n f).bat = s.bat := rfl
@[simp] theorem State.updCh_qs (n : Fin 64) (f : Chan → Chan) : (s.updCh n f).qs = s.qs := rfl
@[simp] theorem State.updCh_qmem (n : Fin 64) (f : Chan → Chan) : (s.updCh n f).qmem = s.qmem := rfl
@[simp] theorem State.updCh_winBase (n : Fin 64) (f : Chan → Chan) : (s.updCh n f).winBase = s.winBase := rfl
@[simp] theorem State.updCh_outs (n : Fin 64) (f : Chan → Chan) : (s.updCh n f).outs = s.outs := rfl
@[simp] theorem State.updCh_owners (n : Fin 64) (f : Chan → Chan) : (s.updCh n f).owners = s.owners := rfl
@[simp] theorem State.updCh_resOwner (n : Fin 64) (f : Chan → Chan) : (s.updCh n f).resOwner = s.resOwner := rfl
@[simp] theorem State.updCh_vio (n : Fin 64) (f : Chan → Chan) : (s.updCh n f).vio = s.vio := rfl
@[simp] theorem State.updCh_vioOver (n : Fin 64) (f : Chan → Chan) : (s.updCh n f).vioOver = s.vioOver := rfl
@[simp] theorem State.updCh_hpt (n : Fin 64) (f : Chan → Chan) : (s.updCh n f).hpt = s.hpt := rfl
@[simp] theorem State.updCh_hptAt (n : Fin 64) (f : Chan → Chan) : (s.updCh n f).hptAt = s.hptAt := rfl
@[simp] theorem State.updCh_nBeyond (n : Fin 64) (f : Chan → Chan) : (s.updCh n f).nBeyond = s.nBeyond := rfl
@[simp] theorem State.updCh_nLatMiss (n : Fin 64) (f : Chan → Chan) : (s.updCh n f).nLatMiss = s.nLatMiss := rfl
@[simp] theorem State.updCh_evDropped (n : Fin 64) (f : Chan → Chan) : (s.updCh n f).evDropped = s.evDropped := rfl
@[simp] theorem State.updCh_ccount (n : Fin 64) (f : Chan → Chan) : (s.updCh n f).ccount = s.ccount := rfl
@[simp] theorem State.updCh_ccountFirn (n : Fin 64) (f : Chan → Chan) : (s.updCh n f).ccountFirn = s.ccountFirn := rfl
@[simp] theorem State.updCh_ice (n : Fin 64) (f : Chan → Chan) : (s.updCh n f).ice = s.ice := rfl
@[simp] theorem State.updCh_net (n : Fin 64) (f : Chan → Chan) : (s.updCh n f).net = s.net := rfl
@[simp] theorem State.updCh_tw (n : Fin 64) (f : Chan → Chan) : (s.updCh n f).tw = s.tw := rfl
@[simp] theorem State.updCh_hinge (n : Fin 64) (f : Chan → Chan) : (s.updCh n f).hinge = s.hinge := rfl
@[simp] theorem State.updCh_tmb (n : Fin 64) (f : Chan → Chan) : (s.updCh n f).tmb = s.tmb := rfl
@[simp] theorem State.updCh_krg (n : Fin 64) (f : Chan → Chan) : (s.updCh n f).krg = s.krg := rfl
@[simp] theorem State.updCh_th (n : Fin 64) (f : Chan → Chan) : (s.updCh n f).th = s.th := rfl
@[simp] theorem State.updCh_pd (n : Fin 64) (f : Chan → Chan) : (s.updCh n f).pd = s.pd := rfl
@[simp] theorem State.updCh_upd (n : Fin 64) (f : Chan → Chan) : (s.updCh n f).upd = s.upd := rfl
@[simp] theorem State.updCh_otp (n : Fin 64) (f : Chan → Chan) : (s.updCh n f).otp = s.otp := rfl
@[simp] theorem State.updCh_spi (n : Fin 64) (f : Chan → Chan) : (s.updCh n f).spi = s.spi := rfl
@[simp] theorem State.updCh_cap (n : Fin 64) (f : Chan → Chan) : (s.updCh n f).cap = s.cap := rfl
@[simp] theorem State.updCh_snap0 (n : Fin 64) (f : Chan → Chan) : (s.updCh n f).snap0 = s.snap0 := rfl
@[simp] theorem State.updCh_snap1 (n : Fin 64) (f : Chan → Chan) : (s.updCh n f).snap1 = s.snap1 := rfl
@[simp] theorem State.updCh_snapSrc (n : Fin 64) (f : Chan → Chan) : (s.updCh n f).snapSrc = s.snapSrc := rfl
@[simp] theorem State.updCh_wmTrip (n : Fin 64) (f : Chan → Chan) : (s.updCh n f).wmTrip = s.wmTrip := rfl
@[simp] theorem State.updCh_wmRecDone (n : Fin 64) (f : Chan → Chan) : (s.updCh n f).wmRecDone = s.wmRecDone := rfl
@[simp] theorem State.updCh_acoh (n : Fin 64) (f : Chan → Chan) : (s.updCh n f).acoh = s.acoh := rfl
@[simp] theorem State.updCh_cvMarks (n : Fin 64) (f : Chan → Chan) : (s.updCh n f).cvMarks = s.cvMarks := rfl
@[simp] theorem State.updCh_mail (n : Fin 64) (f : Chan → Chan) : (s.updCh n f).mail = s.mail := rfl
@[simp] theorem State.updCh_mem (n : Fin 64) (f : Chan → Chan) : (s.updCh n f).mem = s.mem := rfl
@[simp] theorem State.updCh_linkLost (n : Fin 64) (f : Chan → Chan) : (s.updCh n f).linkLost = s.linkLost := rfl
@[simp] theorem State.updCh_s5Held (n : Fin 64) (f : Chan → Chan) : (s.updCh n f).s5Held = s.s5Held := rfl
@[simp] theorem State.updCh_rest (n : Fin 64) (f : Chan → Chan) : (s.updCh n f).rest = s.rest := rfl
@[simp] theorem State.updCh_promLost (n : Fin 64) (f : Chan → Chan) : (s.updCh n f).promLost = s.promLost := rfl
@[simp] theorem State.updCh_free (n : Fin 64) (f : Chan → Chan) : (s.updCh n f).free = s.free := rfl
@[simp] theorem State.updCh_pending (n : Fin 64) (f : Chan → Chan) : (s.updCh n f).pending = s.pending := rfl

@[simp] theorem State.mapCh_pw (f : Fin 64 → Chan → Chan) : (s.mapCh f).pw = s.pw := by unfold State.mapCh; rfl
@[simp] theorem State.mapCh_clk (f : Fin 64 → Chan → Chan) : (s.mapCh f).clk = s.clk := by unfold State.mapCh; rfl
@[simp] theorem State.mapCh_fr (f : Fin 64 → Chan → Chan) : (s.mapCh f).fr = s.fr := by unfold State.mapCh; rfl
@[simp] theorem State.mapCh_pump (f : Fin 64 → Chan → Chan) : (s.mapCh f).pump = s.pump := by unfold State.mapCh; rfl
@[simp] theorem State.mapCh_settings (f : Fin 64 → Chan → Chan) : (s.mapCh f).settings = s.settings := by unfold State.mapCh; rfl
@[simp] theorem State.mapCh_staged (f : Fin 64 → Chan → Chan) : (s.mapCh f).staged = s.staged := by unfold State.mapCh; rfl
@[simp] theorem State.mapCh_ch (f : Fin 64 → Chan → Chan) : (s.mapCh f).ch = Vector.ofFn fun i => f i s.ch[i] := by unfold State.mapCh; rfl
@[simp] theorem State.mapCh_adm (f : Fin 64 → Chan → Chan) : (s.mapCh f).adm = s.adm := by unfold State.mapCh; rfl
@[simp] theorem State.mapCh_grp (f : Fin 64 → Chan → Chan) : (s.mapCh f).grp = s.grp := by unfold State.mapCh; rfl
@[simp] theorem State.mapCh_g4 (f : Fin 64 → Chan → Chan) : (s.mapCh f).g4 = s.g4 := by unfold State.mapCh; rfl
@[simp] theorem State.mapCh_g4Ok (f : Fin 64 → Chan → Chan) : (s.mapCh f).g4Ok = s.g4Ok := by unfold State.mapCh; rfl
@[simp] theorem State.mapCh_hk (f : Fin 64 → Chan → Chan) : (s.mapCh f).hk = s.hk := by unfold State.mapCh; rfl
@[simp] theorem State.mapCh_cv (f : Fin 64 → Chan → Chan) : (s.mapCh f).cv = s.cv := by unfold State.mapCh; rfl
@[simp] theorem State.mapCh_aux (f : Fin 64 → Chan → Chan) : (s.mapCh f).aux = s.aux := by unfold State.mapCh; rfl
@[simp] theorem State.mapCh_inj (f : Fin 64 → Chan → Chan) : (s.mapCh f).inj = s.inj := by unfold State.mapCh; rfl
@[simp] theorem State.mapCh_zone (f : Fin 64 → Chan → Chan) : (s.mapCh f).zone = s.zone := by unfold State.mapCh; rfl
@[simp] theorem State.mapCh_bat (f : Fin 64 → Chan → Chan) : (s.mapCh f).bat = s.bat := by unfold State.mapCh; rfl
@[simp] theorem State.mapCh_qs (f : Fin 64 → Chan → Chan) : (s.mapCh f).qs = s.qs := by unfold State.mapCh; rfl
@[simp] theorem State.mapCh_qmem (f : Fin 64 → Chan → Chan) : (s.mapCh f).qmem = s.qmem := by unfold State.mapCh; rfl
@[simp] theorem State.mapCh_winBase (f : Fin 64 → Chan → Chan) : (s.mapCh f).winBase = s.winBase := by unfold State.mapCh; rfl
@[simp] theorem State.mapCh_outs (f : Fin 64 → Chan → Chan) : (s.mapCh f).outs = s.outs := by unfold State.mapCh; rfl
@[simp] theorem State.mapCh_owners (f : Fin 64 → Chan → Chan) : (s.mapCh f).owners = s.owners := by unfold State.mapCh; rfl
@[simp] theorem State.mapCh_resOwner (f : Fin 64 → Chan → Chan) : (s.mapCh f).resOwner = s.resOwner := by unfold State.mapCh; rfl
@[simp] theorem State.mapCh_vio (f : Fin 64 → Chan → Chan) : (s.mapCh f).vio = s.vio := by unfold State.mapCh; rfl
@[simp] theorem State.mapCh_vioOver (f : Fin 64 → Chan → Chan) : (s.mapCh f).vioOver = s.vioOver := by unfold State.mapCh; rfl
@[simp] theorem State.mapCh_hpt (f : Fin 64 → Chan → Chan) : (s.mapCh f).hpt = s.hpt := by unfold State.mapCh; rfl
@[simp] theorem State.mapCh_hptAt (f : Fin 64 → Chan → Chan) : (s.mapCh f).hptAt = s.hptAt := by unfold State.mapCh; rfl
@[simp] theorem State.mapCh_nBeyond (f : Fin 64 → Chan → Chan) : (s.mapCh f).nBeyond = s.nBeyond := by unfold State.mapCh; rfl
@[simp] theorem State.mapCh_nLatMiss (f : Fin 64 → Chan → Chan) : (s.mapCh f).nLatMiss = s.nLatMiss := by unfold State.mapCh; rfl
@[simp] theorem State.mapCh_evDropped (f : Fin 64 → Chan → Chan) : (s.mapCh f).evDropped = s.evDropped := by unfold State.mapCh; rfl
@[simp] theorem State.mapCh_ccount (f : Fin 64 → Chan → Chan) : (s.mapCh f).ccount = s.ccount := by unfold State.mapCh; rfl
@[simp] theorem State.mapCh_ccountFirn (f : Fin 64 → Chan → Chan) : (s.mapCh f).ccountFirn = s.ccountFirn := by unfold State.mapCh; rfl
@[simp] theorem State.mapCh_ice (f : Fin 64 → Chan → Chan) : (s.mapCh f).ice = s.ice := by unfold State.mapCh; rfl
@[simp] theorem State.mapCh_net (f : Fin 64 → Chan → Chan) : (s.mapCh f).net = s.net := by unfold State.mapCh; rfl
@[simp] theorem State.mapCh_tw (f : Fin 64 → Chan → Chan) : (s.mapCh f).tw = s.tw := by unfold State.mapCh; rfl
@[simp] theorem State.mapCh_hinge (f : Fin 64 → Chan → Chan) : (s.mapCh f).hinge = s.hinge := by unfold State.mapCh; rfl
@[simp] theorem State.mapCh_tmb (f : Fin 64 → Chan → Chan) : (s.mapCh f).tmb = s.tmb := by unfold State.mapCh; rfl
@[simp] theorem State.mapCh_krg (f : Fin 64 → Chan → Chan) : (s.mapCh f).krg = s.krg := by unfold State.mapCh; rfl
@[simp] theorem State.mapCh_th (f : Fin 64 → Chan → Chan) : (s.mapCh f).th = s.th := by unfold State.mapCh; rfl
@[simp] theorem State.mapCh_pd (f : Fin 64 → Chan → Chan) : (s.mapCh f).pd = s.pd := by unfold State.mapCh; rfl
@[simp] theorem State.mapCh_upd (f : Fin 64 → Chan → Chan) : (s.mapCh f).upd = s.upd := by unfold State.mapCh; rfl
@[simp] theorem State.mapCh_otp (f : Fin 64 → Chan → Chan) : (s.mapCh f).otp = s.otp := by unfold State.mapCh; rfl
@[simp] theorem State.mapCh_spi (f : Fin 64 → Chan → Chan) : (s.mapCh f).spi = s.spi := by unfold State.mapCh; rfl
@[simp] theorem State.mapCh_cap (f : Fin 64 → Chan → Chan) : (s.mapCh f).cap = s.cap := by unfold State.mapCh; rfl
@[simp] theorem State.mapCh_snap0 (f : Fin 64 → Chan → Chan) : (s.mapCh f).snap0 = s.snap0 := by unfold State.mapCh; rfl
@[simp] theorem State.mapCh_snap1 (f : Fin 64 → Chan → Chan) : (s.mapCh f).snap1 = s.snap1 := by unfold State.mapCh; rfl
@[simp] theorem State.mapCh_snapSrc (f : Fin 64 → Chan → Chan) : (s.mapCh f).snapSrc = s.snapSrc := by unfold State.mapCh; rfl
@[simp] theorem State.mapCh_wmTrip (f : Fin 64 → Chan → Chan) : (s.mapCh f).wmTrip = s.wmTrip := by unfold State.mapCh; rfl
@[simp] theorem State.mapCh_wmRecDone (f : Fin 64 → Chan → Chan) : (s.mapCh f).wmRecDone = s.wmRecDone := by unfold State.mapCh; rfl
@[simp] theorem State.mapCh_acoh (f : Fin 64 → Chan → Chan) : (s.mapCh f).acoh = s.acoh := by unfold State.mapCh; rfl
@[simp] theorem State.mapCh_cvMarks (f : Fin 64 → Chan → Chan) : (s.mapCh f).cvMarks = s.cvMarks := by unfold State.mapCh; rfl
@[simp] theorem State.mapCh_mail (f : Fin 64 → Chan → Chan) : (s.mapCh f).mail = s.mail := by unfold State.mapCh; rfl
@[simp] theorem State.mapCh_mem (f : Fin 64 → Chan → Chan) : (s.mapCh f).mem = s.mem := by unfold State.mapCh; rfl
@[simp] theorem State.mapCh_linkLost (f : Fin 64 → Chan → Chan) : (s.mapCh f).linkLost = s.linkLost := by unfold State.mapCh; rfl
@[simp] theorem State.mapCh_s5Held (f : Fin 64 → Chan → Chan) : (s.mapCh f).s5Held = s.s5Held := by unfold State.mapCh; rfl
@[simp] theorem State.mapCh_rest (f : Fin 64 → Chan → Chan) : (s.mapCh f).rest = s.rest := by unfold State.mapCh; rfl
@[simp] theorem State.mapCh_promLost (f : Fin 64 → Chan → Chan) : (s.mapCh f).promLost = s.promLost := by unfold State.mapCh; rfl
@[simp] theorem State.mapCh_free (f : Fin 64 → Chan → Chan) : (s.mapCh f).free = s.free := by unfold State.mapCh; rfl
@[simp] theorem State.mapCh_pending (f : Fin 64 → Chan → Chan) : (s.mapCh f).pending = s.pending := by unfold State.mapCh; rfl

@[simp] theorem State.updQ_pw (q : Fin 32) (f : Queue → Queue) : (s.updQ q f).pw = s.pw := rfl
@[simp] theorem State.updQ_clk (q : Fin 32) (f : Queue → Queue) : (s.updQ q f).clk = s.clk := rfl
@[simp] theorem State.updQ_fr (q : Fin 32) (f : Queue → Queue) : (s.updQ q f).fr = s.fr := rfl
@[simp] theorem State.updQ_pump (q : Fin 32) (f : Queue → Queue) : (s.updQ q f).pump = s.pump := rfl
@[simp] theorem State.updQ_settings (q : Fin 32) (f : Queue → Queue) : (s.updQ q f).settings = s.settings := rfl
@[simp] theorem State.updQ_staged (q : Fin 32) (f : Queue → Queue) : (s.updQ q f).staged = s.staged := rfl
@[simp] theorem State.updQ_ch (q : Fin 32) (f : Queue → Queue) : (s.updQ q f).ch = s.ch := rfl
@[simp] theorem State.updQ_adm (q : Fin 32) (f : Queue → Queue) : (s.updQ q f).adm = s.adm := rfl
@[simp] theorem State.updQ_grp (q : Fin 32) (f : Queue → Queue) : (s.updQ q f).grp = s.grp := rfl
@[simp] theorem State.updQ_g4 (q : Fin 32) (f : Queue → Queue) : (s.updQ q f).g4 = s.g4 := rfl
@[simp] theorem State.updQ_g4Ok (q : Fin 32) (f : Queue → Queue) : (s.updQ q f).g4Ok = s.g4Ok := rfl
@[simp] theorem State.updQ_hk (q : Fin 32) (f : Queue → Queue) : (s.updQ q f).hk = s.hk := rfl
@[simp] theorem State.updQ_cv (q : Fin 32) (f : Queue → Queue) : (s.updQ q f).cv = s.cv := rfl
@[simp] theorem State.updQ_aux (q : Fin 32) (f : Queue → Queue) : (s.updQ q f).aux = s.aux := rfl
@[simp] theorem State.updQ_inj (q : Fin 32) (f : Queue → Queue) : (s.updQ q f).inj = s.inj := rfl
@[simp] theorem State.updQ_zone (q : Fin 32) (f : Queue → Queue) : (s.updQ q f).zone = s.zone := rfl
@[simp] theorem State.updQ_bat (q : Fin 32) (f : Queue → Queue) : (s.updQ q f).bat = s.bat := rfl
@[simp] theorem State.updQ_qs (q : Fin 32) (f : Queue → Queue) : (s.updQ q f).qs = s.qs.set q.val (f s.qs[q]) := rfl
@[simp] theorem State.updQ_qmem (q : Fin 32) (f : Queue → Queue) : (s.updQ q f).qmem = s.qmem := rfl
@[simp] theorem State.updQ_winBase (q : Fin 32) (f : Queue → Queue) : (s.updQ q f).winBase = s.winBase := rfl
@[simp] theorem State.updQ_outs (q : Fin 32) (f : Queue → Queue) : (s.updQ q f).outs = s.outs := rfl
@[simp] theorem State.updQ_owners (q : Fin 32) (f : Queue → Queue) : (s.updQ q f).owners = s.owners := rfl
@[simp] theorem State.updQ_resOwner (q : Fin 32) (f : Queue → Queue) : (s.updQ q f).resOwner = s.resOwner := rfl
@[simp] theorem State.updQ_vio (q : Fin 32) (f : Queue → Queue) : (s.updQ q f).vio = s.vio := rfl
@[simp] theorem State.updQ_vioOver (q : Fin 32) (f : Queue → Queue) : (s.updQ q f).vioOver = s.vioOver := rfl
@[simp] theorem State.updQ_hpt (q : Fin 32) (f : Queue → Queue) : (s.updQ q f).hpt = s.hpt := rfl
@[simp] theorem State.updQ_hptAt (q : Fin 32) (f : Queue → Queue) : (s.updQ q f).hptAt = s.hptAt := rfl
@[simp] theorem State.updQ_nBeyond (q : Fin 32) (f : Queue → Queue) : (s.updQ q f).nBeyond = s.nBeyond := rfl
@[simp] theorem State.updQ_nLatMiss (q : Fin 32) (f : Queue → Queue) : (s.updQ q f).nLatMiss = s.nLatMiss := rfl
@[simp] theorem State.updQ_evDropped (q : Fin 32) (f : Queue → Queue) : (s.updQ q f).evDropped = s.evDropped := rfl
@[simp] theorem State.updQ_ccount (q : Fin 32) (f : Queue → Queue) : (s.updQ q f).ccount = s.ccount := rfl
@[simp] theorem State.updQ_ccountFirn (q : Fin 32) (f : Queue → Queue) : (s.updQ q f).ccountFirn = s.ccountFirn := rfl
@[simp] theorem State.updQ_ice (q : Fin 32) (f : Queue → Queue) : (s.updQ q f).ice = s.ice := rfl
@[simp] theorem State.updQ_net (q : Fin 32) (f : Queue → Queue) : (s.updQ q f).net = s.net := rfl
@[simp] theorem State.updQ_tw (q : Fin 32) (f : Queue → Queue) : (s.updQ q f).tw = s.tw := rfl
@[simp] theorem State.updQ_hinge (q : Fin 32) (f : Queue → Queue) : (s.updQ q f).hinge = s.hinge := rfl
@[simp] theorem State.updQ_tmb (q : Fin 32) (f : Queue → Queue) : (s.updQ q f).tmb = s.tmb := rfl
@[simp] theorem State.updQ_krg (q : Fin 32) (f : Queue → Queue) : (s.updQ q f).krg = s.krg := rfl
@[simp] theorem State.updQ_th (q : Fin 32) (f : Queue → Queue) : (s.updQ q f).th = s.th := rfl
@[simp] theorem State.updQ_pd (q : Fin 32) (f : Queue → Queue) : (s.updQ q f).pd = s.pd := rfl
@[simp] theorem State.updQ_upd (q : Fin 32) (f : Queue → Queue) : (s.updQ q f).upd = s.upd := rfl
@[simp] theorem State.updQ_otp (q : Fin 32) (f : Queue → Queue) : (s.updQ q f).otp = s.otp := rfl
@[simp] theorem State.updQ_spi (q : Fin 32) (f : Queue → Queue) : (s.updQ q f).spi = s.spi := rfl
@[simp] theorem State.updQ_cap (q : Fin 32) (f : Queue → Queue) : (s.updQ q f).cap = s.cap := rfl
@[simp] theorem State.updQ_snap0 (q : Fin 32) (f : Queue → Queue) : (s.updQ q f).snap0 = s.snap0 := rfl
@[simp] theorem State.updQ_snap1 (q : Fin 32) (f : Queue → Queue) : (s.updQ q f).snap1 = s.snap1 := rfl
@[simp] theorem State.updQ_snapSrc (q : Fin 32) (f : Queue → Queue) : (s.updQ q f).snapSrc = s.snapSrc := rfl
@[simp] theorem State.updQ_wmTrip (q : Fin 32) (f : Queue → Queue) : (s.updQ q f).wmTrip = s.wmTrip := rfl
@[simp] theorem State.updQ_wmRecDone (q : Fin 32) (f : Queue → Queue) : (s.updQ q f).wmRecDone = s.wmRecDone := rfl
@[simp] theorem State.updQ_acoh (q : Fin 32) (f : Queue → Queue) : (s.updQ q f).acoh = s.acoh := rfl
@[simp] theorem State.updQ_cvMarks (q : Fin 32) (f : Queue → Queue) : (s.updQ q f).cvMarks = s.cvMarks := rfl
@[simp] theorem State.updQ_mail (q : Fin 32) (f : Queue → Queue) : (s.updQ q f).mail = s.mail := rfl
@[simp] theorem State.updQ_mem (q : Fin 32) (f : Queue → Queue) : (s.updQ q f).mem = s.mem := rfl
@[simp] theorem State.updQ_linkLost (q : Fin 32) (f : Queue → Queue) : (s.updQ q f).linkLost = s.linkLost := rfl
@[simp] theorem State.updQ_s5Held (q : Fin 32) (f : Queue → Queue) : (s.updQ q f).s5Held = s.s5Held := rfl
@[simp] theorem State.updQ_rest (q : Fin 32) (f : Queue → Queue) : (s.updQ q f).rest = s.rest := rfl
@[simp] theorem State.updQ_promLost (q : Fin 32) (f : Queue → Queue) : (s.updQ q f).promLost = s.promLost := rfl
@[simp] theorem State.updQ_free (q : Fin 32) (f : Queue → Queue) : (s.updQ q f).free = s.free := rfl
@[simp] theorem State.updQ_pending (q : Fin 32) (f : Queue → Queue) : (s.updQ q f).pending = s.pending := rfl

@[simp] theorem State.updGrp_pw (g : Fin 5) (f : Group → Group) : (s.updGrp g f).pw = s.pw := rfl
@[simp] theorem State.updGrp_clk (g : Fin 5) (f : Group → Group) : (s.updGrp g f).clk = s.clk := rfl
@[simp] theorem State.updGrp_fr (g : Fin 5) (f : Group → Group) : (s.updGrp g f).fr = s.fr := rfl
@[simp] theorem State.updGrp_pump (g : Fin 5) (f : Group → Group) : (s.updGrp g f).pump = s.pump := rfl
@[simp] theorem State.updGrp_settings (g : Fin 5) (f : Group → Group) : (s.updGrp g f).settings = s.settings := rfl
@[simp] theorem State.updGrp_staged (g : Fin 5) (f : Group → Group) : (s.updGrp g f).staged = s.staged := rfl
@[simp] theorem State.updGrp_ch (g : Fin 5) (f : Group → Group) : (s.updGrp g f).ch = s.ch := rfl
@[simp] theorem State.updGrp_adm (g : Fin 5) (f : Group → Group) : (s.updGrp g f).adm = s.adm := rfl
@[simp] theorem State.updGrp_grp (g : Fin 5) (f : Group → Group) : (s.updGrp g f).grp = s.grp.set g.val (f s.grp[g]) := rfl
@[simp] theorem State.updGrp_g4 (g : Fin 5) (f : Group → Group) : (s.updGrp g f).g4 = s.g4 := rfl
@[simp] theorem State.updGrp_g4Ok (g : Fin 5) (f : Group → Group) : (s.updGrp g f).g4Ok = s.g4Ok := rfl
@[simp] theorem State.updGrp_hk (g : Fin 5) (f : Group → Group) : (s.updGrp g f).hk = s.hk := rfl
@[simp] theorem State.updGrp_cv (g : Fin 5) (f : Group → Group) : (s.updGrp g f).cv = s.cv := rfl
@[simp] theorem State.updGrp_aux (g : Fin 5) (f : Group → Group) : (s.updGrp g f).aux = s.aux := rfl
@[simp] theorem State.updGrp_inj (g : Fin 5) (f : Group → Group) : (s.updGrp g f).inj = s.inj := rfl
@[simp] theorem State.updGrp_zone (g : Fin 5) (f : Group → Group) : (s.updGrp g f).zone = s.zone := rfl
@[simp] theorem State.updGrp_bat (g : Fin 5) (f : Group → Group) : (s.updGrp g f).bat = s.bat := rfl
@[simp] theorem State.updGrp_qs (g : Fin 5) (f : Group → Group) : (s.updGrp g f).qs = s.qs := rfl
@[simp] theorem State.updGrp_qmem (g : Fin 5) (f : Group → Group) : (s.updGrp g f).qmem = s.qmem := rfl
@[simp] theorem State.updGrp_winBase (g : Fin 5) (f : Group → Group) : (s.updGrp g f).winBase = s.winBase := rfl
@[simp] theorem State.updGrp_outs (g : Fin 5) (f : Group → Group) : (s.updGrp g f).outs = s.outs := rfl
@[simp] theorem State.updGrp_owners (g : Fin 5) (f : Group → Group) : (s.updGrp g f).owners = s.owners := rfl
@[simp] theorem State.updGrp_resOwner (g : Fin 5) (f : Group → Group) : (s.updGrp g f).resOwner = s.resOwner := rfl
@[simp] theorem State.updGrp_vio (g : Fin 5) (f : Group → Group) : (s.updGrp g f).vio = s.vio := rfl
@[simp] theorem State.updGrp_vioOver (g : Fin 5) (f : Group → Group) : (s.updGrp g f).vioOver = s.vioOver := rfl
@[simp] theorem State.updGrp_hpt (g : Fin 5) (f : Group → Group) : (s.updGrp g f).hpt = s.hpt := rfl
@[simp] theorem State.updGrp_hptAt (g : Fin 5) (f : Group → Group) : (s.updGrp g f).hptAt = s.hptAt := rfl
@[simp] theorem State.updGrp_nBeyond (g : Fin 5) (f : Group → Group) : (s.updGrp g f).nBeyond = s.nBeyond := rfl
@[simp] theorem State.updGrp_nLatMiss (g : Fin 5) (f : Group → Group) : (s.updGrp g f).nLatMiss = s.nLatMiss := rfl
@[simp] theorem State.updGrp_evDropped (g : Fin 5) (f : Group → Group) : (s.updGrp g f).evDropped = s.evDropped := rfl
@[simp] theorem State.updGrp_ccount (g : Fin 5) (f : Group → Group) : (s.updGrp g f).ccount = s.ccount := rfl
@[simp] theorem State.updGrp_ccountFirn (g : Fin 5) (f : Group → Group) : (s.updGrp g f).ccountFirn = s.ccountFirn := rfl
@[simp] theorem State.updGrp_ice (g : Fin 5) (f : Group → Group) : (s.updGrp g f).ice = s.ice := rfl
@[simp] theorem State.updGrp_net (g : Fin 5) (f : Group → Group) : (s.updGrp g f).net = s.net := rfl
@[simp] theorem State.updGrp_tw (g : Fin 5) (f : Group → Group) : (s.updGrp g f).tw = s.tw := rfl
@[simp] theorem State.updGrp_hinge (g : Fin 5) (f : Group → Group) : (s.updGrp g f).hinge = s.hinge := rfl
@[simp] theorem State.updGrp_tmb (g : Fin 5) (f : Group → Group) : (s.updGrp g f).tmb = s.tmb := rfl
@[simp] theorem State.updGrp_krg (g : Fin 5) (f : Group → Group) : (s.updGrp g f).krg = s.krg := rfl
@[simp] theorem State.updGrp_th (g : Fin 5) (f : Group → Group) : (s.updGrp g f).th = s.th := rfl
@[simp] theorem State.updGrp_pd (g : Fin 5) (f : Group → Group) : (s.updGrp g f).pd = s.pd := rfl
@[simp] theorem State.updGrp_upd (g : Fin 5) (f : Group → Group) : (s.updGrp g f).upd = s.upd := rfl
@[simp] theorem State.updGrp_otp (g : Fin 5) (f : Group → Group) : (s.updGrp g f).otp = s.otp := rfl
@[simp] theorem State.updGrp_spi (g : Fin 5) (f : Group → Group) : (s.updGrp g f).spi = s.spi := rfl
@[simp] theorem State.updGrp_cap (g : Fin 5) (f : Group → Group) : (s.updGrp g f).cap = s.cap := rfl
@[simp] theorem State.updGrp_snap0 (g : Fin 5) (f : Group → Group) : (s.updGrp g f).snap0 = s.snap0 := rfl
@[simp] theorem State.updGrp_snap1 (g : Fin 5) (f : Group → Group) : (s.updGrp g f).snap1 = s.snap1 := rfl
@[simp] theorem State.updGrp_snapSrc (g : Fin 5) (f : Group → Group) : (s.updGrp g f).snapSrc = s.snapSrc := rfl
@[simp] theorem State.updGrp_wmTrip (g : Fin 5) (f : Group → Group) : (s.updGrp g f).wmTrip = s.wmTrip := rfl
@[simp] theorem State.updGrp_wmRecDone (g : Fin 5) (f : Group → Group) : (s.updGrp g f).wmRecDone = s.wmRecDone := rfl
@[simp] theorem State.updGrp_acoh (g : Fin 5) (f : Group → Group) : (s.updGrp g f).acoh = s.acoh := rfl
@[simp] theorem State.updGrp_cvMarks (g : Fin 5) (f : Group → Group) : (s.updGrp g f).cvMarks = s.cvMarks := rfl
@[simp] theorem State.updGrp_mail (g : Fin 5) (f : Group → Group) : (s.updGrp g f).mail = s.mail := rfl
@[simp] theorem State.updGrp_mem (g : Fin 5) (f : Group → Group) : (s.updGrp g f).mem = s.mem := rfl
@[simp] theorem State.updGrp_linkLost (g : Fin 5) (f : Group → Group) : (s.updGrp g f).linkLost = s.linkLost := rfl
@[simp] theorem State.updGrp_s5Held (g : Fin 5) (f : Group → Group) : (s.updGrp g f).s5Held = s.s5Held := rfl
@[simp] theorem State.updGrp_rest (g : Fin 5) (f : Group → Group) : (s.updGrp g f).rest = s.rest := rfl
@[simp] theorem State.updGrp_promLost (g : Fin 5) (f : Group → Group) : (s.updGrp g f).promLost = s.promLost := rfl
@[simp] theorem State.updGrp_free (g : Fin 5) (f : Group → Group) : (s.updGrp g f).free = s.free := rfl
@[simp] theorem State.updGrp_pending (g : Fin 5) (f : Group → Group) : (s.updGrp g f).pending = s.pending := rfl

@[simp] theorem State.updAux_pw (r : Fin 4) (f : Aux → Aux) : (s.updAux r f).pw = s.pw := rfl
@[simp] theorem State.updAux_clk (r : Fin 4) (f : Aux → Aux) : (s.updAux r f).clk = s.clk := rfl
@[simp] theorem State.updAux_fr (r : Fin 4) (f : Aux → Aux) : (s.updAux r f).fr = s.fr := rfl
@[simp] theorem State.updAux_pump (r : Fin 4) (f : Aux → Aux) : (s.updAux r f).pump = s.pump := rfl
@[simp] theorem State.updAux_settings (r : Fin 4) (f : Aux → Aux) : (s.updAux r f).settings = s.settings := rfl
@[simp] theorem State.updAux_staged (r : Fin 4) (f : Aux → Aux) : (s.updAux r f).staged = s.staged := rfl
@[simp] theorem State.updAux_ch (r : Fin 4) (f : Aux → Aux) : (s.updAux r f).ch = s.ch := rfl
@[simp] theorem State.updAux_adm (r : Fin 4) (f : Aux → Aux) : (s.updAux r f).adm = s.adm := rfl
@[simp] theorem State.updAux_grp (r : Fin 4) (f : Aux → Aux) : (s.updAux r f).grp = s.grp := rfl
@[simp] theorem State.updAux_g4 (r : Fin 4) (f : Aux → Aux) : (s.updAux r f).g4 = s.g4 := rfl
@[simp] theorem State.updAux_g4Ok (r : Fin 4) (f : Aux → Aux) : (s.updAux r f).g4Ok = s.g4Ok := rfl
@[simp] theorem State.updAux_hk (r : Fin 4) (f : Aux → Aux) : (s.updAux r f).hk = s.hk := rfl
@[simp] theorem State.updAux_cv (r : Fin 4) (f : Aux → Aux) : (s.updAux r f).cv = s.cv := rfl
@[simp] theorem State.updAux_aux (r : Fin 4) (f : Aux → Aux) : (s.updAux r f).aux = s.aux.set r.val (f s.aux[r]) := rfl
@[simp] theorem State.updAux_inj (r : Fin 4) (f : Aux → Aux) : (s.updAux r f).inj = s.inj := rfl
@[simp] theorem State.updAux_zone (r : Fin 4) (f : Aux → Aux) : (s.updAux r f).zone = s.zone := rfl
@[simp] theorem State.updAux_bat (r : Fin 4) (f : Aux → Aux) : (s.updAux r f).bat = s.bat := rfl
@[simp] theorem State.updAux_qs (r : Fin 4) (f : Aux → Aux) : (s.updAux r f).qs = s.qs := rfl
@[simp] theorem State.updAux_qmem (r : Fin 4) (f : Aux → Aux) : (s.updAux r f).qmem = s.qmem := rfl
@[simp] theorem State.updAux_winBase (r : Fin 4) (f : Aux → Aux) : (s.updAux r f).winBase = s.winBase := rfl
@[simp] theorem State.updAux_outs (r : Fin 4) (f : Aux → Aux) : (s.updAux r f).outs = s.outs := rfl
@[simp] theorem State.updAux_owners (r : Fin 4) (f : Aux → Aux) : (s.updAux r f).owners = s.owners := rfl
@[simp] theorem State.updAux_resOwner (r : Fin 4) (f : Aux → Aux) : (s.updAux r f).resOwner = s.resOwner := rfl
@[simp] theorem State.updAux_vio (r : Fin 4) (f : Aux → Aux) : (s.updAux r f).vio = s.vio := rfl
@[simp] theorem State.updAux_vioOver (r : Fin 4) (f : Aux → Aux) : (s.updAux r f).vioOver = s.vioOver := rfl
@[simp] theorem State.updAux_hpt (r : Fin 4) (f : Aux → Aux) : (s.updAux r f).hpt = s.hpt := rfl
@[simp] theorem State.updAux_hptAt (r : Fin 4) (f : Aux → Aux) : (s.updAux r f).hptAt = s.hptAt := rfl
@[simp] theorem State.updAux_nBeyond (r : Fin 4) (f : Aux → Aux) : (s.updAux r f).nBeyond = s.nBeyond := rfl
@[simp] theorem State.updAux_nLatMiss (r : Fin 4) (f : Aux → Aux) : (s.updAux r f).nLatMiss = s.nLatMiss := rfl
@[simp] theorem State.updAux_evDropped (r : Fin 4) (f : Aux → Aux) : (s.updAux r f).evDropped = s.evDropped := rfl
@[simp] theorem State.updAux_ccount (r : Fin 4) (f : Aux → Aux) : (s.updAux r f).ccount = s.ccount := rfl
@[simp] theorem State.updAux_ccountFirn (r : Fin 4) (f : Aux → Aux) : (s.updAux r f).ccountFirn = s.ccountFirn := rfl
@[simp] theorem State.updAux_ice (r : Fin 4) (f : Aux → Aux) : (s.updAux r f).ice = s.ice := rfl
@[simp] theorem State.updAux_net (r : Fin 4) (f : Aux → Aux) : (s.updAux r f).net = s.net := rfl
@[simp] theorem State.updAux_tw (r : Fin 4) (f : Aux → Aux) : (s.updAux r f).tw = s.tw := rfl
@[simp] theorem State.updAux_hinge (r : Fin 4) (f : Aux → Aux) : (s.updAux r f).hinge = s.hinge := rfl
@[simp] theorem State.updAux_tmb (r : Fin 4) (f : Aux → Aux) : (s.updAux r f).tmb = s.tmb := rfl
@[simp] theorem State.updAux_krg (r : Fin 4) (f : Aux → Aux) : (s.updAux r f).krg = s.krg := rfl
@[simp] theorem State.updAux_th (r : Fin 4) (f : Aux → Aux) : (s.updAux r f).th = s.th := rfl
@[simp] theorem State.updAux_pd (r : Fin 4) (f : Aux → Aux) : (s.updAux r f).pd = s.pd := rfl
@[simp] theorem State.updAux_upd (r : Fin 4) (f : Aux → Aux) : (s.updAux r f).upd = s.upd := rfl
@[simp] theorem State.updAux_otp (r : Fin 4) (f : Aux → Aux) : (s.updAux r f).otp = s.otp := rfl
@[simp] theorem State.updAux_spi (r : Fin 4) (f : Aux → Aux) : (s.updAux r f).spi = s.spi := rfl
@[simp] theorem State.updAux_cap (r : Fin 4) (f : Aux → Aux) : (s.updAux r f).cap = s.cap := rfl
@[simp] theorem State.updAux_snap0 (r : Fin 4) (f : Aux → Aux) : (s.updAux r f).snap0 = s.snap0 := rfl
@[simp] theorem State.updAux_snap1 (r : Fin 4) (f : Aux → Aux) : (s.updAux r f).snap1 = s.snap1 := rfl
@[simp] theorem State.updAux_snapSrc (r : Fin 4) (f : Aux → Aux) : (s.updAux r f).snapSrc = s.snapSrc := rfl
@[simp] theorem State.updAux_wmTrip (r : Fin 4) (f : Aux → Aux) : (s.updAux r f).wmTrip = s.wmTrip := rfl
@[simp] theorem State.updAux_wmRecDone (r : Fin 4) (f : Aux → Aux) : (s.updAux r f).wmRecDone = s.wmRecDone := rfl
@[simp] theorem State.updAux_acoh (r : Fin 4) (f : Aux → Aux) : (s.updAux r f).acoh = s.acoh := rfl
@[simp] theorem State.updAux_cvMarks (r : Fin 4) (f : Aux → Aux) : (s.updAux r f).cvMarks = s.cvMarks := rfl
@[simp] theorem State.updAux_mail (r : Fin 4) (f : Aux → Aux) : (s.updAux r f).mail = s.mail := rfl
@[simp] theorem State.updAux_mem (r : Fin 4) (f : Aux → Aux) : (s.updAux r f).mem = s.mem := rfl
@[simp] theorem State.updAux_linkLost (r : Fin 4) (f : Aux → Aux) : (s.updAux r f).linkLost = s.linkLost := rfl
@[simp] theorem State.updAux_s5Held (r : Fin 4) (f : Aux → Aux) : (s.updAux r f).s5Held = s.s5Held := rfl
@[simp] theorem State.updAux_rest (r : Fin 4) (f : Aux → Aux) : (s.updAux r f).rest = s.rest := rfl
@[simp] theorem State.updAux_promLost (r : Fin 4) (f : Aux → Aux) : (s.updAux r f).promLost = s.promLost := rfl
@[simp] theorem State.updAux_free (r : Fin 4) (f : Aux → Aux) : (s.updAux r f).free = s.free := rfl
@[simp] theorem State.updAux_pending (r : Fin 4) (f : Aux → Aux) : (s.updAux r f).pending = s.pending := rfl

@[simp] theorem State.updPd_pw (p : Fin 2) (f : PdPort → PdPort) : (s.updPd p f).pw = s.pw := rfl
@[simp] theorem State.updPd_clk (p : Fin 2) (f : PdPort → PdPort) : (s.updPd p f).clk = s.clk := rfl
@[simp] theorem State.updPd_fr (p : Fin 2) (f : PdPort → PdPort) : (s.updPd p f).fr = s.fr := rfl
@[simp] theorem State.updPd_pump (p : Fin 2) (f : PdPort → PdPort) : (s.updPd p f).pump = s.pump := rfl
@[simp] theorem State.updPd_settings (p : Fin 2) (f : PdPort → PdPort) : (s.updPd p f).settings = s.settings := rfl
@[simp] theorem State.updPd_staged (p : Fin 2) (f : PdPort → PdPort) : (s.updPd p f).staged = s.staged := rfl
@[simp] theorem State.updPd_ch (p : Fin 2) (f : PdPort → PdPort) : (s.updPd p f).ch = s.ch := rfl
@[simp] theorem State.updPd_adm (p : Fin 2) (f : PdPort → PdPort) : (s.updPd p f).adm = s.adm := rfl
@[simp] theorem State.updPd_grp (p : Fin 2) (f : PdPort → PdPort) : (s.updPd p f).grp = s.grp := rfl
@[simp] theorem State.updPd_g4 (p : Fin 2) (f : PdPort → PdPort) : (s.updPd p f).g4 = s.g4 := rfl
@[simp] theorem State.updPd_g4Ok (p : Fin 2) (f : PdPort → PdPort) : (s.updPd p f).g4Ok = s.g4Ok := rfl
@[simp] theorem State.updPd_hk (p : Fin 2) (f : PdPort → PdPort) : (s.updPd p f).hk = s.hk := rfl
@[simp] theorem State.updPd_cv (p : Fin 2) (f : PdPort → PdPort) : (s.updPd p f).cv = s.cv := rfl
@[simp] theorem State.updPd_aux (p : Fin 2) (f : PdPort → PdPort) : (s.updPd p f).aux = s.aux := rfl
@[simp] theorem State.updPd_inj (p : Fin 2) (f : PdPort → PdPort) : (s.updPd p f).inj = s.inj := rfl
@[simp] theorem State.updPd_zone (p : Fin 2) (f : PdPort → PdPort) : (s.updPd p f).zone = s.zone := rfl
@[simp] theorem State.updPd_bat (p : Fin 2) (f : PdPort → PdPort) : (s.updPd p f).bat = s.bat := rfl
@[simp] theorem State.updPd_qs (p : Fin 2) (f : PdPort → PdPort) : (s.updPd p f).qs = s.qs := rfl
@[simp] theorem State.updPd_qmem (p : Fin 2) (f : PdPort → PdPort) : (s.updPd p f).qmem = s.qmem := rfl
@[simp] theorem State.updPd_winBase (p : Fin 2) (f : PdPort → PdPort) : (s.updPd p f).winBase = s.winBase := rfl
@[simp] theorem State.updPd_outs (p : Fin 2) (f : PdPort → PdPort) : (s.updPd p f).outs = s.outs := rfl
@[simp] theorem State.updPd_owners (p : Fin 2) (f : PdPort → PdPort) : (s.updPd p f).owners = s.owners := rfl
@[simp] theorem State.updPd_resOwner (p : Fin 2) (f : PdPort → PdPort) : (s.updPd p f).resOwner = s.resOwner := rfl
@[simp] theorem State.updPd_vio (p : Fin 2) (f : PdPort → PdPort) : (s.updPd p f).vio = s.vio := rfl
@[simp] theorem State.updPd_vioOver (p : Fin 2) (f : PdPort → PdPort) : (s.updPd p f).vioOver = s.vioOver := rfl
@[simp] theorem State.updPd_hpt (p : Fin 2) (f : PdPort → PdPort) : (s.updPd p f).hpt = s.hpt := rfl
@[simp] theorem State.updPd_hptAt (p : Fin 2) (f : PdPort → PdPort) : (s.updPd p f).hptAt = s.hptAt := rfl
@[simp] theorem State.updPd_nBeyond (p : Fin 2) (f : PdPort → PdPort) : (s.updPd p f).nBeyond = s.nBeyond := rfl
@[simp] theorem State.updPd_nLatMiss (p : Fin 2) (f : PdPort → PdPort) : (s.updPd p f).nLatMiss = s.nLatMiss := rfl
@[simp] theorem State.updPd_evDropped (p : Fin 2) (f : PdPort → PdPort) : (s.updPd p f).evDropped = s.evDropped := rfl
@[simp] theorem State.updPd_ccount (p : Fin 2) (f : PdPort → PdPort) : (s.updPd p f).ccount = s.ccount := rfl
@[simp] theorem State.updPd_ccountFirn (p : Fin 2) (f : PdPort → PdPort) : (s.updPd p f).ccountFirn = s.ccountFirn := rfl
@[simp] theorem State.updPd_ice (p : Fin 2) (f : PdPort → PdPort) : (s.updPd p f).ice = s.ice := rfl
@[simp] theorem State.updPd_net (p : Fin 2) (f : PdPort → PdPort) : (s.updPd p f).net = s.net := rfl
@[simp] theorem State.updPd_tw (p : Fin 2) (f : PdPort → PdPort) : (s.updPd p f).tw = s.tw := rfl
@[simp] theorem State.updPd_hinge (p : Fin 2) (f : PdPort → PdPort) : (s.updPd p f).hinge = s.hinge := rfl
@[simp] theorem State.updPd_tmb (p : Fin 2) (f : PdPort → PdPort) : (s.updPd p f).tmb = s.tmb := rfl
@[simp] theorem State.updPd_krg (p : Fin 2) (f : PdPort → PdPort) : (s.updPd p f).krg = s.krg := rfl
@[simp] theorem State.updPd_th (p : Fin 2) (f : PdPort → PdPort) : (s.updPd p f).th = s.th := rfl
@[simp] theorem State.updPd_pd (p : Fin 2) (f : PdPort → PdPort) : (s.updPd p f).pd = s.pd.set p.val (f s.pd[p]) := rfl
@[simp] theorem State.updPd_upd (p : Fin 2) (f : PdPort → PdPort) : (s.updPd p f).upd = s.upd := rfl
@[simp] theorem State.updPd_otp (p : Fin 2) (f : PdPort → PdPort) : (s.updPd p f).otp = s.otp := rfl
@[simp] theorem State.updPd_spi (p : Fin 2) (f : PdPort → PdPort) : (s.updPd p f).spi = s.spi := rfl
@[simp] theorem State.updPd_cap (p : Fin 2) (f : PdPort → PdPort) : (s.updPd p f).cap = s.cap := rfl
@[simp] theorem State.updPd_snap0 (p : Fin 2) (f : PdPort → PdPort) : (s.updPd p f).snap0 = s.snap0 := rfl
@[simp] theorem State.updPd_snap1 (p : Fin 2) (f : PdPort → PdPort) : (s.updPd p f).snap1 = s.snap1 := rfl
@[simp] theorem State.updPd_snapSrc (p : Fin 2) (f : PdPort → PdPort) : (s.updPd p f).snapSrc = s.snapSrc := rfl
@[simp] theorem State.updPd_wmTrip (p : Fin 2) (f : PdPort → PdPort) : (s.updPd p f).wmTrip = s.wmTrip := rfl
@[simp] theorem State.updPd_wmRecDone (p : Fin 2) (f : PdPort → PdPort) : (s.updPd p f).wmRecDone = s.wmRecDone := rfl
@[simp] theorem State.updPd_acoh (p : Fin 2) (f : PdPort → PdPort) : (s.updPd p f).acoh = s.acoh := rfl
@[simp] theorem State.updPd_cvMarks (p : Fin 2) (f : PdPort → PdPort) : (s.updPd p f).cvMarks = s.cvMarks := rfl
@[simp] theorem State.updPd_mail (p : Fin 2) (f : PdPort → PdPort) : (s.updPd p f).mail = s.mail := rfl
@[simp] theorem State.updPd_mem (p : Fin 2) (f : PdPort → PdPort) : (s.updPd p f).mem = s.mem := rfl
@[simp] theorem State.updPd_linkLost (p : Fin 2) (f : PdPort → PdPort) : (s.updPd p f).linkLost = s.linkLost := rfl
@[simp] theorem State.updPd_s5Held (p : Fin 2) (f : PdPort → PdPort) : (s.updPd p f).s5Held = s.s5Held := rfl
@[simp] theorem State.updPd_rest (p : Fin 2) (f : PdPort → PdPort) : (s.updPd p f).rest = s.rest := rfl
@[simp] theorem State.updPd_promLost (p : Fin 2) (f : PdPort → PdPort) : (s.updPd p f).promLost = s.promLost := rfl
@[simp] theorem State.updPd_free (p : Fin 2) (f : PdPort → PdPort) : (s.updPd p f).free = s.free := rfl
@[simp] theorem State.updPd_pending (p : Fin 2) (f : PdPort → PdPort) : (s.updPd p f).pending = s.pending := rfl

@[simp] theorem State.updPh_pw (p : Fin 16) (f : Phase → Phase) : (s.updPh p f).pw = s.pw := rfl
@[simp] theorem State.updPh_clk (p : Fin 16) (f : Phase → Phase) : (s.updPh p f).clk = s.clk := rfl
@[simp] theorem State.updPh_fr (p : Fin 16) (f : Phase → Phase) : (s.updPh p f).fr = s.fr := rfl
@[simp] theorem State.updPh_pump (p : Fin 16) (f : Phase → Phase) : (s.updPh p f).pump = s.pump := rfl
@[simp] theorem State.updPh_settings (p : Fin 16) (f : Phase → Phase) : (s.updPh p f).settings = s.settings := rfl
@[simp] theorem State.updPh_staged (p : Fin 16) (f : Phase → Phase) : (s.updPh p f).staged = s.staged := rfl
@[simp] theorem State.updPh_ch (p : Fin 16) (f : Phase → Phase) : (s.updPh p f).ch = s.ch := rfl
@[simp] theorem State.updPh_adm (p : Fin 16) (f : Phase → Phase) : (s.updPh p f).adm = s.adm := rfl
@[simp] theorem State.updPh_grp (p : Fin 16) (f : Phase → Phase) : (s.updPh p f).grp = s.grp := rfl
@[simp] theorem State.updPh_g4 (p : Fin 16) (f : Phase → Phase) : (s.updPh p f).g4 = s.g4 := rfl
@[simp] theorem State.updPh_g4Ok (p : Fin 16) (f : Phase → Phase) : (s.updPh p f).g4Ok = s.g4Ok := rfl
@[simp] theorem State.updPh_hk (p : Fin 16) (f : Phase → Phase) : (s.updPh p f).hk = s.hk := rfl
@[simp] theorem State.updPh_cv (p : Fin 16) (f : Phase → Phase) : (s.updPh p f).cv = { s.cv with ph := s.cv.ph.set p.val (f s.cv.ph[p]) } := rfl
@[simp] theorem State.updPh_aux (p : Fin 16) (f : Phase → Phase) : (s.updPh p f).aux = s.aux := rfl
@[simp] theorem State.updPh_inj (p : Fin 16) (f : Phase → Phase) : (s.updPh p f).inj = s.inj := rfl
@[simp] theorem State.updPh_zone (p : Fin 16) (f : Phase → Phase) : (s.updPh p f).zone = s.zone := rfl
@[simp] theorem State.updPh_bat (p : Fin 16) (f : Phase → Phase) : (s.updPh p f).bat = s.bat := rfl
@[simp] theorem State.updPh_qs (p : Fin 16) (f : Phase → Phase) : (s.updPh p f).qs = s.qs := rfl
@[simp] theorem State.updPh_qmem (p : Fin 16) (f : Phase → Phase) : (s.updPh p f).qmem = s.qmem := rfl
@[simp] theorem State.updPh_winBase (p : Fin 16) (f : Phase → Phase) : (s.updPh p f).winBase = s.winBase := rfl
@[simp] theorem State.updPh_outs (p : Fin 16) (f : Phase → Phase) : (s.updPh p f).outs = s.outs := rfl
@[simp] theorem State.updPh_owners (p : Fin 16) (f : Phase → Phase) : (s.updPh p f).owners = s.owners := rfl
@[simp] theorem State.updPh_resOwner (p : Fin 16) (f : Phase → Phase) : (s.updPh p f).resOwner = s.resOwner := rfl
@[simp] theorem State.updPh_vio (p : Fin 16) (f : Phase → Phase) : (s.updPh p f).vio = s.vio := rfl
@[simp] theorem State.updPh_vioOver (p : Fin 16) (f : Phase → Phase) : (s.updPh p f).vioOver = s.vioOver := rfl
@[simp] theorem State.updPh_hpt (p : Fin 16) (f : Phase → Phase) : (s.updPh p f).hpt = s.hpt := rfl
@[simp] theorem State.updPh_hptAt (p : Fin 16) (f : Phase → Phase) : (s.updPh p f).hptAt = s.hptAt := rfl
@[simp] theorem State.updPh_nBeyond (p : Fin 16) (f : Phase → Phase) : (s.updPh p f).nBeyond = s.nBeyond := rfl
@[simp] theorem State.updPh_nLatMiss (p : Fin 16) (f : Phase → Phase) : (s.updPh p f).nLatMiss = s.nLatMiss := rfl
@[simp] theorem State.updPh_evDropped (p : Fin 16) (f : Phase → Phase) : (s.updPh p f).evDropped = s.evDropped := rfl
@[simp] theorem State.updPh_ccount (p : Fin 16) (f : Phase → Phase) : (s.updPh p f).ccount = s.ccount := rfl
@[simp] theorem State.updPh_ccountFirn (p : Fin 16) (f : Phase → Phase) : (s.updPh p f).ccountFirn = s.ccountFirn := rfl
@[simp] theorem State.updPh_ice (p : Fin 16) (f : Phase → Phase) : (s.updPh p f).ice = s.ice := rfl
@[simp] theorem State.updPh_net (p : Fin 16) (f : Phase → Phase) : (s.updPh p f).net = s.net := rfl
@[simp] theorem State.updPh_tw (p : Fin 16) (f : Phase → Phase) : (s.updPh p f).tw = s.tw := rfl
@[simp] theorem State.updPh_hinge (p : Fin 16) (f : Phase → Phase) : (s.updPh p f).hinge = s.hinge := rfl
@[simp] theorem State.updPh_tmb (p : Fin 16) (f : Phase → Phase) : (s.updPh p f).tmb = s.tmb := rfl
@[simp] theorem State.updPh_krg (p : Fin 16) (f : Phase → Phase) : (s.updPh p f).krg = s.krg := rfl
@[simp] theorem State.updPh_th (p : Fin 16) (f : Phase → Phase) : (s.updPh p f).th = s.th := rfl
@[simp] theorem State.updPh_pd (p : Fin 16) (f : Phase → Phase) : (s.updPh p f).pd = s.pd := rfl
@[simp] theorem State.updPh_upd (p : Fin 16) (f : Phase → Phase) : (s.updPh p f).upd = s.upd := rfl
@[simp] theorem State.updPh_otp (p : Fin 16) (f : Phase → Phase) : (s.updPh p f).otp = s.otp := rfl
@[simp] theorem State.updPh_spi (p : Fin 16) (f : Phase → Phase) : (s.updPh p f).spi = s.spi := rfl
@[simp] theorem State.updPh_cap (p : Fin 16) (f : Phase → Phase) : (s.updPh p f).cap = s.cap := rfl
@[simp] theorem State.updPh_snap0 (p : Fin 16) (f : Phase → Phase) : (s.updPh p f).snap0 = s.snap0 := rfl
@[simp] theorem State.updPh_snap1 (p : Fin 16) (f : Phase → Phase) : (s.updPh p f).snap1 = s.snap1 := rfl
@[simp] theorem State.updPh_snapSrc (p : Fin 16) (f : Phase → Phase) : (s.updPh p f).snapSrc = s.snapSrc := rfl
@[simp] theorem State.updPh_wmTrip (p : Fin 16) (f : Phase → Phase) : (s.updPh p f).wmTrip = s.wmTrip := rfl
@[simp] theorem State.updPh_wmRecDone (p : Fin 16) (f : Phase → Phase) : (s.updPh p f).wmRecDone = s.wmRecDone := rfl
@[simp] theorem State.updPh_acoh (p : Fin 16) (f : Phase → Phase) : (s.updPh p f).acoh = s.acoh := rfl
@[simp] theorem State.updPh_cvMarks (p : Fin 16) (f : Phase → Phase) : (s.updPh p f).cvMarks = s.cvMarks := rfl
@[simp] theorem State.updPh_mail (p : Fin 16) (f : Phase → Phase) : (s.updPh p f).mail = s.mail := rfl
@[simp] theorem State.updPh_mem (p : Fin 16) (f : Phase → Phase) : (s.updPh p f).mem = s.mem := rfl
@[simp] theorem State.updPh_linkLost (p : Fin 16) (f : Phase → Phase) : (s.updPh p f).linkLost = s.linkLost := rfl
@[simp] theorem State.updPh_s5Held (p : Fin 16) (f : Phase → Phase) : (s.updPh p f).s5Held = s.s5Held := rfl
@[simp] theorem State.updPh_rest (p : Fin 16) (f : Phase → Phase) : (s.updPh p f).rest = s.rest := rfl
@[simp] theorem State.updPh_promLost (p : Fin 16) (f : Phase → Phase) : (s.updPh p f).promLost = s.promLost := rfl
@[simp] theorem State.updPh_free (p : Fin 16) (f : Phase → Phase) : (s.updPh p f).free = s.free := rfl
@[simp] theorem State.updPh_pending (p : Fin 16) (f : Phase → Phase) : (s.updPh p f).pending = s.pending := rfl

@[simp] theorem State.updCap_pw (c : Fin 16) (f : Stream → Stream) : (s.updCap c f).pw = s.pw := rfl
@[simp] theorem State.updCap_clk (c : Fin 16) (f : Stream → Stream) : (s.updCap c f).clk = s.clk := rfl
@[simp] theorem State.updCap_fr (c : Fin 16) (f : Stream → Stream) : (s.updCap c f).fr = s.fr := rfl
@[simp] theorem State.updCap_pump (c : Fin 16) (f : Stream → Stream) : (s.updCap c f).pump = s.pump := rfl
@[simp] theorem State.updCap_settings (c : Fin 16) (f : Stream → Stream) : (s.updCap c f).settings = s.settings := rfl
@[simp] theorem State.updCap_staged (c : Fin 16) (f : Stream → Stream) : (s.updCap c f).staged = s.staged := rfl
@[simp] theorem State.updCap_ch (c : Fin 16) (f : Stream → Stream) : (s.updCap c f).ch = s.ch := rfl
@[simp] theorem State.updCap_adm (c : Fin 16) (f : Stream → Stream) : (s.updCap c f).adm = s.adm := rfl
@[simp] theorem State.updCap_grp (c : Fin 16) (f : Stream → Stream) : (s.updCap c f).grp = s.grp := rfl
@[simp] theorem State.updCap_g4 (c : Fin 16) (f : Stream → Stream) : (s.updCap c f).g4 = s.g4 := rfl
@[simp] theorem State.updCap_g4Ok (c : Fin 16) (f : Stream → Stream) : (s.updCap c f).g4Ok = s.g4Ok := rfl
@[simp] theorem State.updCap_hk (c : Fin 16) (f : Stream → Stream) : (s.updCap c f).hk = s.hk := rfl
@[simp] theorem State.updCap_cv (c : Fin 16) (f : Stream → Stream) : (s.updCap c f).cv = s.cv := rfl
@[simp] theorem State.updCap_aux (c : Fin 16) (f : Stream → Stream) : (s.updCap c f).aux = s.aux := rfl
@[simp] theorem State.updCap_inj (c : Fin 16) (f : Stream → Stream) : (s.updCap c f).inj = s.inj := rfl
@[simp] theorem State.updCap_zone (c : Fin 16) (f : Stream → Stream) : (s.updCap c f).zone = s.zone := rfl
@[simp] theorem State.updCap_bat (c : Fin 16) (f : Stream → Stream) : (s.updCap c f).bat = s.bat := rfl
@[simp] theorem State.updCap_qs (c : Fin 16) (f : Stream → Stream) : (s.updCap c f).qs = s.qs := rfl
@[simp] theorem State.updCap_qmem (c : Fin 16) (f : Stream → Stream) : (s.updCap c f).qmem = s.qmem := rfl
@[simp] theorem State.updCap_winBase (c : Fin 16) (f : Stream → Stream) : (s.updCap c f).winBase = s.winBase := rfl
@[simp] theorem State.updCap_outs (c : Fin 16) (f : Stream → Stream) : (s.updCap c f).outs = s.outs := rfl
@[simp] theorem State.updCap_owners (c : Fin 16) (f : Stream → Stream) : (s.updCap c f).owners = s.owners := rfl
@[simp] theorem State.updCap_resOwner (c : Fin 16) (f : Stream → Stream) : (s.updCap c f).resOwner = s.resOwner := rfl
@[simp] theorem State.updCap_vio (c : Fin 16) (f : Stream → Stream) : (s.updCap c f).vio = s.vio := rfl
@[simp] theorem State.updCap_vioOver (c : Fin 16) (f : Stream → Stream) : (s.updCap c f).vioOver = s.vioOver := rfl
@[simp] theorem State.updCap_hpt (c : Fin 16) (f : Stream → Stream) : (s.updCap c f).hpt = s.hpt := rfl
@[simp] theorem State.updCap_hptAt (c : Fin 16) (f : Stream → Stream) : (s.updCap c f).hptAt = s.hptAt := rfl
@[simp] theorem State.updCap_nBeyond (c : Fin 16) (f : Stream → Stream) : (s.updCap c f).nBeyond = s.nBeyond := rfl
@[simp] theorem State.updCap_nLatMiss (c : Fin 16) (f : Stream → Stream) : (s.updCap c f).nLatMiss = s.nLatMiss := rfl
@[simp] theorem State.updCap_evDropped (c : Fin 16) (f : Stream → Stream) : (s.updCap c f).evDropped = s.evDropped := rfl
@[simp] theorem State.updCap_ccount (c : Fin 16) (f : Stream → Stream) : (s.updCap c f).ccount = s.ccount := rfl
@[simp] theorem State.updCap_ccountFirn (c : Fin 16) (f : Stream → Stream) : (s.updCap c f).ccountFirn = s.ccountFirn := rfl
@[simp] theorem State.updCap_ice (c : Fin 16) (f : Stream → Stream) : (s.updCap c f).ice = s.ice := rfl
@[simp] theorem State.updCap_net (c : Fin 16) (f : Stream → Stream) : (s.updCap c f).net = s.net := rfl
@[simp] theorem State.updCap_tw (c : Fin 16) (f : Stream → Stream) : (s.updCap c f).tw = s.tw := rfl
@[simp] theorem State.updCap_hinge (c : Fin 16) (f : Stream → Stream) : (s.updCap c f).hinge = s.hinge := rfl
@[simp] theorem State.updCap_tmb (c : Fin 16) (f : Stream → Stream) : (s.updCap c f).tmb = s.tmb := rfl
@[simp] theorem State.updCap_krg (c : Fin 16) (f : Stream → Stream) : (s.updCap c f).krg = s.krg := rfl
@[simp] theorem State.updCap_th (c : Fin 16) (f : Stream → Stream) : (s.updCap c f).th = s.th := rfl
@[simp] theorem State.updCap_pd (c : Fin 16) (f : Stream → Stream) : (s.updCap c f).pd = s.pd := rfl
@[simp] theorem State.updCap_upd (c : Fin 16) (f : Stream → Stream) : (s.updCap c f).upd = s.upd := rfl
@[simp] theorem State.updCap_otp (c : Fin 16) (f : Stream → Stream) : (s.updCap c f).otp = s.otp := rfl
@[simp] theorem State.updCap_spi (c : Fin 16) (f : Stream → Stream) : (s.updCap c f).spi = s.spi := rfl
@[simp] theorem State.updCap_cap (c : Fin 16) (f : Stream → Stream) : (s.updCap c f).cap = s.cap.set c.val (f s.cap[c]) := rfl
@[simp] theorem State.updCap_snap0 (c : Fin 16) (f : Stream → Stream) : (s.updCap c f).snap0 = s.snap0 := rfl
@[simp] theorem State.updCap_snap1 (c : Fin 16) (f : Stream → Stream) : (s.updCap c f).snap1 = s.snap1 := rfl
@[simp] theorem State.updCap_snapSrc (c : Fin 16) (f : Stream → Stream) : (s.updCap c f).snapSrc = s.snapSrc := rfl
@[simp] theorem State.updCap_wmTrip (c : Fin 16) (f : Stream → Stream) : (s.updCap c f).wmTrip = s.wmTrip := rfl
@[simp] theorem State.updCap_wmRecDone (c : Fin 16) (f : Stream → Stream) : (s.updCap c f).wmRecDone = s.wmRecDone := rfl
@[simp] theorem State.updCap_acoh (c : Fin 16) (f : Stream → Stream) : (s.updCap c f).acoh = s.acoh := rfl
@[simp] theorem State.updCap_cvMarks (c : Fin 16) (f : Stream → Stream) : (s.updCap c f).cvMarks = s.cvMarks := rfl
@[simp] theorem State.updCap_mail (c : Fin 16) (f : Stream → Stream) : (s.updCap c f).mail = s.mail := rfl
@[simp] theorem State.updCap_mem (c : Fin 16) (f : Stream → Stream) : (s.updCap c f).mem = s.mem := rfl
@[simp] theorem State.updCap_linkLost (c : Fin 16) (f : Stream → Stream) : (s.updCap c f).linkLost = s.linkLost := rfl
@[simp] theorem State.updCap_s5Held (c : Fin 16) (f : Stream → Stream) : (s.updCap c f).s5Held = s.s5Held := rfl
@[simp] theorem State.updCap_rest (c : Fin 16) (f : Stream → Stream) : (s.updCap c f).rest = s.rest := rfl
@[simp] theorem State.updCap_promLost (c : Fin 16) (f : Stream → Stream) : (s.updCap c f).promLost = s.promLost := rfl
@[simp] theorem State.updCap_free (c : Fin 16) (f : Stream → Stream) : (s.updCap c f).free = s.free := rfl
@[simp] theorem State.updCap_pending (c : Fin 16) (f : Stream → Stream) : (s.updCap c f).pending = s.pending := rfl

@[simp] theorem State.dropOuts_pw (p : Out → Bool) : (s.dropOuts p).pw = s.pw := rfl
@[simp] theorem State.dropOuts_clk (p : Out → Bool) : (s.dropOuts p).clk = s.clk := rfl
@[simp] theorem State.dropOuts_fr (p : Out → Bool) : (s.dropOuts p).fr = s.fr := rfl
@[simp] theorem State.dropOuts_pump (p : Out → Bool) : (s.dropOuts p).pump = s.pump := rfl
@[simp] theorem State.dropOuts_settings (p : Out → Bool) : (s.dropOuts p).settings = s.settings := rfl
@[simp] theorem State.dropOuts_staged (p : Out → Bool) : (s.dropOuts p).staged = s.staged := rfl
@[simp] theorem State.dropOuts_ch (p : Out → Bool) : (s.dropOuts p).ch = s.ch := rfl
@[simp] theorem State.dropOuts_adm (p : Out → Bool) : (s.dropOuts p).adm = s.adm := rfl
@[simp] theorem State.dropOuts_grp (p : Out → Bool) : (s.dropOuts p).grp = s.grp := rfl
@[simp] theorem State.dropOuts_g4 (p : Out → Bool) : (s.dropOuts p).g4 = s.g4 := rfl
@[simp] theorem State.dropOuts_g4Ok (p : Out → Bool) : (s.dropOuts p).g4Ok = s.g4Ok := rfl
@[simp] theorem State.dropOuts_hk (p : Out → Bool) : (s.dropOuts p).hk = s.hk := rfl
@[simp] theorem State.dropOuts_cv (p : Out → Bool) : (s.dropOuts p).cv = s.cv := rfl
@[simp] theorem State.dropOuts_aux (p : Out → Bool) : (s.dropOuts p).aux = s.aux := rfl
@[simp] theorem State.dropOuts_inj (p : Out → Bool) : (s.dropOuts p).inj = s.inj := rfl
@[simp] theorem State.dropOuts_zone (p : Out → Bool) : (s.dropOuts p).zone = s.zone := rfl
@[simp] theorem State.dropOuts_bat (p : Out → Bool) : (s.dropOuts p).bat = s.bat := rfl
@[simp] theorem State.dropOuts_qs (p : Out → Bool) : (s.dropOuts p).qs = s.qs := rfl
@[simp] theorem State.dropOuts_qmem (p : Out → Bool) : (s.dropOuts p).qmem = s.qmem := rfl
@[simp] theorem State.dropOuts_winBase (p : Out → Bool) : (s.dropOuts p).winBase = s.winBase := rfl
@[simp] theorem State.dropOuts_outs (p : Out → Bool) : (s.dropOuts p).outs = s.outs.filter fun o => !p o := rfl
@[simp] theorem State.dropOuts_owners (p : Out → Bool) : (s.dropOuts p).owners = s.owners := rfl
@[simp] theorem State.dropOuts_resOwner (p : Out → Bool) : (s.dropOuts p).resOwner = s.resOwner := rfl
@[simp] theorem State.dropOuts_vio (p : Out → Bool) : (s.dropOuts p).vio = s.vio := rfl
@[simp] theorem State.dropOuts_vioOver (p : Out → Bool) : (s.dropOuts p).vioOver = s.vioOver := rfl
@[simp] theorem State.dropOuts_hpt (p : Out → Bool) : (s.dropOuts p).hpt = s.hpt := rfl
@[simp] theorem State.dropOuts_hptAt (p : Out → Bool) : (s.dropOuts p).hptAt = s.hptAt := rfl
@[simp] theorem State.dropOuts_nBeyond (p : Out → Bool) : (s.dropOuts p).nBeyond = s.nBeyond := rfl
@[simp] theorem State.dropOuts_nLatMiss (p : Out → Bool) : (s.dropOuts p).nLatMiss = s.nLatMiss := rfl
@[simp] theorem State.dropOuts_evDropped (p : Out → Bool) : (s.dropOuts p).evDropped = s.evDropped := rfl
@[simp] theorem State.dropOuts_ccount (p : Out → Bool) : (s.dropOuts p).ccount = s.ccount := rfl
@[simp] theorem State.dropOuts_ccountFirn (p : Out → Bool) : (s.dropOuts p).ccountFirn = s.ccountFirn := rfl
@[simp] theorem State.dropOuts_ice (p : Out → Bool) : (s.dropOuts p).ice = s.ice := rfl
@[simp] theorem State.dropOuts_net (p : Out → Bool) : (s.dropOuts p).net = s.net := rfl
@[simp] theorem State.dropOuts_tw (p : Out → Bool) : (s.dropOuts p).tw = s.tw := rfl
@[simp] theorem State.dropOuts_hinge (p : Out → Bool) : (s.dropOuts p).hinge = s.hinge := rfl
@[simp] theorem State.dropOuts_tmb (p : Out → Bool) : (s.dropOuts p).tmb = s.tmb := rfl
@[simp] theorem State.dropOuts_krg (p : Out → Bool) : (s.dropOuts p).krg = s.krg := rfl
@[simp] theorem State.dropOuts_th (p : Out → Bool) : (s.dropOuts p).th = s.th := rfl
@[simp] theorem State.dropOuts_pd (p : Out → Bool) : (s.dropOuts p).pd = s.pd := rfl
@[simp] theorem State.dropOuts_upd (p : Out → Bool) : (s.dropOuts p).upd = s.upd := rfl
@[simp] theorem State.dropOuts_otp (p : Out → Bool) : (s.dropOuts p).otp = s.otp := rfl
@[simp] theorem State.dropOuts_spi (p : Out → Bool) : (s.dropOuts p).spi = s.spi := rfl
@[simp] theorem State.dropOuts_cap (p : Out → Bool) : (s.dropOuts p).cap = s.cap := rfl
@[simp] theorem State.dropOuts_snap0 (p : Out → Bool) : (s.dropOuts p).snap0 = s.snap0 := rfl
@[simp] theorem State.dropOuts_snap1 (p : Out → Bool) : (s.dropOuts p).snap1 = s.snap1 := rfl
@[simp] theorem State.dropOuts_snapSrc (p : Out → Bool) : (s.dropOuts p).snapSrc = s.snapSrc := rfl
@[simp] theorem State.dropOuts_wmTrip (p : Out → Bool) : (s.dropOuts p).wmTrip = s.wmTrip := rfl
@[simp] theorem State.dropOuts_wmRecDone (p : Out → Bool) : (s.dropOuts p).wmRecDone = s.wmRecDone := rfl
@[simp] theorem State.dropOuts_acoh (p : Out → Bool) : (s.dropOuts p).acoh = s.acoh := rfl
@[simp] theorem State.dropOuts_cvMarks (p : Out → Bool) : (s.dropOuts p).cvMarks = s.cvMarks := rfl
@[simp] theorem State.dropOuts_mail (p : Out → Bool) : (s.dropOuts p).mail = s.mail := rfl
@[simp] theorem State.dropOuts_mem (p : Out → Bool) : (s.dropOuts p).mem = s.mem := rfl
@[simp] theorem State.dropOuts_linkLost (p : Out → Bool) : (s.dropOuts p).linkLost = s.linkLost := rfl
@[simp] theorem State.dropOuts_s5Held (p : Out → Bool) : (s.dropOuts p).s5Held = s.s5Held := rfl
@[simp] theorem State.dropOuts_rest (p : Out → Bool) : (s.dropOuts p).rest = s.rest := rfl
@[simp] theorem State.dropOuts_promLost (p : Out → Bool) : (s.dropOuts p).promLost = s.promLost := rfl
@[simp] theorem State.dropOuts_free (p : Out → Bool) : (s.dropOuts p).free = s.free := rfl
@[simp] theorem State.dropOuts_pending (p : Out → Bool) : (s.dropOuts p).pending = s.pending := rfl

@[simp] theorem State.await_pw (t : Taken) (w : Wait) : (s.await t w).pw = s.pw := rfl
@[simp] theorem State.await_clk (t : Taken) (w : Wait) : (s.await t w).clk = s.clk := rfl
@[simp] theorem State.await_fr (t : Taken) (w : Wait) : (s.await t w).fr = s.fr := rfl
@[simp] theorem State.await_pump (t : Taken) (w : Wait) : (s.await t w).pump = s.pump := rfl
@[simp] theorem State.await_settings (t : Taken) (w : Wait) : (s.await t w).settings = s.settings := rfl
@[simp] theorem State.await_staged (t : Taken) (w : Wait) : (s.await t w).staged = s.staged := rfl
@[simp] theorem State.await_ch (t : Taken) (w : Wait) : (s.await t w).ch = s.ch := rfl
@[simp] theorem State.await_adm (t : Taken) (w : Wait) : (s.await t w).adm = s.adm := rfl
@[simp] theorem State.await_grp (t : Taken) (w : Wait) : (s.await t w).grp = s.grp := rfl
@[simp] theorem State.await_g4 (t : Taken) (w : Wait) : (s.await t w).g4 = s.g4 := rfl
@[simp] theorem State.await_g4Ok (t : Taken) (w : Wait) : (s.await t w).g4Ok = s.g4Ok := rfl
@[simp] theorem State.await_hk (t : Taken) (w : Wait) : (s.await t w).hk = s.hk := rfl
@[simp] theorem State.await_cv (t : Taken) (w : Wait) : (s.await t w).cv = s.cv := rfl
@[simp] theorem State.await_aux (t : Taken) (w : Wait) : (s.await t w).aux = s.aux := rfl
@[simp] theorem State.await_inj (t : Taken) (w : Wait) : (s.await t w).inj = s.inj := rfl
@[simp] theorem State.await_zone (t : Taken) (w : Wait) : (s.await t w).zone = s.zone := rfl
@[simp] theorem State.await_bat (t : Taken) (w : Wait) : (s.await t w).bat = s.bat := rfl
@[simp] theorem State.await_qs (t : Taken) (w : Wait) : (s.await t w).qs = s.qs := rfl
@[simp] theorem State.await_qmem (t : Taken) (w : Wait) : (s.await t w).qmem = s.qmem := rfl
@[simp] theorem State.await_winBase (t : Taken) (w : Wait) : (s.await t w).winBase = s.winBase := rfl
@[simp] theorem State.await_outs (t : Taken) (w : Wait) : (s.await t w).outs = s.outs ++ [⟨t, s.outs.length, w⟩] := rfl
@[simp] theorem State.await_owners (t : Taken) (w : Wait) : (s.await t w).owners = s.owners := rfl
@[simp] theorem State.await_resOwner (t : Taken) (w : Wait) : (s.await t w).resOwner = s.resOwner := rfl
@[simp] theorem State.await_vio (t : Taken) (w : Wait) : (s.await t w).vio = s.vio := rfl
@[simp] theorem State.await_vioOver (t : Taken) (w : Wait) : (s.await t w).vioOver = s.vioOver := rfl
@[simp] theorem State.await_hpt (t : Taken) (w : Wait) : (s.await t w).hpt = s.hpt := rfl
@[simp] theorem State.await_hptAt (t : Taken) (w : Wait) : (s.await t w).hptAt = s.hptAt := rfl
@[simp] theorem State.await_nBeyond (t : Taken) (w : Wait) : (s.await t w).nBeyond = s.nBeyond := rfl
@[simp] theorem State.await_nLatMiss (t : Taken) (w : Wait) : (s.await t w).nLatMiss = s.nLatMiss := rfl
@[simp] theorem State.await_evDropped (t : Taken) (w : Wait) : (s.await t w).evDropped = s.evDropped := rfl
@[simp] theorem State.await_ccount (t : Taken) (w : Wait) : (s.await t w).ccount = s.ccount := rfl
@[simp] theorem State.await_ccountFirn (t : Taken) (w : Wait) : (s.await t w).ccountFirn = s.ccountFirn := rfl
@[simp] theorem State.await_ice (t : Taken) (w : Wait) : (s.await t w).ice = s.ice := rfl
@[simp] theorem State.await_net (t : Taken) (w : Wait) : (s.await t w).net = s.net := rfl
@[simp] theorem State.await_tw (t : Taken) (w : Wait) : (s.await t w).tw = s.tw := rfl
@[simp] theorem State.await_hinge (t : Taken) (w : Wait) : (s.await t w).hinge = s.hinge := rfl
@[simp] theorem State.await_tmb (t : Taken) (w : Wait) : (s.await t w).tmb = s.tmb := rfl
@[simp] theorem State.await_krg (t : Taken) (w : Wait) : (s.await t w).krg = s.krg := rfl
@[simp] theorem State.await_th (t : Taken) (w : Wait) : (s.await t w).th = s.th := rfl
@[simp] theorem State.await_pd (t : Taken) (w : Wait) : (s.await t w).pd = s.pd := rfl
@[simp] theorem State.await_upd (t : Taken) (w : Wait) : (s.await t w).upd = s.upd := rfl
@[simp] theorem State.await_otp (t : Taken) (w : Wait) : (s.await t w).otp = s.otp := rfl
@[simp] theorem State.await_spi (t : Taken) (w : Wait) : (s.await t w).spi = s.spi := rfl
@[simp] theorem State.await_cap (t : Taken) (w : Wait) : (s.await t w).cap = s.cap := rfl
@[simp] theorem State.await_snap0 (t : Taken) (w : Wait) : (s.await t w).snap0 = s.snap0 := rfl
@[simp] theorem State.await_snap1 (t : Taken) (w : Wait) : (s.await t w).snap1 = s.snap1 := rfl
@[simp] theorem State.await_snapSrc (t : Taken) (w : Wait) : (s.await t w).snapSrc = s.snapSrc := rfl
@[simp] theorem State.await_wmTrip (t : Taken) (w : Wait) : (s.await t w).wmTrip = s.wmTrip := rfl
@[simp] theorem State.await_wmRecDone (t : Taken) (w : Wait) : (s.await t w).wmRecDone = s.wmRecDone := rfl
@[simp] theorem State.await_acoh (t : Taken) (w : Wait) : (s.await t w).acoh = s.acoh := rfl
@[simp] theorem State.await_cvMarks (t : Taken) (w : Wait) : (s.await t w).cvMarks = s.cvMarks := rfl
@[simp] theorem State.await_mail (t : Taken) (w : Wait) : (s.await t w).mail = s.mail := rfl
@[simp] theorem State.await_mem (t : Taken) (w : Wait) : (s.await t w).mem = s.mem := rfl
@[simp] theorem State.await_linkLost (t : Taken) (w : Wait) : (s.await t w).linkLost = s.linkLost := rfl
@[simp] theorem State.await_s5Held (t : Taken) (w : Wait) : (s.await t w).s5Held = s.s5Held := rfl
@[simp] theorem State.await_rest (t : Taken) (w : Wait) : (s.await t w).rest = s.rest := rfl
@[simp] theorem State.await_promLost (t : Taken) (w : Wait) : (s.await t w).promLost = s.promLost := rfl
@[simp] theorem State.await_free (t : Taken) (w : Wait) : (s.await t w).free = s.free := rfl
@[simp] theorem State.await_pending (t : Taken) (w : Wait) : (s.await t w).pending = s.pending := rfl

@[simp] theorem State.updPw_pw (f : Power → Power) : (s.updPw f).pw = f s.pw := rfl
@[simp] theorem State.updPw_clk (f : Power → Power) : (s.updPw f).clk = s.clk := rfl
@[simp] theorem State.updPw_fr (f : Power → Power) : (s.updPw f).fr = s.fr := rfl
@[simp] theorem State.updPw_pump (f : Power → Power) : (s.updPw f).pump = s.pump := rfl
@[simp] theorem State.updPw_settings (f : Power → Power) : (s.updPw f).settings = s.settings := rfl
@[simp] theorem State.updPw_staged (f : Power → Power) : (s.updPw f).staged = s.staged := rfl
@[simp] theorem State.updPw_ch (f : Power → Power) : (s.updPw f).ch = s.ch := rfl
@[simp] theorem State.updPw_adm (f : Power → Power) : (s.updPw f).adm = s.adm := rfl
@[simp] theorem State.updPw_grp (f : Power → Power) : (s.updPw f).grp = s.grp := rfl
@[simp] theorem State.updPw_g4 (f : Power → Power) : (s.updPw f).g4 = s.g4 := rfl
@[simp] theorem State.updPw_g4Ok (f : Power → Power) : (s.updPw f).g4Ok = s.g4Ok := rfl
@[simp] theorem State.updPw_hk (f : Power → Power) : (s.updPw f).hk = s.hk := rfl
@[simp] theorem State.updPw_cv (f : Power → Power) : (s.updPw f).cv = s.cv := rfl
@[simp] theorem State.updPw_aux (f : Power → Power) : (s.updPw f).aux = s.aux := rfl
@[simp] theorem State.updPw_inj (f : Power → Power) : (s.updPw f).inj = s.inj := rfl
@[simp] theorem State.updPw_zone (f : Power → Power) : (s.updPw f).zone = s.zone := rfl
@[simp] theorem State.updPw_bat (f : Power → Power) : (s.updPw f).bat = s.bat := rfl
@[simp] theorem State.updPw_qs (f : Power → Power) : (s.updPw f).qs = s.qs := rfl
@[simp] theorem State.updPw_qmem (f : Power → Power) : (s.updPw f).qmem = s.qmem := rfl
@[simp] theorem State.updPw_winBase (f : Power → Power) : (s.updPw f).winBase = s.winBase := rfl
@[simp] theorem State.updPw_outs (f : Power → Power) : (s.updPw f).outs = s.outs := rfl
@[simp] theorem State.updPw_owners (f : Power → Power) : (s.updPw f).owners = s.owners := rfl
@[simp] theorem State.updPw_resOwner (f : Power → Power) : (s.updPw f).resOwner = s.resOwner := rfl
@[simp] theorem State.updPw_vio (f : Power → Power) : (s.updPw f).vio = s.vio := rfl
@[simp] theorem State.updPw_vioOver (f : Power → Power) : (s.updPw f).vioOver = s.vioOver := rfl
@[simp] theorem State.updPw_hpt (f : Power → Power) : (s.updPw f).hpt = s.hpt := rfl
@[simp] theorem State.updPw_hptAt (f : Power → Power) : (s.updPw f).hptAt = s.hptAt := rfl
@[simp] theorem State.updPw_nBeyond (f : Power → Power) : (s.updPw f).nBeyond = s.nBeyond := rfl
@[simp] theorem State.updPw_nLatMiss (f : Power → Power) : (s.updPw f).nLatMiss = s.nLatMiss := rfl
@[simp] theorem State.updPw_evDropped (f : Power → Power) : (s.updPw f).evDropped = s.evDropped := rfl
@[simp] theorem State.updPw_ccount (f : Power → Power) : (s.updPw f).ccount = s.ccount := rfl
@[simp] theorem State.updPw_ccountFirn (f : Power → Power) : (s.updPw f).ccountFirn = s.ccountFirn := rfl
@[simp] theorem State.updPw_ice (f : Power → Power) : (s.updPw f).ice = s.ice := rfl
@[simp] theorem State.updPw_net (f : Power → Power) : (s.updPw f).net = s.net := rfl
@[simp] theorem State.updPw_tw (f : Power → Power) : (s.updPw f).tw = s.tw := rfl
@[simp] theorem State.updPw_hinge (f : Power → Power) : (s.updPw f).hinge = s.hinge := rfl
@[simp] theorem State.updPw_tmb (f : Power → Power) : (s.updPw f).tmb = s.tmb := rfl
@[simp] theorem State.updPw_krg (f : Power → Power) : (s.updPw f).krg = s.krg := rfl
@[simp] theorem State.updPw_th (f : Power → Power) : (s.updPw f).th = s.th := rfl
@[simp] theorem State.updPw_pd (f : Power → Power) : (s.updPw f).pd = s.pd := rfl
@[simp] theorem State.updPw_upd (f : Power → Power) : (s.updPw f).upd = s.upd := rfl
@[simp] theorem State.updPw_otp (f : Power → Power) : (s.updPw f).otp = s.otp := rfl
@[simp] theorem State.updPw_spi (f : Power → Power) : (s.updPw f).spi = s.spi := rfl
@[simp] theorem State.updPw_cap (f : Power → Power) : (s.updPw f).cap = s.cap := rfl
@[simp] theorem State.updPw_snap0 (f : Power → Power) : (s.updPw f).snap0 = s.snap0 := rfl
@[simp] theorem State.updPw_snap1 (f : Power → Power) : (s.updPw f).snap1 = s.snap1 := rfl
@[simp] theorem State.updPw_snapSrc (f : Power → Power) : (s.updPw f).snapSrc = s.snapSrc := rfl
@[simp] theorem State.updPw_wmTrip (f : Power → Power) : (s.updPw f).wmTrip = s.wmTrip := rfl
@[simp] theorem State.updPw_wmRecDone (f : Power → Power) : (s.updPw f).wmRecDone = s.wmRecDone := rfl
@[simp] theorem State.updPw_acoh (f : Power → Power) : (s.updPw f).acoh = s.acoh := rfl
@[simp] theorem State.updPw_cvMarks (f : Power → Power) : (s.updPw f).cvMarks = s.cvMarks := rfl
@[simp] theorem State.updPw_mail (f : Power → Power) : (s.updPw f).mail = s.mail := rfl
@[simp] theorem State.updPw_mem (f : Power → Power) : (s.updPw f).mem = s.mem := rfl
@[simp] theorem State.updPw_linkLost (f : Power → Power) : (s.updPw f).linkLost = s.linkLost := rfl
@[simp] theorem State.updPw_s5Held (f : Power → Power) : (s.updPw f).s5Held = s.s5Held := rfl
@[simp] theorem State.updPw_rest (f : Power → Power) : (s.updPw f).rest = s.rest := rfl
@[simp] theorem State.updPw_promLost (f : Power → Power) : (s.updPw f).promLost = s.promLost := rfl
@[simp] theorem State.updPw_free (f : Power → Power) : (s.updPw f).free = s.free := rfl
@[simp] theorem State.updPw_pending (f : Power → Power) : (s.updPw f).pending = s.pending := rfl

@[simp] theorem State.updKrg_pw (f : Krg → Krg) : (s.updKrg f).pw = s.pw := rfl
@[simp] theorem State.updKrg_clk (f : Krg → Krg) : (s.updKrg f).clk = s.clk := rfl
@[simp] theorem State.updKrg_fr (f : Krg → Krg) : (s.updKrg f).fr = s.fr := rfl
@[simp] theorem State.updKrg_pump (f : Krg → Krg) : (s.updKrg f).pump = s.pump := rfl
@[simp] theorem State.updKrg_settings (f : Krg → Krg) : (s.updKrg f).settings = s.settings := rfl
@[simp] theorem State.updKrg_staged (f : Krg → Krg) : (s.updKrg f).staged = s.staged := rfl
@[simp] theorem State.updKrg_ch (f : Krg → Krg) : (s.updKrg f).ch = s.ch := rfl
@[simp] theorem State.updKrg_adm (f : Krg → Krg) : (s.updKrg f).adm = s.adm := rfl
@[simp] theorem State.updKrg_grp (f : Krg → Krg) : (s.updKrg f).grp = s.grp := rfl
@[simp] theorem State.updKrg_g4 (f : Krg → Krg) : (s.updKrg f).g4 = s.g4 := rfl
@[simp] theorem State.updKrg_g4Ok (f : Krg → Krg) : (s.updKrg f).g4Ok = s.g4Ok := rfl
@[simp] theorem State.updKrg_hk (f : Krg → Krg) : (s.updKrg f).hk = s.hk := rfl
@[simp] theorem State.updKrg_cv (f : Krg → Krg) : (s.updKrg f).cv = s.cv := rfl
@[simp] theorem State.updKrg_aux (f : Krg → Krg) : (s.updKrg f).aux = s.aux := rfl
@[simp] theorem State.updKrg_inj (f : Krg → Krg) : (s.updKrg f).inj = s.inj := rfl
@[simp] theorem State.updKrg_zone (f : Krg → Krg) : (s.updKrg f).zone = s.zone := rfl
@[simp] theorem State.updKrg_bat (f : Krg → Krg) : (s.updKrg f).bat = s.bat := rfl
@[simp] theorem State.updKrg_qs (f : Krg → Krg) : (s.updKrg f).qs = s.qs := rfl
@[simp] theorem State.updKrg_qmem (f : Krg → Krg) : (s.updKrg f).qmem = s.qmem := rfl
@[simp] theorem State.updKrg_winBase (f : Krg → Krg) : (s.updKrg f).winBase = s.winBase := rfl
@[simp] theorem State.updKrg_outs (f : Krg → Krg) : (s.updKrg f).outs = s.outs := rfl
@[simp] theorem State.updKrg_owners (f : Krg → Krg) : (s.updKrg f).owners = s.owners := rfl
@[simp] theorem State.updKrg_resOwner (f : Krg → Krg) : (s.updKrg f).resOwner = s.resOwner := rfl
@[simp] theorem State.updKrg_vio (f : Krg → Krg) : (s.updKrg f).vio = s.vio := rfl
@[simp] theorem State.updKrg_vioOver (f : Krg → Krg) : (s.updKrg f).vioOver = s.vioOver := rfl
@[simp] theorem State.updKrg_hpt (f : Krg → Krg) : (s.updKrg f).hpt = s.hpt := rfl
@[simp] theorem State.updKrg_hptAt (f : Krg → Krg) : (s.updKrg f).hptAt = s.hptAt := rfl
@[simp] theorem State.updKrg_nBeyond (f : Krg → Krg) : (s.updKrg f).nBeyond = s.nBeyond := rfl
@[simp] theorem State.updKrg_nLatMiss (f : Krg → Krg) : (s.updKrg f).nLatMiss = s.nLatMiss := rfl
@[simp] theorem State.updKrg_evDropped (f : Krg → Krg) : (s.updKrg f).evDropped = s.evDropped := rfl
@[simp] theorem State.updKrg_ccount (f : Krg → Krg) : (s.updKrg f).ccount = s.ccount := rfl
@[simp] theorem State.updKrg_ccountFirn (f : Krg → Krg) : (s.updKrg f).ccountFirn = s.ccountFirn := rfl
@[simp] theorem State.updKrg_ice (f : Krg → Krg) : (s.updKrg f).ice = s.ice := rfl
@[simp] theorem State.updKrg_net (f : Krg → Krg) : (s.updKrg f).net = s.net := rfl
@[simp] theorem State.updKrg_tw (f : Krg → Krg) : (s.updKrg f).tw = s.tw := rfl
@[simp] theorem State.updKrg_hinge (f : Krg → Krg) : (s.updKrg f).hinge = s.hinge := rfl
@[simp] theorem State.updKrg_tmb (f : Krg → Krg) : (s.updKrg f).tmb = s.tmb := rfl
@[simp] theorem State.updKrg_krg (f : Krg → Krg) : (s.updKrg f).krg = f s.krg := rfl
@[simp] theorem State.updKrg_th (f : Krg → Krg) : (s.updKrg f).th = s.th := rfl
@[simp] theorem State.updKrg_pd (f : Krg → Krg) : (s.updKrg f).pd = s.pd := rfl
@[simp] theorem State.updKrg_upd (f : Krg → Krg) : (s.updKrg f).upd = s.upd := rfl
@[simp] theorem State.updKrg_otp (f : Krg → Krg) : (s.updKrg f).otp = s.otp := rfl
@[simp] theorem State.updKrg_spi (f : Krg → Krg) : (s.updKrg f).spi = s.spi := rfl
@[simp] theorem State.updKrg_cap (f : Krg → Krg) : (s.updKrg f).cap = s.cap := rfl
@[simp] theorem State.updKrg_snap0 (f : Krg → Krg) : (s.updKrg f).snap0 = s.snap0 := rfl
@[simp] theorem State.updKrg_snap1 (f : Krg → Krg) : (s.updKrg f).snap1 = s.snap1 := rfl
@[simp] theorem State.updKrg_snapSrc (f : Krg → Krg) : (s.updKrg f).snapSrc = s.snapSrc := rfl
@[simp] theorem State.updKrg_wmTrip (f : Krg → Krg) : (s.updKrg f).wmTrip = s.wmTrip := rfl
@[simp] theorem State.updKrg_wmRecDone (f : Krg → Krg) : (s.updKrg f).wmRecDone = s.wmRecDone := rfl
@[simp] theorem State.updKrg_acoh (f : Krg → Krg) : (s.updKrg f).acoh = s.acoh := rfl
@[simp] theorem State.updKrg_cvMarks (f : Krg → Krg) : (s.updKrg f).cvMarks = s.cvMarks := rfl
@[simp] theorem State.updKrg_mail (f : Krg → Krg) : (s.updKrg f).mail = s.mail := rfl
@[simp] theorem State.updKrg_mem (f : Krg → Krg) : (s.updKrg f).mem = s.mem := rfl
@[simp] theorem State.updKrg_linkLost (f : Krg → Krg) : (s.updKrg f).linkLost = s.linkLost := rfl
@[simp] theorem State.updKrg_s5Held (f : Krg → Krg) : (s.updKrg f).s5Held = s.s5Held := rfl
@[simp] theorem State.updKrg_rest (f : Krg → Krg) : (s.updKrg f).rest = s.rest := rfl
@[simp] theorem State.updKrg_promLost (f : Krg → Krg) : (s.updKrg f).promLost = s.promLost := rfl
@[simp] theorem State.updKrg_free (f : Krg → Krg) : (s.updKrg f).free = s.free := rfl
@[simp] theorem State.updKrg_pending (f : Krg → Krg) : (s.updKrg f).pending = s.pending := rfl

@[simp] theorem State.updFr_pw (f : Frm → Frm) : (s.updFr f).pw = s.pw := rfl
@[simp] theorem State.updFr_clk (f : Frm → Frm) : (s.updFr f).clk = s.clk := rfl
@[simp] theorem State.updFr_fr (f : Frm → Frm) : (s.updFr f).fr = f s.fr := rfl
@[simp] theorem State.updFr_pump (f : Frm → Frm) : (s.updFr f).pump = s.pump := rfl
@[simp] theorem State.updFr_settings (f : Frm → Frm) : (s.updFr f).settings = s.settings := rfl
@[simp] theorem State.updFr_staged (f : Frm → Frm) : (s.updFr f).staged = s.staged := rfl
@[simp] theorem State.updFr_ch (f : Frm → Frm) : (s.updFr f).ch = s.ch := rfl
@[simp] theorem State.updFr_adm (f : Frm → Frm) : (s.updFr f).adm = s.adm := rfl
@[simp] theorem State.updFr_grp (f : Frm → Frm) : (s.updFr f).grp = s.grp := rfl
@[simp] theorem State.updFr_g4 (f : Frm → Frm) : (s.updFr f).g4 = s.g4 := rfl
@[simp] theorem State.updFr_g4Ok (f : Frm → Frm) : (s.updFr f).g4Ok = s.g4Ok := rfl
@[simp] theorem State.updFr_hk (f : Frm → Frm) : (s.updFr f).hk = s.hk := rfl
@[simp] theorem State.updFr_cv (f : Frm → Frm) : (s.updFr f).cv = s.cv := rfl
@[simp] theorem State.updFr_aux (f : Frm → Frm) : (s.updFr f).aux = s.aux := rfl
@[simp] theorem State.updFr_inj (f : Frm → Frm) : (s.updFr f).inj = s.inj := rfl
@[simp] theorem State.updFr_zone (f : Frm → Frm) : (s.updFr f).zone = s.zone := rfl
@[simp] theorem State.updFr_bat (f : Frm → Frm) : (s.updFr f).bat = s.bat := rfl
@[simp] theorem State.updFr_qs (f : Frm → Frm) : (s.updFr f).qs = s.qs := rfl
@[simp] theorem State.updFr_qmem (f : Frm → Frm) : (s.updFr f).qmem = s.qmem := rfl
@[simp] theorem State.updFr_winBase (f : Frm → Frm) : (s.updFr f).winBase = s.winBase := rfl
@[simp] theorem State.updFr_outs (f : Frm → Frm) : (s.updFr f).outs = s.outs := rfl
@[simp] theorem State.updFr_owners (f : Frm → Frm) : (s.updFr f).owners = s.owners := rfl
@[simp] theorem State.updFr_resOwner (f : Frm → Frm) : (s.updFr f).resOwner = s.resOwner := rfl
@[simp] theorem State.updFr_vio (f : Frm → Frm) : (s.updFr f).vio = s.vio := rfl
@[simp] theorem State.updFr_vioOver (f : Frm → Frm) : (s.updFr f).vioOver = s.vioOver := rfl
@[simp] theorem State.updFr_hpt (f : Frm → Frm) : (s.updFr f).hpt = s.hpt := rfl
@[simp] theorem State.updFr_hptAt (f : Frm → Frm) : (s.updFr f).hptAt = s.hptAt := rfl
@[simp] theorem State.updFr_nBeyond (f : Frm → Frm) : (s.updFr f).nBeyond = s.nBeyond := rfl
@[simp] theorem State.updFr_nLatMiss (f : Frm → Frm) : (s.updFr f).nLatMiss = s.nLatMiss := rfl
@[simp] theorem State.updFr_evDropped (f : Frm → Frm) : (s.updFr f).evDropped = s.evDropped := rfl
@[simp] theorem State.updFr_ccount (f : Frm → Frm) : (s.updFr f).ccount = s.ccount := rfl
@[simp] theorem State.updFr_ccountFirn (f : Frm → Frm) : (s.updFr f).ccountFirn = s.ccountFirn := rfl
@[simp] theorem State.updFr_ice (f : Frm → Frm) : (s.updFr f).ice = s.ice := rfl
@[simp] theorem State.updFr_net (f : Frm → Frm) : (s.updFr f).net = s.net := rfl
@[simp] theorem State.updFr_tw (f : Frm → Frm) : (s.updFr f).tw = s.tw := rfl
@[simp] theorem State.updFr_hinge (f : Frm → Frm) : (s.updFr f).hinge = s.hinge := rfl
@[simp] theorem State.updFr_tmb (f : Frm → Frm) : (s.updFr f).tmb = s.tmb := rfl
@[simp] theorem State.updFr_krg (f : Frm → Frm) : (s.updFr f).krg = s.krg := rfl
@[simp] theorem State.updFr_th (f : Frm → Frm) : (s.updFr f).th = s.th := rfl
@[simp] theorem State.updFr_pd (f : Frm → Frm) : (s.updFr f).pd = s.pd := rfl
@[simp] theorem State.updFr_upd (f : Frm → Frm) : (s.updFr f).upd = s.upd := rfl
@[simp] theorem State.updFr_otp (f : Frm → Frm) : (s.updFr f).otp = s.otp := rfl
@[simp] theorem State.updFr_spi (f : Frm → Frm) : (s.updFr f).spi = s.spi := rfl
@[simp] theorem State.updFr_cap (f : Frm → Frm) : (s.updFr f).cap = s.cap := rfl
@[simp] theorem State.updFr_snap0 (f : Frm → Frm) : (s.updFr f).snap0 = s.snap0 := rfl
@[simp] theorem State.updFr_snap1 (f : Frm → Frm) : (s.updFr f).snap1 = s.snap1 := rfl
@[simp] theorem State.updFr_snapSrc (f : Frm → Frm) : (s.updFr f).snapSrc = s.snapSrc := rfl
@[simp] theorem State.updFr_wmTrip (f : Frm → Frm) : (s.updFr f).wmTrip = s.wmTrip := rfl
@[simp] theorem State.updFr_wmRecDone (f : Frm → Frm) : (s.updFr f).wmRecDone = s.wmRecDone := rfl
@[simp] theorem State.updFr_acoh (f : Frm → Frm) : (s.updFr f).acoh = s.acoh := rfl
@[simp] theorem State.updFr_cvMarks (f : Frm → Frm) : (s.updFr f).cvMarks = s.cvMarks := rfl
@[simp] theorem State.updFr_mail (f : Frm → Frm) : (s.updFr f).mail = s.mail := rfl
@[simp] theorem State.updFr_mem (f : Frm → Frm) : (s.updFr f).mem = s.mem := rfl
@[simp] theorem State.updFr_linkLost (f : Frm → Frm) : (s.updFr f).linkLost = s.linkLost := rfl
@[simp] theorem State.updFr_s5Held (f : Frm → Frm) : (s.updFr f).s5Held = s.s5Held := rfl
@[simp] theorem State.updFr_rest (f : Frm → Frm) : (s.updFr f).rest = s.rest := rfl
@[simp] theorem State.updFr_promLost (f : Frm → Frm) : (s.updFr f).promLost = s.promLost := rfl
@[simp] theorem State.updFr_free (f : Frm → Frm) : (s.updFr f).free = s.free := rfl
@[simp] theorem State.updFr_pending (f : Frm → Frm) : (s.updFr f).pending = s.pending := rfl

@[simp] theorem State.updClk_pw (f : Clk → Clk) : (s.updClk f).pw = s.pw := rfl
@[simp] theorem State.updClk_clk (f : Clk → Clk) : (s.updClk f).clk = f s.clk := rfl
@[simp] theorem State.updClk_fr (f : Clk → Clk) : (s.updClk f).fr = s.fr := rfl
@[simp] theorem State.updClk_pump (f : Clk → Clk) : (s.updClk f).pump = s.pump := rfl
@[simp] theorem State.updClk_settings (f : Clk → Clk) : (s.updClk f).settings = s.settings := rfl
@[simp] theorem State.updClk_staged (f : Clk → Clk) : (s.updClk f).staged = s.staged := rfl
@[simp] theorem State.updClk_ch (f : Clk → Clk) : (s.updClk f).ch = s.ch := rfl
@[simp] theorem State.updClk_adm (f : Clk → Clk) : (s.updClk f).adm = s.adm := rfl
@[simp] theorem State.updClk_grp (f : Clk → Clk) : (s.updClk f).grp = s.grp := rfl
@[simp] theorem State.updClk_g4 (f : Clk → Clk) : (s.updClk f).g4 = s.g4 := rfl
@[simp] theorem State.updClk_g4Ok (f : Clk → Clk) : (s.updClk f).g4Ok = s.g4Ok := rfl
@[simp] theorem State.updClk_hk (f : Clk → Clk) : (s.updClk f).hk = s.hk := rfl
@[simp] theorem State.updClk_cv (f : Clk → Clk) : (s.updClk f).cv = s.cv := rfl
@[simp] theorem State.updClk_aux (f : Clk → Clk) : (s.updClk f).aux = s.aux := rfl
@[simp] theorem State.updClk_inj (f : Clk → Clk) : (s.updClk f).inj = s.inj := rfl
@[simp] theorem State.updClk_zone (f : Clk → Clk) : (s.updClk f).zone = s.zone := rfl
@[simp] theorem State.updClk_bat (f : Clk → Clk) : (s.updClk f).bat = s.bat := rfl
@[simp] theorem State.updClk_qs (f : Clk → Clk) : (s.updClk f).qs = s.qs := rfl
@[simp] theorem State.updClk_qmem (f : Clk → Clk) : (s.updClk f).qmem = s.qmem := rfl
@[simp] theorem State.updClk_winBase (f : Clk → Clk) : (s.updClk f).winBase = s.winBase := rfl
@[simp] theorem State.updClk_outs (f : Clk → Clk) : (s.updClk f).outs = s.outs := rfl
@[simp] theorem State.updClk_owners (f : Clk → Clk) : (s.updClk f).owners = s.owners := rfl
@[simp] theorem State.updClk_resOwner (f : Clk → Clk) : (s.updClk f).resOwner = s.resOwner := rfl
@[simp] theorem State.updClk_vio (f : Clk → Clk) : (s.updClk f).vio = s.vio := rfl
@[simp] theorem State.updClk_vioOver (f : Clk → Clk) : (s.updClk f).vioOver = s.vioOver := rfl
@[simp] theorem State.updClk_hpt (f : Clk → Clk) : (s.updClk f).hpt = s.hpt := rfl
@[simp] theorem State.updClk_hptAt (f : Clk → Clk) : (s.updClk f).hptAt = s.hptAt := rfl
@[simp] theorem State.updClk_nBeyond (f : Clk → Clk) : (s.updClk f).nBeyond = s.nBeyond := rfl
@[simp] theorem State.updClk_nLatMiss (f : Clk → Clk) : (s.updClk f).nLatMiss = s.nLatMiss := rfl
@[simp] theorem State.updClk_evDropped (f : Clk → Clk) : (s.updClk f).evDropped = s.evDropped := rfl
@[simp] theorem State.updClk_ccount (f : Clk → Clk) : (s.updClk f).ccount = s.ccount := rfl
@[simp] theorem State.updClk_ccountFirn (f : Clk → Clk) : (s.updClk f).ccountFirn = s.ccountFirn := rfl
@[simp] theorem State.updClk_ice (f : Clk → Clk) : (s.updClk f).ice = s.ice := rfl
@[simp] theorem State.updClk_net (f : Clk → Clk) : (s.updClk f).net = s.net := rfl
@[simp] theorem State.updClk_tw (f : Clk → Clk) : (s.updClk f).tw = s.tw := rfl
@[simp] theorem State.updClk_hinge (f : Clk → Clk) : (s.updClk f).hinge = s.hinge := rfl
@[simp] theorem State.updClk_tmb (f : Clk → Clk) : (s.updClk f).tmb = s.tmb := rfl
@[simp] theorem State.updClk_krg (f : Clk → Clk) : (s.updClk f).krg = s.krg := rfl
@[simp] theorem State.updClk_th (f : Clk → Clk) : (s.updClk f).th = s.th := rfl
@[simp] theorem State.updClk_pd (f : Clk → Clk) : (s.updClk f).pd = s.pd := rfl
@[simp] theorem State.updClk_upd (f : Clk → Clk) : (s.updClk f).upd = s.upd := rfl
@[simp] theorem State.updClk_otp (f : Clk → Clk) : (s.updClk f).otp = s.otp := rfl
@[simp] theorem State.updClk_spi (f : Clk → Clk) : (s.updClk f).spi = s.spi := rfl
@[simp] theorem State.updClk_cap (f : Clk → Clk) : (s.updClk f).cap = s.cap := rfl
@[simp] theorem State.updClk_snap0 (f : Clk → Clk) : (s.updClk f).snap0 = s.snap0 := rfl
@[simp] theorem State.updClk_snap1 (f : Clk → Clk) : (s.updClk f).snap1 = s.snap1 := rfl
@[simp] theorem State.updClk_snapSrc (f : Clk → Clk) : (s.updClk f).snapSrc = s.snapSrc := rfl
@[simp] theorem State.updClk_wmTrip (f : Clk → Clk) : (s.updClk f).wmTrip = s.wmTrip := rfl
@[simp] theorem State.updClk_wmRecDone (f : Clk → Clk) : (s.updClk f).wmRecDone = s.wmRecDone := rfl
@[simp] theorem State.updClk_acoh (f : Clk → Clk) : (s.updClk f).acoh = s.acoh := rfl
@[simp] theorem State.updClk_cvMarks (f : Clk → Clk) : (s.updClk f).cvMarks = s.cvMarks := rfl
@[simp] theorem State.updClk_mail (f : Clk → Clk) : (s.updClk f).mail = s.mail := rfl
@[simp] theorem State.updClk_mem (f : Clk → Clk) : (s.updClk f).mem = s.mem := rfl
@[simp] theorem State.updClk_linkLost (f : Clk → Clk) : (s.updClk f).linkLost = s.linkLost := rfl
@[simp] theorem State.updClk_s5Held (f : Clk → Clk) : (s.updClk f).s5Held = s.s5Held := rfl
@[simp] theorem State.updClk_rest (f : Clk → Clk) : (s.updClk f).rest = s.rest := rfl
@[simp] theorem State.updClk_promLost (f : Clk → Clk) : (s.updClk f).promLost = s.promLost := rfl
@[simp] theorem State.updClk_free (f : Clk → Clk) : (s.updClk f).free = s.free := rfl
@[simp] theorem State.updClk_pending (f : Clk → Clk) : (s.updClk f).pending = s.pending := rfl

@[simp] theorem State.updPump_pw (f : Pumps → Pumps) : (s.updPump f).pw = s.pw := rfl
@[simp] theorem State.updPump_clk (f : Pumps → Pumps) : (s.updPump f).clk = s.clk := rfl
@[simp] theorem State.updPump_fr (f : Pumps → Pumps) : (s.updPump f).fr = s.fr := rfl
@[simp] theorem State.updPump_pump (f : Pumps → Pumps) : (s.updPump f).pump = f s.pump := rfl
@[simp] theorem State.updPump_settings (f : Pumps → Pumps) : (s.updPump f).settings = s.settings := rfl
@[simp] theorem State.updPump_staged (f : Pumps → Pumps) : (s.updPump f).staged = s.staged := rfl
@[simp] theorem State.updPump_ch (f : Pumps → Pumps) : (s.updPump f).ch = s.ch := rfl
@[simp] theorem State.updPump_adm (f : Pumps → Pumps) : (s.updPump f).adm = s.adm := rfl
@[simp] theorem State.updPump_grp (f : Pumps → Pumps) : (s.updPump f).grp = s.grp := rfl
@[simp] theorem State.updPump_g4 (f : Pumps → Pumps) : (s.updPump f).g4 = s.g4 := rfl
@[simp] theorem State.updPump_g4Ok (f : Pumps → Pumps) : (s.updPump f).g4Ok = s.g4Ok := rfl
@[simp] theorem State.updPump_hk (f : Pumps → Pumps) : (s.updPump f).hk = s.hk := rfl
@[simp] theorem State.updPump_cv (f : Pumps → Pumps) : (s.updPump f).cv = s.cv := rfl
@[simp] theorem State.updPump_aux (f : Pumps → Pumps) : (s.updPump f).aux = s.aux := rfl
@[simp] theorem State.updPump_inj (f : Pumps → Pumps) : (s.updPump f).inj = s.inj := rfl
@[simp] theorem State.updPump_zone (f : Pumps → Pumps) : (s.updPump f).zone = s.zone := rfl
@[simp] theorem State.updPump_bat (f : Pumps → Pumps) : (s.updPump f).bat = s.bat := rfl
@[simp] theorem State.updPump_qs (f : Pumps → Pumps) : (s.updPump f).qs = s.qs := rfl
@[simp] theorem State.updPump_qmem (f : Pumps → Pumps) : (s.updPump f).qmem = s.qmem := rfl
@[simp] theorem State.updPump_winBase (f : Pumps → Pumps) : (s.updPump f).winBase = s.winBase := rfl
@[simp] theorem State.updPump_outs (f : Pumps → Pumps) : (s.updPump f).outs = s.outs := rfl
@[simp] theorem State.updPump_owners (f : Pumps → Pumps) : (s.updPump f).owners = s.owners := rfl
@[simp] theorem State.updPump_resOwner (f : Pumps → Pumps) : (s.updPump f).resOwner = s.resOwner := rfl
@[simp] theorem State.updPump_vio (f : Pumps → Pumps) : (s.updPump f).vio = s.vio := rfl
@[simp] theorem State.updPump_vioOver (f : Pumps → Pumps) : (s.updPump f).vioOver = s.vioOver := rfl
@[simp] theorem State.updPump_hpt (f : Pumps → Pumps) : (s.updPump f).hpt = s.hpt := rfl
@[simp] theorem State.updPump_hptAt (f : Pumps → Pumps) : (s.updPump f).hptAt = s.hptAt := rfl
@[simp] theorem State.updPump_nBeyond (f : Pumps → Pumps) : (s.updPump f).nBeyond = s.nBeyond := rfl
@[simp] theorem State.updPump_nLatMiss (f : Pumps → Pumps) : (s.updPump f).nLatMiss = s.nLatMiss := rfl
@[simp] theorem State.updPump_evDropped (f : Pumps → Pumps) : (s.updPump f).evDropped = s.evDropped := rfl
@[simp] theorem State.updPump_ccount (f : Pumps → Pumps) : (s.updPump f).ccount = s.ccount := rfl
@[simp] theorem State.updPump_ccountFirn (f : Pumps → Pumps) : (s.updPump f).ccountFirn = s.ccountFirn := rfl
@[simp] theorem State.updPump_ice (f : Pumps → Pumps) : (s.updPump f).ice = s.ice := rfl
@[simp] theorem State.updPump_net (f : Pumps → Pumps) : (s.updPump f).net = s.net := rfl
@[simp] theorem State.updPump_tw (f : Pumps → Pumps) : (s.updPump f).tw = s.tw := rfl
@[simp] theorem State.updPump_hinge (f : Pumps → Pumps) : (s.updPump f).hinge = s.hinge := rfl
@[simp] theorem State.updPump_tmb (f : Pumps → Pumps) : (s.updPump f).tmb = s.tmb := rfl
@[simp] theorem State.updPump_krg (f : Pumps → Pumps) : (s.updPump f).krg = s.krg := rfl
@[simp] theorem State.updPump_th (f : Pumps → Pumps) : (s.updPump f).th = s.th := rfl
@[simp] theorem State.updPump_pd (f : Pumps → Pumps) : (s.updPump f).pd = s.pd := rfl
@[simp] theorem State.updPump_upd (f : Pumps → Pumps) : (s.updPump f).upd = s.upd := rfl
@[simp] theorem State.updPump_otp (f : Pumps → Pumps) : (s.updPump f).otp = s.otp := rfl
@[simp] theorem State.updPump_spi (f : Pumps → Pumps) : (s.updPump f).spi = s.spi := rfl
@[simp] theorem State.updPump_cap (f : Pumps → Pumps) : (s.updPump f).cap = s.cap := rfl
@[simp] theorem State.updPump_snap0 (f : Pumps → Pumps) : (s.updPump f).snap0 = s.snap0 := rfl
@[simp] theorem State.updPump_snap1 (f : Pumps → Pumps) : (s.updPump f).snap1 = s.snap1 := rfl
@[simp] theorem State.updPump_snapSrc (f : Pumps → Pumps) : (s.updPump f).snapSrc = s.snapSrc := rfl
@[simp] theorem State.updPump_wmTrip (f : Pumps → Pumps) : (s.updPump f).wmTrip = s.wmTrip := rfl
@[simp] theorem State.updPump_wmRecDone (f : Pumps → Pumps) : (s.updPump f).wmRecDone = s.wmRecDone := rfl
@[simp] theorem State.updPump_acoh (f : Pumps → Pumps) : (s.updPump f).acoh = s.acoh := rfl
@[simp] theorem State.updPump_cvMarks (f : Pumps → Pumps) : (s.updPump f).cvMarks = s.cvMarks := rfl
@[simp] theorem State.updPump_mail (f : Pumps → Pumps) : (s.updPump f).mail = s.mail := rfl
@[simp] theorem State.updPump_mem (f : Pumps → Pumps) : (s.updPump f).mem = s.mem := rfl
@[simp] theorem State.updPump_linkLost (f : Pumps → Pumps) : (s.updPump f).linkLost = s.linkLost := rfl
@[simp] theorem State.updPump_s5Held (f : Pumps → Pumps) : (s.updPump f).s5Held = s.s5Held := rfl
@[simp] theorem State.updPump_rest (f : Pumps → Pumps) : (s.updPump f).rest = s.rest := rfl
@[simp] theorem State.updPump_promLost (f : Pumps → Pumps) : (s.updPump f).promLost = s.promLost := rfl
@[simp] theorem State.updPump_free (f : Pumps → Pumps) : (s.updPump f).free = s.free := rfl
@[simp] theorem State.updPump_pending (f : Pumps → Pumps) : (s.updPump f).pending = s.pending := rfl

@[simp] theorem State.updTh_pw (f : Thermal → Thermal) : (s.updTh f).pw = s.pw := rfl
@[simp] theorem State.updTh_clk (f : Thermal → Thermal) : (s.updTh f).clk = s.clk := rfl
@[simp] theorem State.updTh_fr (f : Thermal → Thermal) : (s.updTh f).fr = s.fr := rfl
@[simp] theorem State.updTh_pump (f : Thermal → Thermal) : (s.updTh f).pump = s.pump := rfl
@[simp] theorem State.updTh_settings (f : Thermal → Thermal) : (s.updTh f).settings = s.settings := rfl
@[simp] theorem State.updTh_staged (f : Thermal → Thermal) : (s.updTh f).staged = s.staged := rfl
@[simp] theorem State.updTh_ch (f : Thermal → Thermal) : (s.updTh f).ch = s.ch := rfl
@[simp] theorem State.updTh_adm (f : Thermal → Thermal) : (s.updTh f).adm = s.adm := rfl
@[simp] theorem State.updTh_grp (f : Thermal → Thermal) : (s.updTh f).grp = s.grp := rfl
@[simp] theorem State.updTh_g4 (f : Thermal → Thermal) : (s.updTh f).g4 = s.g4 := rfl
@[simp] theorem State.updTh_g4Ok (f : Thermal → Thermal) : (s.updTh f).g4Ok = s.g4Ok := rfl
@[simp] theorem State.updTh_hk (f : Thermal → Thermal) : (s.updTh f).hk = s.hk := rfl
@[simp] theorem State.updTh_cv (f : Thermal → Thermal) : (s.updTh f).cv = s.cv := rfl
@[simp] theorem State.updTh_aux (f : Thermal → Thermal) : (s.updTh f).aux = s.aux := rfl
@[simp] theorem State.updTh_inj (f : Thermal → Thermal) : (s.updTh f).inj = s.inj := rfl
@[simp] theorem State.updTh_zone (f : Thermal → Thermal) : (s.updTh f).zone = s.zone := rfl
@[simp] theorem State.updTh_bat (f : Thermal → Thermal) : (s.updTh f).bat = s.bat := rfl
@[simp] theorem State.updTh_qs (f : Thermal → Thermal) : (s.updTh f).qs = s.qs := rfl
@[simp] theorem State.updTh_qmem (f : Thermal → Thermal) : (s.updTh f).qmem = s.qmem := rfl
@[simp] theorem State.updTh_winBase (f : Thermal → Thermal) : (s.updTh f).winBase = s.winBase := rfl
@[simp] theorem State.updTh_outs (f : Thermal → Thermal) : (s.updTh f).outs = s.outs := rfl
@[simp] theorem State.updTh_owners (f : Thermal → Thermal) : (s.updTh f).owners = s.owners := rfl
@[simp] theorem State.updTh_resOwner (f : Thermal → Thermal) : (s.updTh f).resOwner = s.resOwner := rfl
@[simp] theorem State.updTh_vio (f : Thermal → Thermal) : (s.updTh f).vio = s.vio := rfl
@[simp] theorem State.updTh_vioOver (f : Thermal → Thermal) : (s.updTh f).vioOver = s.vioOver := rfl
@[simp] theorem State.updTh_hpt (f : Thermal → Thermal) : (s.updTh f).hpt = s.hpt := rfl
@[simp] theorem State.updTh_hptAt (f : Thermal → Thermal) : (s.updTh f).hptAt = s.hptAt := rfl
@[simp] theorem State.updTh_nBeyond (f : Thermal → Thermal) : (s.updTh f).nBeyond = s.nBeyond := rfl
@[simp] theorem State.updTh_nLatMiss (f : Thermal → Thermal) : (s.updTh f).nLatMiss = s.nLatMiss := rfl
@[simp] theorem State.updTh_evDropped (f : Thermal → Thermal) : (s.updTh f).evDropped = s.evDropped := rfl
@[simp] theorem State.updTh_ccount (f : Thermal → Thermal) : (s.updTh f).ccount = s.ccount := rfl
@[simp] theorem State.updTh_ccountFirn (f : Thermal → Thermal) : (s.updTh f).ccountFirn = s.ccountFirn := rfl
@[simp] theorem State.updTh_ice (f : Thermal → Thermal) : (s.updTh f).ice = s.ice := rfl
@[simp] theorem State.updTh_net (f : Thermal → Thermal) : (s.updTh f).net = s.net := rfl
@[simp] theorem State.updTh_tw (f : Thermal → Thermal) : (s.updTh f).tw = s.tw := rfl
@[simp] theorem State.updTh_hinge (f : Thermal → Thermal) : (s.updTh f).hinge = s.hinge := rfl
@[simp] theorem State.updTh_tmb (f : Thermal → Thermal) : (s.updTh f).tmb = s.tmb := rfl
@[simp] theorem State.updTh_krg (f : Thermal → Thermal) : (s.updTh f).krg = s.krg := rfl
@[simp] theorem State.updTh_th (f : Thermal → Thermal) : (s.updTh f).th = f s.th := rfl
@[simp] theorem State.updTh_pd (f : Thermal → Thermal) : (s.updTh f).pd = s.pd := rfl
@[simp] theorem State.updTh_upd (f : Thermal → Thermal) : (s.updTh f).upd = s.upd := rfl
@[simp] theorem State.updTh_otp (f : Thermal → Thermal) : (s.updTh f).otp = s.otp := rfl
@[simp] theorem State.updTh_spi (f : Thermal → Thermal) : (s.updTh f).spi = s.spi := rfl
@[simp] theorem State.updTh_cap (f : Thermal → Thermal) : (s.updTh f).cap = s.cap := rfl
@[simp] theorem State.updTh_snap0 (f : Thermal → Thermal) : (s.updTh f).snap0 = s.snap0 := rfl
@[simp] theorem State.updTh_snap1 (f : Thermal → Thermal) : (s.updTh f).snap1 = s.snap1 := rfl
@[simp] theorem State.updTh_snapSrc (f : Thermal → Thermal) : (s.updTh f).snapSrc = s.snapSrc := rfl
@[simp] theorem State.updTh_wmTrip (f : Thermal → Thermal) : (s.updTh f).wmTrip = s.wmTrip := rfl
@[simp] theorem State.updTh_wmRecDone (f : Thermal → Thermal) : (s.updTh f).wmRecDone = s.wmRecDone := rfl
@[simp] theorem State.updTh_acoh (f : Thermal → Thermal) : (s.updTh f).acoh = s.acoh := rfl
@[simp] theorem State.updTh_cvMarks (f : Thermal → Thermal) : (s.updTh f).cvMarks = s.cvMarks := rfl
@[simp] theorem State.updTh_mail (f : Thermal → Thermal) : (s.updTh f).mail = s.mail := rfl
@[simp] theorem State.updTh_mem (f : Thermal → Thermal) : (s.updTh f).mem = s.mem := rfl
@[simp] theorem State.updTh_linkLost (f : Thermal → Thermal) : (s.updTh f).linkLost = s.linkLost := rfl
@[simp] theorem State.updTh_s5Held (f : Thermal → Thermal) : (s.updTh f).s5Held = s.s5Held := rfl
@[simp] theorem State.updTh_rest (f : Thermal → Thermal) : (s.updTh f).rest = s.rest := rfl
@[simp] theorem State.updTh_promLost (f : Thermal → Thermal) : (s.updTh f).promLost = s.promLost := rfl
@[simp] theorem State.updTh_free (f : Thermal → Thermal) : (s.updTh f).free = s.free := rfl
@[simp] theorem State.updTh_pending (f : Thermal → Thermal) : (s.updTh f).pending = s.pending := rfl

@[simp] theorem State.updTw_pw (f : Tw → Tw) : (s.updTw f).pw = s.pw := rfl
@[simp] theorem State.updTw_clk (f : Tw → Tw) : (s.updTw f).clk = s.clk := rfl
@[simp] theorem State.updTw_fr (f : Tw → Tw) : (s.updTw f).fr = s.fr := rfl
@[simp] theorem State.updTw_pump (f : Tw → Tw) : (s.updTw f).pump = s.pump := rfl
@[simp] theorem State.updTw_settings (f : Tw → Tw) : (s.updTw f).settings = s.settings := rfl
@[simp] theorem State.updTw_staged (f : Tw → Tw) : (s.updTw f).staged = s.staged := rfl
@[simp] theorem State.updTw_ch (f : Tw → Tw) : (s.updTw f).ch = s.ch := rfl
@[simp] theorem State.updTw_adm (f : Tw → Tw) : (s.updTw f).adm = s.adm := rfl
@[simp] theorem State.updTw_grp (f : Tw → Tw) : (s.updTw f).grp = s.grp := rfl
@[simp] theorem State.updTw_g4 (f : Tw → Tw) : (s.updTw f).g4 = s.g4 := rfl
@[simp] theorem State.updTw_g4Ok (f : Tw → Tw) : (s.updTw f).g4Ok = s.g4Ok := rfl
@[simp] theorem State.updTw_hk (f : Tw → Tw) : (s.updTw f).hk = s.hk := rfl
@[simp] theorem State.updTw_cv (f : Tw → Tw) : (s.updTw f).cv = s.cv := rfl
@[simp] theorem State.updTw_aux (f : Tw → Tw) : (s.updTw f).aux = s.aux := rfl
@[simp] theorem State.updTw_inj (f : Tw → Tw) : (s.updTw f).inj = s.inj := rfl
@[simp] theorem State.updTw_zone (f : Tw → Tw) : (s.updTw f).zone = s.zone := rfl
@[simp] theorem State.updTw_bat (f : Tw → Tw) : (s.updTw f).bat = s.bat := rfl
@[simp] theorem State.updTw_qs (f : Tw → Tw) : (s.updTw f).qs = s.qs := rfl
@[simp] theorem State.updTw_qmem (f : Tw → Tw) : (s.updTw f).qmem = s.qmem := rfl
@[simp] theorem State.updTw_winBase (f : Tw → Tw) : (s.updTw f).winBase = s.winBase := rfl
@[simp] theorem State.updTw_outs (f : Tw → Tw) : (s.updTw f).outs = s.outs := rfl
@[simp] theorem State.updTw_owners (f : Tw → Tw) : (s.updTw f).owners = s.owners := rfl
@[simp] theorem State.updTw_resOwner (f : Tw → Tw) : (s.updTw f).resOwner = s.resOwner := rfl
@[simp] theorem State.updTw_vio (f : Tw → Tw) : (s.updTw f).vio = s.vio := rfl
@[simp] theorem State.updTw_vioOver (f : Tw → Tw) : (s.updTw f).vioOver = s.vioOver := rfl
@[simp] theorem State.updTw_hpt (f : Tw → Tw) : (s.updTw f).hpt = s.hpt := rfl
@[simp] theorem State.updTw_hptAt (f : Tw → Tw) : (s.updTw f).hptAt = s.hptAt := rfl
@[simp] theorem State.updTw_nBeyond (f : Tw → Tw) : (s.updTw f).nBeyond = s.nBeyond := rfl
@[simp] theorem State.updTw_nLatMiss (f : Tw → Tw) : (s.updTw f).nLatMiss = s.nLatMiss := rfl
@[simp] theorem State.updTw_evDropped (f : Tw → Tw) : (s.updTw f).evDropped = s.evDropped := rfl
@[simp] theorem State.updTw_ccount (f : Tw → Tw) : (s.updTw f).ccount = s.ccount := rfl
@[simp] theorem State.updTw_ccountFirn (f : Tw → Tw) : (s.updTw f).ccountFirn = s.ccountFirn := rfl
@[simp] theorem State.updTw_ice (f : Tw → Tw) : (s.updTw f).ice = s.ice := rfl
@[simp] theorem State.updTw_net (f : Tw → Tw) : (s.updTw f).net = s.net := rfl
@[simp] theorem State.updTw_tw (f : Tw → Tw) : (s.updTw f).tw = f s.tw := rfl
@[simp] theorem State.updTw_hinge (f : Tw → Tw) : (s.updTw f).hinge = s.hinge := rfl
@[simp] theorem State.updTw_tmb (f : Tw → Tw) : (s.updTw f).tmb = s.tmb := rfl
@[simp] theorem State.updTw_krg (f : Tw → Tw) : (s.updTw f).krg = s.krg := rfl
@[simp] theorem State.updTw_th (f : Tw → Tw) : (s.updTw f).th = s.th := rfl
@[simp] theorem State.updTw_pd (f : Tw → Tw) : (s.updTw f).pd = s.pd := rfl
@[simp] theorem State.updTw_upd (f : Tw → Tw) : (s.updTw f).upd = s.upd := rfl
@[simp] theorem State.updTw_otp (f : Tw → Tw) : (s.updTw f).otp = s.otp := rfl
@[simp] theorem State.updTw_spi (f : Tw → Tw) : (s.updTw f).spi = s.spi := rfl
@[simp] theorem State.updTw_cap (f : Tw → Tw) : (s.updTw f).cap = s.cap := rfl
@[simp] theorem State.updTw_snap0 (f : Tw → Tw) : (s.updTw f).snap0 = s.snap0 := rfl
@[simp] theorem State.updTw_snap1 (f : Tw → Tw) : (s.updTw f).snap1 = s.snap1 := rfl
@[simp] theorem State.updTw_snapSrc (f : Tw → Tw) : (s.updTw f).snapSrc = s.snapSrc := rfl
@[simp] theorem State.updTw_wmTrip (f : Tw → Tw) : (s.updTw f).wmTrip = s.wmTrip := rfl
@[simp] theorem State.updTw_wmRecDone (f : Tw → Tw) : (s.updTw f).wmRecDone = s.wmRecDone := rfl
@[simp] theorem State.updTw_acoh (f : Tw → Tw) : (s.updTw f).acoh = s.acoh := rfl
@[simp] theorem State.updTw_cvMarks (f : Tw → Tw) : (s.updTw f).cvMarks = s.cvMarks := rfl
@[simp] theorem State.updTw_mail (f : Tw → Tw) : (s.updTw f).mail = s.mail := rfl
@[simp] theorem State.updTw_mem (f : Tw → Tw) : (s.updTw f).mem = s.mem := rfl
@[simp] theorem State.updTw_linkLost (f : Tw → Tw) : (s.updTw f).linkLost = s.linkLost := rfl
@[simp] theorem State.updTw_s5Held (f : Tw → Tw) : (s.updTw f).s5Held = s.s5Held := rfl
@[simp] theorem State.updTw_rest (f : Tw → Tw) : (s.updTw f).rest = s.rest := rfl
@[simp] theorem State.updTw_promLost (f : Tw → Tw) : (s.updTw f).promLost = s.promLost := rfl
@[simp] theorem State.updTw_free (f : Tw → Tw) : (s.updTw f).free = s.free := rfl
@[simp] theorem State.updTw_pending (f : Tw → Tw) : (s.updTw f).pending = s.pending := rfl

@[simp] theorem State.updZone_pw (f : Zone → Zone) : (s.updZone f).pw = s.pw := rfl
@[simp] theorem State.updZone_clk (f : Zone → Zone) : (s.updZone f).clk = s.clk := rfl
@[simp] theorem State.updZone_fr (f : Zone → Zone) : (s.updZone f).fr = s.fr := rfl
@[simp] theorem State.updZone_pump (f : Zone → Zone) : (s.updZone f).pump = s.pump := rfl
@[simp] theorem State.updZone_settings (f : Zone → Zone) : (s.updZone f).settings = s.settings := rfl
@[simp] theorem State.updZone_staged (f : Zone → Zone) : (s.updZone f).staged = s.staged := rfl
@[simp] theorem State.updZone_ch (f : Zone → Zone) : (s.updZone f).ch = s.ch := rfl
@[simp] theorem State.updZone_adm (f : Zone → Zone) : (s.updZone f).adm = s.adm := rfl
@[simp] theorem State.updZone_grp (f : Zone → Zone) : (s.updZone f).grp = s.grp := rfl
@[simp] theorem State.updZone_g4 (f : Zone → Zone) : (s.updZone f).g4 = s.g4 := rfl
@[simp] theorem State.updZone_g4Ok (f : Zone → Zone) : (s.updZone f).g4Ok = s.g4Ok := rfl
@[simp] theorem State.updZone_hk (f : Zone → Zone) : (s.updZone f).hk = s.hk := rfl
@[simp] theorem State.updZone_cv (f : Zone → Zone) : (s.updZone f).cv = s.cv := rfl
@[simp] theorem State.updZone_aux (f : Zone → Zone) : (s.updZone f).aux = s.aux := rfl
@[simp] theorem State.updZone_inj (f : Zone → Zone) : (s.updZone f).inj = s.inj := rfl
@[simp] theorem State.updZone_zone (f : Zone → Zone) : (s.updZone f).zone = f s.zone := rfl
@[simp] theorem State.updZone_bat (f : Zone → Zone) : (s.updZone f).bat = s.bat := rfl
@[simp] theorem State.updZone_qs (f : Zone → Zone) : (s.updZone f).qs = s.qs := rfl
@[simp] theorem State.updZone_qmem (f : Zone → Zone) : (s.updZone f).qmem = s.qmem := rfl
@[simp] theorem State.updZone_winBase (f : Zone → Zone) : (s.updZone f).winBase = s.winBase := rfl
@[simp] theorem State.updZone_outs (f : Zone → Zone) : (s.updZone f).outs = s.outs := rfl
@[simp] theorem State.updZone_owners (f : Zone → Zone) : (s.updZone f).owners = s.owners := rfl
@[simp] theorem State.updZone_resOwner (f : Zone → Zone) : (s.updZone f).resOwner = s.resOwner := rfl
@[simp] theorem State.updZone_vio (f : Zone → Zone) : (s.updZone f).vio = s.vio := rfl
@[simp] theorem State.updZone_vioOver (f : Zone → Zone) : (s.updZone f).vioOver = s.vioOver := rfl
@[simp] theorem State.updZone_hpt (f : Zone → Zone) : (s.updZone f).hpt = s.hpt := rfl
@[simp] theorem State.updZone_hptAt (f : Zone → Zone) : (s.updZone f).hptAt = s.hptAt := rfl
@[simp] theorem State.updZone_nBeyond (f : Zone → Zone) : (s.updZone f).nBeyond = s.nBeyond := rfl
@[simp] theorem State.updZone_nLatMiss (f : Zone → Zone) : (s.updZone f).nLatMiss = s.nLatMiss := rfl
@[simp] theorem State.updZone_evDropped (f : Zone → Zone) : (s.updZone f).evDropped = s.evDropped := rfl
@[simp] theorem State.updZone_ccount (f : Zone → Zone) : (s.updZone f).ccount = s.ccount := rfl
@[simp] theorem State.updZone_ccountFirn (f : Zone → Zone) : (s.updZone f).ccountFirn = s.ccountFirn := rfl
@[simp] theorem State.updZone_ice (f : Zone → Zone) : (s.updZone f).ice = s.ice := rfl
@[simp] theorem State.updZone_net (f : Zone → Zone) : (s.updZone f).net = s.net := rfl
@[simp] theorem State.updZone_tw (f : Zone → Zone) : (s.updZone f).tw = s.tw := rfl
@[simp] theorem State.updZone_hinge (f : Zone → Zone) : (s.updZone f).hinge = s.hinge := rfl
@[simp] theorem State.updZone_tmb (f : Zone → Zone) : (s.updZone f).tmb = s.tmb := rfl
@[simp] theorem State.updZone_krg (f : Zone → Zone) : (s.updZone f).krg = s.krg := rfl
@[simp] theorem State.updZone_th (f : Zone → Zone) : (s.updZone f).th = s.th := rfl
@[simp] theorem State.updZone_pd (f : Zone → Zone) : (s.updZone f).pd = s.pd := rfl
@[simp] theorem State.updZone_upd (f : Zone → Zone) : (s.updZone f).upd = s.upd := rfl
@[simp] theorem State.updZone_otp (f : Zone → Zone) : (s.updZone f).otp = s.otp := rfl
@[simp] theorem State.updZone_spi (f : Zone → Zone) : (s.updZone f).spi = s.spi := rfl
@[simp] theorem State.updZone_cap (f : Zone → Zone) : (s.updZone f).cap = s.cap := rfl
@[simp] theorem State.updZone_snap0 (f : Zone → Zone) : (s.updZone f).snap0 = s.snap0 := rfl
@[simp] theorem State.updZone_snap1 (f : Zone → Zone) : (s.updZone f).snap1 = s.snap1 := rfl
@[simp] theorem State.updZone_snapSrc (f : Zone → Zone) : (s.updZone f).snapSrc = s.snapSrc := rfl
@[simp] theorem State.updZone_wmTrip (f : Zone → Zone) : (s.updZone f).wmTrip = s.wmTrip := rfl
@[simp] theorem State.updZone_wmRecDone (f : Zone → Zone) : (s.updZone f).wmRecDone = s.wmRecDone := rfl
@[simp] theorem State.updZone_acoh (f : Zone → Zone) : (s.updZone f).acoh = s.acoh := rfl
@[simp] theorem State.updZone_cvMarks (f : Zone → Zone) : (s.updZone f).cvMarks = s.cvMarks := rfl
@[simp] theorem State.updZone_mail (f : Zone → Zone) : (s.updZone f).mail = s.mail := rfl
@[simp] theorem State.updZone_mem (f : Zone → Zone) : (s.updZone f).mem = s.mem := rfl
@[simp] theorem State.updZone_linkLost (f : Zone → Zone) : (s.updZone f).linkLost = s.linkLost := rfl
@[simp] theorem State.updZone_s5Held (f : Zone → Zone) : (s.updZone f).s5Held = s.s5Held := rfl
@[simp] theorem State.updZone_rest (f : Zone → Zone) : (s.updZone f).rest = s.rest := rfl
@[simp] theorem State.updZone_promLost (f : Zone → Zone) : (s.updZone f).promLost = s.promLost := rfl
@[simp] theorem State.updZone_free (f : Zone → Zone) : (s.updZone f).free = s.free := rfl
@[simp] theorem State.updZone_pending (f : Zone → Zone) : (s.updZone f).pending = s.pending := rfl

@[simp] theorem State.setFault_pw (b : Fin 9) : (s.setFault b).pw = s.pw := rfl
@[simp] theorem State.setFault_clk (b : Fin 9) : (s.setFault b).clk = s.clk := rfl
@[simp] theorem State.setFault_fr (b : Fin 9) : (s.setFault b).fr = s.fr := rfl
@[simp] theorem State.setFault_pump (b : Fin 9) : (s.setFault b).pump = s.pump := rfl
@[simp] theorem State.setFault_settings (b : Fin 9) : (s.setFault b).settings = s.settings := rfl
@[simp] theorem State.setFault_staged (b : Fin 9) : (s.setFault b).staged = s.staged := rfl
@[simp] theorem State.setFault_ch (b : Fin 9) : (s.setFault b).ch = s.ch := rfl
@[simp] theorem State.setFault_adm (b : Fin 9) : (s.setFault b).adm = s.adm := rfl
@[simp] theorem State.setFault_grp (b : Fin 9) : (s.setFault b).grp = s.grp := rfl
@[simp] theorem State.setFault_g4 (b : Fin 9) : (s.setFault b).g4 = s.g4 := rfl
@[simp] theorem State.setFault_g4Ok (b : Fin 9) : (s.setFault b).g4Ok = s.g4Ok := rfl
@[simp] theorem State.setFault_hk (b : Fin 9) : (s.setFault b).hk = s.hk := rfl
@[simp] theorem State.setFault_cv (b : Fin 9) : (s.setFault b).cv = s.cv := rfl
@[simp] theorem State.setFault_aux (b : Fin 9) : (s.setFault b).aux = s.aux := rfl
@[simp] theorem State.setFault_inj (b : Fin 9) : (s.setFault b).inj = s.inj := rfl
@[simp] theorem State.setFault_zone (b : Fin 9) : (s.setFault b).zone = s.zone := rfl
@[simp] theorem State.setFault_bat (b : Fin 9) : (s.setFault b).bat = s.bat := rfl
@[simp] theorem State.setFault_qs (b : Fin 9) : (s.setFault b).qs = s.qs := rfl
@[simp] theorem State.setFault_qmem (b : Fin 9) : (s.setFault b).qmem = s.qmem := rfl
@[simp] theorem State.setFault_winBase (b : Fin 9) : (s.setFault b).winBase = s.winBase := rfl
@[simp] theorem State.setFault_outs (b : Fin 9) : (s.setFault b).outs = s.outs := rfl
@[simp] theorem State.setFault_owners (b : Fin 9) : (s.setFault b).owners = s.owners := rfl
@[simp] theorem State.setFault_resOwner (b : Fin 9) : (s.setFault b).resOwner = s.resOwner := rfl
@[simp] theorem State.setFault_vio (b : Fin 9) : (s.setFault b).vio = s.vio := rfl
@[simp] theorem State.setFault_vioOver (b : Fin 9) : (s.setFault b).vioOver = s.vioOver := rfl
@[simp] theorem State.setFault_hpt (b : Fin 9) : (s.setFault b).hpt = s.hpt ||| (1#9 <<< b.val) := rfl
@[simp] theorem State.setFault_hptAt (b : Fin 9) : (s.setFault b).hptAt = s.hptAt.set b.val s.fr.count := rfl
@[simp] theorem State.setFault_nBeyond (b : Fin 9) : (s.setFault b).nBeyond = s.nBeyond := rfl
@[simp] theorem State.setFault_nLatMiss (b : Fin 9) : (s.setFault b).nLatMiss = s.nLatMiss := rfl
@[simp] theorem State.setFault_evDropped (b : Fin 9) : (s.setFault b).evDropped = s.evDropped := rfl
@[simp] theorem State.setFault_ccount (b : Fin 9) : (s.setFault b).ccount = s.ccount := rfl
@[simp] theorem State.setFault_ccountFirn (b : Fin 9) : (s.setFault b).ccountFirn = s.ccountFirn := rfl
@[simp] theorem State.setFault_ice (b : Fin 9) : (s.setFault b).ice = s.ice := rfl
@[simp] theorem State.setFault_net (b : Fin 9) : (s.setFault b).net = s.net := rfl
@[simp] theorem State.setFault_tw (b : Fin 9) : (s.setFault b).tw = s.tw := rfl
@[simp] theorem State.setFault_hinge (b : Fin 9) : (s.setFault b).hinge = s.hinge := rfl
@[simp] theorem State.setFault_tmb (b : Fin 9) : (s.setFault b).tmb = s.tmb := rfl
@[simp] theorem State.setFault_krg (b : Fin 9) : (s.setFault b).krg = s.krg := rfl
@[simp] theorem State.setFault_th (b : Fin 9) : (s.setFault b).th = s.th := rfl
@[simp] theorem State.setFault_pd (b : Fin 9) : (s.setFault b).pd = s.pd := rfl
@[simp] theorem State.setFault_upd (b : Fin 9) : (s.setFault b).upd = s.upd := rfl
@[simp] theorem State.setFault_otp (b : Fin 9) : (s.setFault b).otp = s.otp := rfl
@[simp] theorem State.setFault_spi (b : Fin 9) : (s.setFault b).spi = s.spi := rfl
@[simp] theorem State.setFault_cap (b : Fin 9) : (s.setFault b).cap = s.cap := rfl
@[simp] theorem State.setFault_snap0 (b : Fin 9) : (s.setFault b).snap0 = s.snap0 := rfl
@[simp] theorem State.setFault_snap1 (b : Fin 9) : (s.setFault b).snap1 = s.snap1 := rfl
@[simp] theorem State.setFault_snapSrc (b : Fin 9) : (s.setFault b).snapSrc = s.snapSrc := rfl
@[simp] theorem State.setFault_wmTrip (b : Fin 9) : (s.setFault b).wmTrip = s.wmTrip := rfl
@[simp] theorem State.setFault_wmRecDone (b : Fin 9) : (s.setFault b).wmRecDone = s.wmRecDone := rfl
@[simp] theorem State.setFault_acoh (b : Fin 9) : (s.setFault b).acoh = s.acoh := rfl
@[simp] theorem State.setFault_cvMarks (b : Fin 9) : (s.setFault b).cvMarks = s.cvMarks := rfl
@[simp] theorem State.setFault_mail (b : Fin 9) : (s.setFault b).mail = s.mail := rfl
@[simp] theorem State.setFault_mem (b : Fin 9) : (s.setFault b).mem = s.mem := rfl
@[simp] theorem State.setFault_linkLost (b : Fin 9) : (s.setFault b).linkLost = s.linkLost := rfl
@[simp] theorem State.setFault_s5Held (b : Fin 9) : (s.setFault b).s5Held = s.s5Held := rfl
@[simp] theorem State.setFault_rest (b : Fin 9) : (s.setFault b).rest = s.rest := rfl
@[simp] theorem State.setFault_promLost (b : Fin 9) : (s.setFault b).promLost = s.promLost := rfl
@[simp] theorem State.setFault_free (b : Fin 9) : (s.setFault b).free = s.free := rfl
@[simp] theorem State.setFault_pending (b : Fin 9) : (s.setFault b).pending = s.pending := rfl

/-! ### Elements after an update of one of them -/

@[simp] theorem State.updCh_same (n : Fin 64) (f : Chan → Chan) : (s.updCh n f).ch[n] = f s.ch[n] := by
  show (s.ch.set n.val (f s.ch[n]))[n.val] = _
  simp

theorem State.updCh_other (n m : Fin 64) (f : Chan → Chan) (h : m ≠ n) : (s.updCh n f).ch[m] = s.ch[m] := by
  have h2 : n.val ≠ m.val := fun e => h (Fin.ext e.symm)
  show (s.ch.set n.val (f s.ch[n]))[m.val] = _
  simp [Vector.getElem_set, h2]

@[simp] theorem State.updQ_same (q : Fin 32) (f : Queue → Queue) : (s.updQ q f).qs[q] = f s.qs[q] := by
  show (s.qs.set q.val (f s.qs[q]))[q.val] = _
  simp

theorem State.updQ_other (q m : Fin 32) (f : Queue → Queue) (h : m ≠ q) : (s.updQ q f).qs[m] = s.qs[m] := by
  have h2 : q.val ≠ m.val := fun e => h (Fin.ext e.symm)
  show (s.qs.set q.val (f s.qs[q]))[m.val] = _
  simp [Vector.getElem_set, h2]

@[simp] theorem State.updGrp_same (g : Fin 5) (f : Group → Group) : (s.updGrp g f).grp[g] = f s.grp[g] := by
  show (s.grp.set g.val (f s.grp[g]))[g.val] = _
  simp

theorem State.updGrp_other (g m : Fin 5) (f : Group → Group) (h : m ≠ g) : (s.updGrp g f).grp[m] = s.grp[m] := by
  have h2 : g.val ≠ m.val := fun e => h (Fin.ext e.symm)
  show (s.grp.set g.val (f s.grp[g]))[m.val] = _
  simp [Vector.getElem_set, h2]

@[simp] theorem State.updAux_same (r : Fin 4) (f : Aux → Aux) : (s.updAux r f).aux[r] = f s.aux[r] := by
  show (s.aux.set r.val (f s.aux[r]))[r.val] = _
  simp

theorem State.updAux_other (r m : Fin 4) (f : Aux → Aux) (h : m ≠ r) : (s.updAux r f).aux[m] = s.aux[m] := by
  have h2 : r.val ≠ m.val := fun e => h (Fin.ext e.symm)
  show (s.aux.set r.val (f s.aux[r]))[m.val] = _
  simp [Vector.getElem_set, h2]

@[simp] theorem State.updPd_same (p : Fin 2) (f : PdPort → PdPort) : (s.updPd p f).pd[p] = f s.pd[p] := by
  show (s.pd.set p.val (f s.pd[p]))[p.val] = _
  simp

theorem State.updPd_other (p m : Fin 2) (f : PdPort → PdPort) (h : m ≠ p) : (s.updPd p f).pd[m] = s.pd[m] := by
  have h2 : p.val ≠ m.val := fun e => h (Fin.ext e.symm)
  show (s.pd.set p.val (f s.pd[p]))[m.val] = _
  simp [Vector.getElem_set, h2]

@[simp] theorem State.updCap_same (c : Fin 16) (f : Stream → Stream) : (s.updCap c f).cap[c] = f s.cap[c] := by
  show (s.cap.set c.val (f s.cap[c]))[c.val] = _
  simp

theorem State.updCap_other (c m : Fin 16) (f : Stream → Stream) (h : m ≠ c) : (s.updCap c f).cap[m] = s.cap[m] := by
  have h2 : c.val ≠ m.val := fun e => h (Fin.ext e.symm)
  show (s.cap.set c.val (f s.cap[c]))[m.val] = _
  simp [Vector.getElem_set, h2]

@[simp] theorem State.mapCh_get (f : Fin 64 → Chan → Chan) (n : Fin 64) : (s.mapCh f).ch[n] = f n s.ch[n] := by
  show (Vector.ofFn fun i => f i s.ch[i])[n.val] = _
  simp

end Sys2Proof.Machine
end

