-- ==== Sys2Proof/Laws/Memory.lean ====
section
/-! SUPPORT. The operations on queue memory: they keep its canonical form, and a byte reads as it was last written. -/

namespace Sys2Proof.Machine

open Sys2Proof

theorem memWfFrom_mono {m : List Host.Cell} {n k : Nat} (h : memWfFrom n m = true) (hk : k ≤ n) : memWfFrom k m = true := by
  cases m with
  | nil => rfl
  | cons c r =>
    simp only [memWfFrom, Bool.and_eq_true, decide_eq_true_eq] at h ⊢
    exact ⟨⟨hk.trans h.1.1, h.1.2⟩, h.2⟩

/-- A write keeps the canonical form above every bound that is not above the address. -/
theorem memWfFrom_write {m : List Host.Cell} {n a : Nat} (b : Byte) (h : memWfFrom n m = true) (ha : n ≤ a) :
    memWfFrom n (memWrite m a b) = true := by
  induction m generalizing n with
  | nil => by_cases hb : b = 0#8 <;> simp [memWrite, memWfFrom, hb, ha]
  | cons c r ih =>
    obtain ⟨x, v⟩ := c
    simp only [memWfFrom, Bool.and_eq_true, decide_eq_true_eq, bne_iff_ne] at h
    obtain ⟨⟨hx, (hv : v ≠ 0#8)⟩, hr⟩ := h
    rcases lt_trichotomy a x with hlt | rfl | hgt
    · by_cases hb : b = 0#8
      · simp [memWrite, hlt, hb, memWfFrom, hx, hv, hr]
      · simp [memWrite, hlt, hb, memWfFrom, ha, hv, hr, Nat.succ_le_of_lt hlt]
    · by_cases hb : b = 0#8
      · simpa [memWrite, hb] using memWfFrom_mono hr (by omega)
      · simp [memWrite, hb, memWfFrom, ha, hr]
    · have := ih hr (by omega : x + 1 ≤ a)
      simp [memWrite, Nat.not_lt.mpr hgt.le, hgt.ne', memWfFrom, hx, hv, this]

theorem memWrite_wf {m : List Host.Cell} (a : Nat) (b : Byte) (h : memWf m = true) : memWf (memWrite m a b) = true :=
  memWfFrom_write b h (Nat.zero_le a)

theorem memWriteL_wf {m : List Host.Cell} (a : Nat) (bs : List Byte) (h : memWf m = true) : memWf (memWriteL m a bs) = true := by
  induction bs generalizing m a with
  | nil => exact h
  | cons b r ih => exact ih (a + 1) (memWrite_wf a b h)

/-- Below the bound of a canonical memory nothing is listed. -/
theorem memRead_below {m : List Host.Cell} {n a : Nat} (h : memWfFrom n m = true) (ha : a < n) : memRead m a = 0 := by
  induction m generalizing n with
  | nil => rfl
  | cons c r ih =>
    obtain ⟨x, v⟩ := c
    simp only [memWfFrom, Bool.and_eq_true, decide_eq_true_eq] at h
    simp only [memRead, beq_iff_eq]
    rw [if_neg (by omega)]
    exact ih h.2 (by omega)

/-- The written byte reads back, and every other byte as before. -/
theorem memRead_write {m : List Host.Cell} {n : Nat} (a x : Nat) (b : Byte) (h : memWfFrom n m = true) :
    memRead (memWrite m a b) x = if x = a then b else memRead m x := by
  induction m generalizing n with
  | nil => by_cases hb : b = 0#8 <;> by_cases hx : x = a <;> simp [memWrite, memRead, hb, hx]
  | cons c r ih =>
    obtain ⟨y, v⟩ := c
    simp only [memWfFrom, Bool.and_eq_true, decide_eq_true_eq] at h
    obtain ⟨⟨-, -⟩, hr⟩ := h
    have low (z : Nat) (hz : z ≤ y) : memRead r z = 0 := memRead_below hr (by omega)
    rcases lt_trichotomy a y with hlt | rfl | hgt
    · by_cases hb : b = 0#8 <;> by_cases hx : x = a <;> simp [memWrite, hlt, memRead, hb, hx, hlt.ne, low a hlt.le]
    · by_cases hb : b = 0#8 <;> by_cases hx : x = a <;> simp [memWrite, memRead, hb, hx, low a le_rfl]
    · by_cases hx : x = y
      · subst hx
        simp [memWrite, Nat.not_lt.mpr hgt.le, hgt.ne', memRead, hgt.ne]
      · simp [memWrite, Nat.not_lt.mpr hgt.le, hgt.ne', memRead, hx, ih hr]

theorem memWriteL_append (m : List Host.Cell) (a : Nat) (xs ys : List Byte) :
    memWriteL m a (xs ++ ys) = memWriteL (memWriteL m a xs) (a + xs.length) ys := by
  induction xs generalizing m a with
  | nil => rfl
  | cons x r ih =>
    simp only [List.cons_append, memWriteL, List.length_cons, ih]
    congr 1
    omega

@[simp] theorem memReadN_length (m : List Host.Cell) (a n : Nat) : (memReadN m a n).length = n := by
  induction n generalizing a with
  | zero => rfl
  | succ n ih => simp [memReadN, ih]

/-! ### What the operations on rings and areas do to queue memory -/

@[simp] theorem State.ringWrite_qmem (s : State) (q : Fin 32) (bs : List Byte) :
    (s.ringWrite q bs).qmem = memWriteL s.qmem (cqBase q + 32 * (s.qs[q]).cqTail) bs := rfl

theorem State.ringWrite_wf (s : State) (q : Fin 32) (bs : List Byte) (h : memWf s.qmem = true) :
    memWf (s.ringWrite q bs).qmem = true := memWriteL_wf _ _ h

theorem reset_wf : memWf State.reset.qmem = true := rfl

end Sys2Proof.Machine
end

