-- ==== Sys2Proof/Laws/Ops.lean ====
section
/-! SUPPORT. What the shared operations of Machine/Ops.lean leave alone: records, events, violations and completions. -/

namespace Sys2Proof.Machine

open Sys2Proof

/-! ### Records change Icecore alone -/

theorem State.iceOpen_ex (s : State) (c o f : Nat) (p : List Byte) : ∃ i, s.iceOpen c o f p = { s with ice := i } := by
  unfold State.iceOpen State.iceLose
  dsimp only
  generalize (if (decide (s.ice.room ≤ 512) && !s.pw.pfw) = true then s.ice.reserve else s.ice) = i
  split
  · exact ⟨_, rfl⟩
  · exact ⟨_, rfl⟩

theorem State.iceGap_ex (s : State) : ∃ i, s.iceGap = { s with ice := i } := by
  unfold State.iceGap
  split
  · exact State.iceOpen_ex { s with ice := { s.ice with lostPend := 0 } } ..
  · exact ⟨_, rfl⟩

theorem State.opened_ex (s : State) (c o f : Nat) (p : List Byte) :
    ∃ i, State.iceRecord.opened s c o f p = { s with ice := i } := by
  obtain ⟨i, h⟩ := s.iceGap_ex
  obtain ⟨j, k⟩ := State.iceOpen_ex { s with ice := i } c o f p
  exact ⟨j, by unfold State.iceRecord.opened; rw [h, k]⟩

/-- R527, R528: a record changes Icecore alone. -/
theorem State.iceRecord_ex (s : State) (c o v : Nat) (p : List Byte) : ∃ i, s.iceRecord c o v p = { s with ice := i } := by
  unfold State.iceRecord
  split
  · exact ⟨s.ice, rfl⟩
  · dsimp only
    generalize (if s.pw.pfw = true then 16 else 0) = w
    split
    · split
      · exact ⟨_, rfl⟩
      · exact State.opened_ex ..
    · split
      · exact ⟨_, rfl⟩
      · exact State.opened_ex ..
    · exact State.opened_ex ..

/-! ### What records, events and completions leave alone -/

/-- Everything but the rings, queue memory, messages, records, counters, the violation log and the outstanding commands is the
same, and queue memory stays canonical. -/
structure Posted (s t : State) : Prop where
  wf : memWf s.qmem = true → memWf t.qmem = true
  pw : t.pw = s.pw
  clk : t.clk = s.clk
  fr : t.fr = s.fr
  pump : t.pump = s.pump
  settings : t.settings = s.settings
  staged : t.staged = s.staged
  ch : t.ch = s.ch
  adm : t.adm = s.adm
  grp : t.grp = s.grp
  g4 : t.g4 = s.g4
  g4Ok : t.g4Ok = s.g4Ok
  hk : t.hk = s.hk
  cv : t.cv = s.cv
  aux : t.aux = s.aux
  inj : t.inj = s.inj
  zone : t.zone = s.zone
  bat : t.bat = s.bat
  winBase : t.winBase = s.winBase
  owners : t.owners = s.owners
  resOwner : t.resOwner = s.resOwner
  vio : t.vio = s.vio
  vioOver : t.vioOver = s.vioOver
  hpt : t.hpt = s.hpt
  hptAt : t.hptAt = s.hptAt
  nBeyond : t.nBeyond = s.nBeyond
  ccount : t.ccount = s.ccount
  ccountFirn : t.ccountFirn = s.ccountFirn
  hinge : t.hinge = s.hinge
  tmb : t.tmb = s.tmb
  krg : t.krg = s.krg
  th : t.th = s.th
  pd : t.pd = s.pd
  upd : t.upd = s.upd
  otp : t.otp = s.otp
  spi : t.spi = s.spi
  cap : t.cap = s.cap
  snap0 : t.snap0 = s.snap0
  snap1 : t.snap1 = s.snap1
  snapSrc : t.snapSrc = s.snapSrc
  wmTrip : t.wmTrip = s.wmTrip
  wmRecDone : t.wmRecDone = s.wmRecDone
  acoh : t.acoh = s.acoh
  cvMarks : t.cvMarks = s.cvMarks
  mail : t.mail = s.mail
  mem : t.mem = s.mem
  linkLost : t.linkLost = s.linkLost
  s5Held : t.s5Held = s.s5Held
  rest : t.rest = s.rest
  promLost : t.promLost = s.promLost
  pending : t.pending = s.pending

theorem Posted.refl (s : State) : Posted s s := ⟨id, rfl, rfl, rfl, rfl, rfl, rfl, rfl, rfl, rfl, rfl, rfl, rfl, rfl, rfl, rfl, rfl, rfl, rfl, rfl, rfl, rfl, rfl, rfl, rfl, rfl, rfl, rfl, rfl, rfl, rfl, rfl, rfl, rfl, rfl, rfl, rfl, rfl, rfl, rfl, rfl, rfl, rfl, rfl, rfl, rfl, rfl, rfl, rfl, rfl, rfl⟩

theorem Posted.trans {s t u : State} (h : Posted s t) (k : Posted t u) : Posted s u :=
  ⟨fun x => k.wf (h.wf x), k.pw.trans h.pw, k.clk.trans h.clk, k.fr.trans h.fr, k.pump.trans h.pump, k.settings.trans h.settings, k.staged.trans h.staged, k.ch.trans h.ch, k.adm.trans h.adm, k.grp.trans h.grp, k.g4.trans h.g4, k.g4Ok.trans h.g4Ok, k.hk.trans h.hk, k.cv.trans h.cv, k.aux.trans h.aux, k.inj.trans h.inj, k.zone.trans h.zone, k.bat.trans h.bat, k.winBase.trans h.winBase, k.owners.trans h.owners, k.resOwner.trans h.resOwner, k.vio.trans h.vio, k.vioOver.trans h.vioOver, k.hpt.trans h.hpt, k.hptAt.trans h.hptAt, k.nBeyond.trans h.nBeyond, k.ccount.trans h.ccount, k.ccountFirn.trans h.ccountFirn, k.hinge.trans h.hinge, k.tmb.trans h.tmb, k.krg.trans h.krg, k.th.trans h.th, k.pd.trans h.pd, k.upd.trans h.upd, k.otp.trans h.otp, k.spi.trans h.spi, k.cap.trans h.cap, k.snap0.trans h.snap0, k.snap1.trans h.snap1, k.snapSrc.trans h.snapSrc, k.wmTrip.trans h.wmTrip, k.wmRecDone.trans h.wmRecDone, k.acoh.trans h.acoh, k.cvMarks.trans h.cvMarks, k.mail.trans h.mail, k.mem.trans h.mem, k.linkLost.trans h.linkLost, k.s5Held.trans h.s5Held, k.rest.trans h.rest, k.promLost.trans h.promLost, k.pending.trans h.pending⟩

/-- As Posted, and the outstanding commands are the same. -/
structure Told (s t : State) : Prop where
  posted : Posted s t
  outs : t.outs = s.outs

theorem Told.refl (s : State) : Told s s := ⟨Posted.refl s, rfl⟩

theorem Told.trans {s t u : State} (h : Told s t) (k : Told t u) : Told s u := ⟨h.posted.trans k.posted, k.outs.trans h.outs⟩

theorem State.iceRecord_told (s : State) (c o v : Nat) (p : List Byte) : Told s (s.iceRecord c o v p) := by
  obtain ⟨i, h⟩ := s.iceRecord_ex c o v p
  rw [h]
  exact ⟨⟨id, rfl, rfl, rfl, rfl, rfl, rfl, rfl, rfl, rfl, rfl, rfl, rfl, rfl, rfl, rfl, rfl, rfl, rfl, rfl, rfl, rfl, rfl, rfl, rfl, rfl, rfl, rfl, rfl, rfl, rfl, rfl, rfl, rfl, rfl, rfl, rfl, rfl, rfl, rfl, rfl, rfl, rfl, rfl, rfl, rfl, rfl, rfl, rfl, rfl, rfl⟩, rfl⟩

theorem State.ringWrite_told (s : State) (q : Fin 32) (bs : List Byte) : Told s (s.ringWrite q bs) :=
  ⟨⟨s.ringWrite_wf q bs, rfl, rfl, rfl, rfl, rfl, rfl, rfl, rfl, rfl, rfl, rfl, rfl, rfl, rfl, rfl, rfl, rfl, rfl, rfl, rfl, rfl, rfl, rfl, rfl, rfl, rfl, rfl, rfl, rfl, rfl, rfl, rfl, rfl, rfl, rfl, rfl, rfl, rfl, rfl, rfl, rfl, rfl, rfl, rfl, rfl, rfl, rfl, rfl, rfl, rfl⟩, rfl⟩

theorem State.updQ_told (s : State) (q : Fin 32) (f : Queue → Queue) : Told s (s.updQ q f) :=
  ⟨⟨id, rfl, rfl, rfl, rfl, rfl, rfl, rfl, rfl, rfl, rfl, rfl, rfl, rfl, rfl, rfl, rfl, rfl, rfl, rfl, rfl, rfl, rfl, rfl, rfl, rfl, rfl, rfl, rfl, rfl, rfl, rfl, rfl, rfl, rfl, rfl, rfl, rfl, rfl, rfl, rfl, rfl, rfl, rfl, rfl, rfl, rfl, rfl, rfl, rfl, rfl⟩, rfl⟩

theorem State.twAdd_told (s : State) (e : TwEnt) (b : Bool) : Told s (s.twAdd e b) :=
  ⟨⟨id, rfl, rfl, rfl, rfl, rfl, rfl, rfl, rfl, rfl, rfl, rfl, rfl, rfl, rfl, rfl, rfl, rfl, rfl, rfl, rfl, rfl, rfl, rfl, rfl, rfl, rfl, rfl, rfl, rfl, rfl, rfl, rfl, rfl, rfl, rfl, rfl, rfl, rfl, rfl, rfl, rfl, rfl, rfl, rfl, rfl, rfl, rfl, rfl, rfl, rfl⟩, rfl⟩

theorem told_overL {α : Type} (l : List α) (f : α → State → State) (hf : ∀ x u, Told u (f x u)) (s : State) :
    Told s (Machine.overL l f s) := by
  unfold Machine.overL
  induction l generalizing s with
  | nil => exact Told.refl s
  | cons a l ih => exact (hf a s).trans (ih (f a s))

theorem State.sendMsg_told (s : State) (lane : Cls) (typ dst queue cls : Nat) (pl : List Byte)
    (fr : Option (Fin 32 × Option Nat)) (e : Bool) (m : Option Nat) (k : Option (Nat × Option Word)) :
    Told s (s.sendMsg lane typ dst queue cls pl fr e m k) :=
  told_overL _ _ (fun l u => by dsimp only; exact ⟨⟨id, rfl, rfl, rfl, rfl, rfl, rfl, rfl, rfl, rfl, rfl, rfl, rfl, rfl, rfl, rfl, rfl, rfl, rfl, rfl, rfl, rfl, rfl, rfl, rfl, rfl, rfl, rfl, rfl, rfl, rfl, rfl, rfl, rfl, rfl, rfl, rfl, rfl, rfl, rfl, rfl, rfl, rfl, rfl, rfl, rfl, rfl, rfl, rfl, rfl, rfl⟩, rfl⟩) s

theorem State.eventPut_told (s : State) (q : Fin 32) (e : Event) : Told s (s.eventPut q e) := by
  have h := (s.ringWrite_told q (eventBytes (s.qs[q]).eseq (s.qs[q]).phase e)).trans
    (State.updQ_told _ q fun k => { k with eseq := (k.eseq + 1) % 2 ^ 32 })
  unfold State.eventPut
  dsimp only
  split
  · exact h.trans (State.sendMsg_told ..)
  · exact h.trans (State.twAdd_told ..)
  · exact h

theorem State.eventTo_told (s : State) (e : Event) (q : Fin 32) : Told s (s.eventTo e q) := by
  unfold State.eventTo
  dsimp only
  split
  · exact s.eventPut_told q e
  · split
    · exact s.updQ_told q _
    · split
      · exact s.updQ_told q _
      · exact s.updQ_told q _

theorem State.drainOne_told (s : State) (q : Fin 32) : Told s (s.drainOne q) := by
  unfold State.drainOne
  dsimp only
  split
  · exact Told.refl s
  · split
    · exact (s.eventPut_told q _).trans (State.updQ_told ..)
    · split
      · exact Told.refl s
      · exact (s.eventPut_told q _).trans (State.updQ_told ..)

theorem State.drain_told (s : State) (q : Fin 32) : Told s (s.drain q) :=
  told_overL _ _ (fun _ u => u.drainOne_told q) s

theorem State.postOnly_told (s : State) (c o : Nat) (p : List Byte) : Told s (s.postOnly c o p) := by
  unfold State.postOnly
  dsimp only
  split
  · exact ⟨⟨id, rfl, rfl, rfl, rfl, rfl, rfl, rfl, rfl, rfl, rfl, rfl, rfl, rfl, rfl, rfl, rfl, rfl, rfl, rfl, rfl, rfl, rfl, rfl, rfl, rfl, rfl, rfl, rfl, rfl, rfl, rfl, rfl, rfl, rfl, rfl, rfl, rfl, rfl, rfl, rfl, rfl, rfl, rfl, rfl, rfl, rfl, rfl, rfl, rfl, rfl⟩, rfl⟩
  · exact told_overL _ _ (fun q u => u.eventTo_told _ q) s

theorem State.postRec_told (s : State) (c o : Nat) (p : List Byte) : Told s (s.postRec c o p) :=
  (s.iceRecord_told ..).trans (State.postOnly_told ..)

theorem State.violation_ex (s : State) (k p : Nat) (o : Option (Fin 16)) (q : Option (Fin 32)) (a : Nat) :
    ∃ i v w, s.violation k p o q a = { s with ice := i, vio := v, vioOver := w } := by
  have h (c src : Nat) (pl : List Byte) (v w : State → _) : ∃ i x y,
      ({ s.iceRecord c src 1 pl with vio := v (s.iceRecord c src 1 pl), vioOver := w (s.iceRecord c src 1 pl) } : State) =
        { s with ice := i, vio := x, vioOver := y } := by
    obtain ⟨i, h⟩ := s.iceRecord_ex c src 1 pl
    rw [h]
    exact ⟨i, _, _, rfl⟩
  cases o <;> cases q <;> unfold State.violation <;> dsimp only <;> split
  all_goals first
    | exact h _ _ _ (fun u => u.vio ++ [_]) (fun u => u.vioOver)
    | exact h _ _ _ (fun u => u.vio) (fun u => min 65535 (u.vioOver + 1))

theorem State.latMiss_told (s : State) (q : Fin 32) (g : Word) (f lat : Nat) : Told s (s.latMiss q g f lat) := by
  unfold State.latMiss
  split
  · exact (s.postRec_told ..).trans ⟨⟨id, rfl, rfl, rfl, rfl, rfl, rfl, rfl, rfl, rfl, rfl, rfl, rfl, rfl, rfl, rfl, rfl, rfl, rfl, rfl, rfl, rfl, rfl, rfl, rfl, rfl, rfl, rfl, rfl, rfl, rfl, rfl, rfl, rfl, rfl, rfl, rfl, rfl, rfl, rfl, rfl, rfl, rfl, rfl, rfl, rfl, rfl, rfl, rfl, rfl, rfl⟩, rfl⟩
  · exact Told.refl s

theorem State.latNote_told (s : State) (t : Taken) (lat : Nat) : Told s (s.latNote t lat) := by
  unfold State.latNote
  split
  · exact State.latMiss_told ..
  · exact Told.refl s

theorem State.writeCpl_told (s : State) (t : Taken) (st : Nat) (fr : Option Nat) (r d : List Byte) (e : Bool) :
    Told s (s.writeCpl t st fr r d e) := by
  unfold State.writeCpl
  dsimp only
  split
  · exact s.updQ_told ..
  · have free (u : State) : Told u { u with free := u.free + 1 } := ⟨⟨id, rfl, rfl, rfl, rfl, rfl, rfl, rfl, rfl, rfl, rfl, rfl, rfl, rfl, rfl, rfl, rfl, rfl, rfl, rfl, rfl, rfl, rfl, rfl, rfl, rfl, rfl, rfl, rfl, rfl, rfl, rfl, rfl, rfl, rfl, rfl, rfl, rfl, rfl, rfl, rfl, rfl, rfl, rfl, rfl, rfl, rfl, rfl, rfl, rfl, rfl⟩, rfl⟩
    have store (u : State) (a : Nat) (bs : List Byte) : Told u { u with qmem := memWriteL u.qmem a bs } :=
      ⟨⟨memWriteL_wf _ _, rfl, rfl, rfl, rfl, rfl, rfl, rfl, rfl, rfl, rfl, rfl, rfl, rfl, rfl, rfl, rfl, rfl, rfl, rfl, rfl, rfl, rfl, rfl, rfl, rfl, rfl, rfl, rfl, rfl, rfl, rfl, rfl, rfl, rfl, rfl, rfl, rfl, rfl, rfl, rfl, rfl, rfl, rfl, rfl, rfl, rfl, rfl, rfl, rfl, rfl⟩, rfl⟩
    have h1 (u : State) (k : Told s u) (bs : List Byte) (f : Queue → Queue) :
        Told s { (u.ringWrite t.q bs).updQ t.q f with free := ((u.ringWrite t.q bs).updQ t.q f).free + 1 } :=
      ((k.trans (u.ringWrite_told ..)).trans (State.updQ_told ..)).trans (free _)
    have h2 (b : Bool) (a : Nat) (bs : List Byte) : Told s (if b then { s with qmem := memWriteL s.qmem a bs } else s) := by
      split
      · exact store ..
      · exact Told.refl s
    split
    · exact (h1 _ (h2 ..) _ _).trans (State.sendMsg_told ..)
    · exact ((h1 _ (h2 ..) _ _).trans (State.twAdd_told ..)).trans (State.latNote_told ..)
    · exact (h1 _ (h2 ..) _ _).trans (State.latNote_told ..)

theorem State.cmdStart_told (s : State) (t : Taken) : Told s (s.cmdStart t) := by
  have free (u : State) : Told u { u with free := u.free + 1 } := ⟨⟨id, rfl, rfl, rfl, rfl, rfl, rfl, rfl, rfl, rfl, rfl, rfl, rfl, rfl, rfl, rfl, rfl, rfl, rfl, rfl, rfl, rfl, rfl, rfl, rfl, rfl, rfl, rfl, rfl, rfl, rfl, rfl, rfl, rfl, rfl, rfl, rfl, rfl, rfl, rfl, rfl, rfl, rfl, rfl, rfl, rfl, rfl, rfl, rfl, rfl, rfl⟩, rfl⟩
  unfold State.cmdStart
  dsimp only
  split
  · exact ((free s).trans (State.postOnly_told ..)).trans (State.latNote_told ..)
  · exact (free s).trans (State.postOnly_told ..)

theorem State.cmdDone_told (s : State) (t : Taken) (st : Nat) (r : List Byte) : Told s (s.cmdDone t st r) :=
  State.postOnly_told ..

theorem State.writeOut_told (s : State) (t : Taken) (st : Nat) (fr : Option Nat) (r d : List Byte) (e b : Bool) :
    Told s (s.writeOut t st fr r d e b) := by
  unfold State.writeOut
  dsimp only
  split
  · exact (s.writeCpl_told ..).trans (State.cmdDone_told ..)
  · exact s.writeCpl_told ..

theorem posted_overL {α : Type} (l : List α) (f : α → State → State) (hf : ∀ x u, Posted u (f x u)) (s : State) :
    Posted s (Machine.overL l f s) := by
  unfold Machine.overL
  induction l generalizing s with
  | nil => exact Posted.refl s
  | cons a l ih => exact (hf a s).trans (ih (f a s))

theorem State.dropOuts_posted (s : State) (p : Out → Bool) : Posted s (s.dropOuts p) :=
  ⟨id, rfl, rfl, rfl, rfl, rfl, rfl, rfl, rfl, rfl, rfl, rfl, rfl, rfl, rfl, rfl, rfl, rfl, rfl, rfl, rfl, rfl, rfl, rfl, rfl, rfl, rfl, rfl, rfl, rfl, rfl, rfl, rfl, rfl, rfl, rfl, rfl, rfl, rfl, rfl, rfl, rfl, rfl, rfl, rfl, rfl, rfl, rfl, rfl, rfl, rfl⟩

theorem State.await_posted (s : State) (t : Taken) (w : Wait) : Posted s (s.await t w) :=
  ⟨id, rfl, rfl, rfl, rfl, rfl, rfl, rfl, rfl, rfl, rfl, rfl, rfl, rfl, rfl, rfl, rfl, rfl, rfl, rfl, rfl, rfl, rfl, rfl, rfl, rfl, rfl, rfl, rfl, rfl, rfl, rfl, rfl, rfl, rfl, rfl, rfl, rfl, rfl, rfl, rfl, rfl, rfl, rfl, rfl, rfl, rfl, rfl, rfl, rfl, rfl⟩

theorem State.flushOne_posted (s : State) (q : Fin 32) : Posted s (s.flushOne q) := by
  unfold State.flushOne
  split
  · exact (s.dropOuts_posted _).trans (State.writeOut_told ..).posted
  · exact Posted.refl s

theorem State.close_posted (s : State) (t : Taken) (st : Nat) (fr : Option Nat) (r d : List Byte) (e b : Bool) :
    Posted s (s.close t st fr r d e b) := by
  unfold State.close
  split
  · exact s.await_posted ..
  · exact (s.writeOut_told ..).posted.trans (posted_overL _ _ (fun _ u => u.flushOne_posted _) _)

theorem State.complete_posted (s : State) (t : Taken) (st : Nat) (fr : Option Nat) (r d : List Byte) (e : Bool) :
    Posted s (s.complete t st fr r d e) := s.close_posted ..

theorem State.finish_posted (s : State) (t : Taken) (st : Nat) (fr : Option Nat) (r : List Byte) :
    Posted s (s.finish t st fr r) := s.close_posted ..

theorem State.refuse_posted (s : State) (t : Taken) (st : Nat) (r : List Byte) : Posted s (s.refuse t st r) := s.close_posted ..

/-! ### The fields after each operation -/

@[simp] theorem State.iceRecord_pw (s : State) (c o v : Nat) (p : List Byte) : (s.iceRecord c o v p).pw = s.pw := by
  obtain ⟨i, h⟩ := s.iceRecord_ex c o v p
  rw [h]
@[simp] theorem State.iceRecord_clk (s : State) (c o v : Nat) (p : List Byte) : (s.iceRecord c o v p).clk = s.clk := by
  obtain ⟨i, h⟩ := s.iceRecord_ex c o v p
  rw [h]
@[simp] theorem State.iceRecord_fr (s : State) (c o v : Nat) (p : List Byte) : (s.iceRecord c o v p).fr = s.fr := by
  obtain ⟨i, h⟩ := s.iceRecord_ex c o v p
  rw [h]
@[simp] theorem State.iceRecord_pump (s : State) (c o v : Nat) (p : List Byte) : (s.iceRecord c o v p).pump = s.pump := by
  obtain ⟨i, h⟩ := s.iceRecord_ex c o v p
  rw [h]
@[simp] theorem State.iceRecord_settings (s : State) (c o v : Nat) (p : List Byte) : (s.iceRecord c o v p).settings = s.settings := by
  obtain ⟨i, h⟩ := s.iceRecord_ex c o v p
  rw [h]
@[simp] theorem State.iceRecord_staged (s : State) (c o v : Nat) (p : List Byte) : (s.iceRecord c o v p).staged = s.staged := by
  obtain ⟨i, h⟩ := s.iceRecord_ex c o v p
  rw [h]
@[simp] theorem State.iceRecord_ch (s : State) (c o v : Nat) (p : List Byte) : (s.iceRecord c o v p).ch = s.ch := by
  obtain ⟨i, h⟩ := s.iceRecord_ex c o v p
  rw [h]
@[simp] theorem State.iceRecord_adm (s : State) (c o v : Nat) (p : List Byte) : (s.iceRecord c o v p).adm = s.adm := by
  obtain ⟨i, h⟩ := s.iceRecord_ex c o v p
  rw [h]
@[simp] theorem State.iceRecord_grp (s : State) (c o v : Nat) (p : List Byte) : (s.iceRecord c o v p).grp = s.grp := by
  obtain ⟨i, h⟩ := s.iceRecord_ex c o v p
  rw [h]
@[simp] theorem State.iceRecord_g4 (s : State) (c o v : Nat) (p : List Byte) : (s.iceRecord c o v p).g4 = s.g4 := by
  obtain ⟨i, h⟩ := s.iceRecord_ex c o v p
  rw [h]
@[simp] theorem State.iceRecord_g4Ok (s : State) (c o v : Nat) (p : List Byte) : (s.iceRecord c o v p).g4Ok = s.g4Ok := by
  obtain ⟨i, h⟩ := s.iceRecord_ex c o v p
  rw [h]
@[simp] theorem State.iceRecord_hk (s : State) (c o v : Nat) (p : List Byte) : (s.iceRecord c o v p).hk = s.hk := by
  obtain ⟨i, h⟩ := s.iceRecord_ex c o v p
  rw [h]
@[simp] theorem State.iceRecord_cv (s : State) (c o v : Nat) (p : List Byte) : (s.iceRecord c o v p).cv = s.cv := by
  obtain ⟨i, h⟩ := s.iceRecord_ex c o v p
  rw [h]
@[simp] theorem State.iceRecord_aux (s : State) (c o v : Nat) (p : List Byte) : (s.iceRecord c o v p).aux = s.aux := by
  obtain ⟨i, h⟩ := s.iceRecord_ex c o v p
  rw [h]
@[simp] theorem State.iceRecord_inj (s : State) (c o v : Nat) (p : List Byte) : (s.iceRecord c o v p).inj = s.inj := by
  obtain ⟨i, h⟩ := s.iceRecord_ex c o v p
  rw [h]
@[simp] theorem State.iceRecord_zone (s : State) (c o v : Nat) (p : List Byte) : (s.iceRecord c o v p).zone = s.zone := by
  obtain ⟨i, h⟩ := s.iceRecord_ex c o v p
  rw [h]
@[simp] theorem State.iceRecord_bat (s : State) (c o v : Nat) (p : List Byte) : (s.iceRecord c o v p).bat = s.bat := by
  obtain ⟨i, h⟩ := s.iceRecord_ex c o v p
  rw [h]
@[simp] theorem State.iceRecord_qs (s : State) (c o v : Nat) (p : List Byte) : (s.iceRecord c o v p).qs = s.qs := by
  obtain ⟨i, h⟩ := s.iceRecord_ex c o v p
  rw [h]
@[simp] theorem State.iceRecord_qmem (s : State) (c o v : Nat) (p : List Byte) : (s.iceRecord c o v p).qmem = s.qmem := by
  obtain ⟨i, h⟩ := s.iceRecord_ex c o v p
  rw [h]
@[simp] theorem State.iceRecord_winBase (s : State) (c o v : Nat) (p : List Byte) : (s.iceRecord c o v p).winBase = s.winBase := by
  obtain ⟨i, h⟩ := s.iceRecord_ex c o v p
  rw [h]
@[simp] theorem State.iceRecord_outs (s : State) (c o v : Nat) (p : List Byte) : (s.iceRecord c o v p).outs = s.outs := by
  obtain ⟨i, h⟩ := s.iceRecord_ex c o v p
  rw [h]
@[simp] theorem State.iceRecord_owners (s : State) (c o v : Nat) (p : List Byte) : (s.iceRecord c o v p).owners = s.owners := by
  obtain ⟨i, h⟩ := s.iceRecord_ex c o v p
  rw [h]
@[simp] theorem State.iceRecord_resOwner (s : State) (c o v : Nat) (p : List Byte) : (s.iceRecord c o v p).resOwner = s.resOwner := by
  obtain ⟨i, h⟩ := s.iceRecord_ex c o v p
  rw [h]
@[simp] theorem State.iceRecord_vio (s : State) (c o v : Nat) (p : List Byte) : (s.iceRecord c o v p).vio = s.vio := by
  obtain ⟨i, h⟩ := s.iceRecord_ex c o v p
  rw [h]
@[simp] theorem State.iceRecord_vioOver (s : State) (c o v : Nat) (p : List Byte) : (s.iceRecord c o v p).vioOver = s.vioOver := by
  obtain ⟨i, h⟩ := s.iceRecord_ex c o v p
  rw [h]
@[simp] theorem State.iceRecord_hpt (s : State) (c o v : Nat) (p : List Byte) : (s.iceRecord c o v p).hpt = s.hpt := by
  obtain ⟨i, h⟩ := s.iceRecord_ex c o v p
  rw [h]
@[simp] theorem State.iceRecord_hptAt (s : State) (c o v : Nat) (p : List Byte) : (s.iceRecord c o v p).hptAt = s.hptAt := by
  obtain ⟨i, h⟩ := s.iceRecord_ex c o v p
  rw [h]
@[simp] theorem State.iceRecord_nBeyond (s : State) (c o v : Nat) (p : List Byte) : (s.iceRecord c o v p).nBeyond = s.nBeyond := by
  obtain ⟨i, h⟩ := s.iceRecord_ex c o v p
  rw [h]
@[simp] theorem State.iceRecord_nLatMiss (s : State) (c o v : Nat) (p : List Byte) : (s.iceRecord c o v p).nLatMiss = s.nLatMiss := by
  obtain ⟨i, h⟩ := s.iceRecord_ex c o v p
  rw [h]
@[simp] theorem State.iceRecord_evDropped (s : State) (c o v : Nat) (p : List Byte) : (s.iceRecord c o v p).evDropped = s.evDropped := by
  obtain ⟨i, h⟩ := s.iceRecord_ex c o v p
  rw [h]
@[simp] theorem State.iceRecord_ccount (s : State) (c o v : Nat) (p : List Byte) : (s.iceRecord c o v p).ccount = s.ccount := by
  obtain ⟨i, h⟩ := s.iceRecord_ex c o v p
  rw [h]
@[simp] theorem State.iceRecord_ccountFirn (s : State) (c o v : Nat) (p : List Byte) : (s.iceRecord c o v p).ccountFirn = s.ccountFirn := by
  obtain ⟨i, h⟩ := s.iceRecord_ex c o v p
  rw [h]
@[simp] theorem State.iceRecord_net (s : State) (c o v : Nat) (p : List Byte) : (s.iceRecord c o v p).net = s.net := by
  obtain ⟨i, h⟩ := s.iceRecord_ex c o v p
  rw [h]
@[simp] theorem State.iceRecord_tw (s : State) (c o v : Nat) (p : List Byte) : (s.iceRecord c o v p).tw = s.tw := by
  obtain ⟨i, h⟩ := s.iceRecord_ex c o v p
  rw [h]
@[simp] theorem State.iceRecord_hinge (s : State) (c o v : Nat) (p : List Byte) : (s.iceRecord c o v p).hinge = s.hinge := by
  obtain ⟨i, h⟩ := s.iceRecord_ex c o v p
  rw [h]
@[simp] theorem State.iceRecord_tmb (s : State) (c o v : Nat) (p : List Byte) : (s.iceRecord c o v p).tmb = s.tmb := by
  obtain ⟨i, h⟩ := s.iceRecord_ex c o v p
  rw [h]
@[simp] theorem State.iceRecord_krg (s : State) (c o v : Nat) (p : List Byte) : (s.iceRecord c o v p).krg = s.krg := by
  obtain ⟨i, h⟩ := s.iceRecord_ex c o v p
  rw [h]
@[simp] theorem State.iceRecord_th (s : State) (c o v : Nat) (p : List Byte) : (s.iceRecord c o v p).th = s.th := by
  obtain ⟨i, h⟩ := s.iceRecord_ex c o v p
  rw [h]
@[simp] theorem State.iceRecord_pd (s : State) (c o v : Nat) (p : List Byte) : (s.iceRecord c o v p).pd = s.pd := by
  obtain ⟨i, h⟩ := s.iceRecord_ex c o v p
  rw [h]
@[simp] theorem State.iceRecord_upd (s : State) (c o v : Nat) (p : List Byte) : (s.iceRecord c o v p).upd = s.upd := by
  obtain ⟨i, h⟩ := s.iceRecord_ex c o v p
  rw [h]
@[simp] theorem State.iceRecord_otp (s : State) (c o v : Nat) (p : List Byte) : (s.iceRecord c o v p).otp = s.otp := by
  obtain ⟨i, h⟩ := s.iceRecord_ex c o v p
  rw [h]
@[simp] theorem State.iceRecord_spi (s : State) (c o v : Nat) (p : List Byte) : (s.iceRecord c o v p).spi = s.spi := by
  obtain ⟨i, h⟩ := s.iceRecord_ex c o v p
  rw [h]
@[simp] theorem State.iceRecord_cap (s : State) (c o v : Nat) (p : List Byte) : (s.iceRecord c o v p).cap = s.cap := by
  obtain ⟨i, h⟩ := s.iceRecord_ex c o v p
  rw [h]
@[simp] theorem State.iceRecord_snap0 (s : State) (c o v : Nat) (p : List Byte) : (s.iceRecord c o v p).snap0 = s.snap0 := by
  obtain ⟨i, h⟩ := s.iceRecord_ex c o v p
  rw [h]
@[simp] theorem State.iceRecord_snap1 (s : State) (c o v : Nat) (p : List Byte) : (s.iceRecord c o v p).snap1 = s.snap1 := by
  obtain ⟨i, h⟩ := s.iceRecord_ex c o v p
  rw [h]
@[simp] theorem State.iceRecord_snapSrc (s : State) (c o v : Nat) (p : List Byte) : (s.iceRecord c o v p).snapSrc = s.snapSrc := by
  obtain ⟨i, h⟩ := s.iceRecord_ex c o v p
  rw [h]
@[simp] theorem State.iceRecord_wmTrip (s : State) (c o v : Nat) (p : List Byte) : (s.iceRecord c o v p).wmTrip = s.wmTrip := by
  obtain ⟨i, h⟩ := s.iceRecord_ex c o v p
  rw [h]
@[simp] theorem State.iceRecord_wmRecDone (s : State) (c o v : Nat) (p : List Byte) : (s.iceRecord c o v p).wmRecDone = s.wmRecDone := by
  obtain ⟨i, h⟩ := s.iceRecord_ex c o v p
  rw [h]
@[simp] theorem State.iceRecord_acoh (s : State) (c o v : Nat) (p : List Byte) : (s.iceRecord c o v p).acoh = s.acoh := by
  obtain ⟨i, h⟩ := s.iceRecord_ex c o v p
  rw [h]
@[simp] theorem State.iceRecord_cvMarks (s : State) (c o v : Nat) (p : List Byte) : (s.iceRecord c o v p).cvMarks = s.cvMarks := by
  obtain ⟨i, h⟩ := s.iceRecord_ex c o v p
  rw [h]
@[simp] theorem State.iceRecord_mail (s : State) (c o v : Nat) (p : List Byte) : (s.iceRecord c o v p).mail = s.mail := by
  obtain ⟨i, h⟩ := s.iceRecord_ex c o v p
  rw [h]
@[simp] theorem State.iceRecord_mem (s : State) (c o v : Nat) (p : List Byte) : (s.iceRecord c o v p).mem = s.mem := by
  obtain ⟨i, h⟩ := s.iceRecord_ex c o v p
  rw [h]
@[simp] theorem State.iceRecord_linkLost (s : State) (c o v : Nat) (p : List Byte) : (s.iceRecord c o v p).linkLost = s.linkLost := by
  obtain ⟨i, h⟩ := s.iceRecord_ex c o v p
  rw [h]
@[simp] theorem State.iceRecord_s5Held (s : State) (c o v : Nat) (p : List Byte) : (s.iceRecord c o v p).s5Held = s.s5Held := by
  obtain ⟨i, h⟩ := s.iceRecord_ex c o v p
  rw [h]
@[simp] theorem State.iceRecord_rest (s : State) (c o v : Nat) (p : List Byte) : (s.iceRecord c o v p).rest = s.rest := by
  obtain ⟨i, h⟩ := s.iceRecord_ex c o v p
  rw [h]
@[simp] theorem State.iceRecord_promLost (s : State) (c o v : Nat) (p : List Byte) : (s.iceRecord c o v p).promLost = s.promLost := by
  obtain ⟨i, h⟩ := s.iceRecord_ex c o v p
  rw [h]
@[simp] theorem State.iceRecord_free (s : State) (c o v : Nat) (p : List Byte) : (s.iceRecord c o v p).free = s.free := by
  obtain ⟨i, h⟩ := s.iceRecord_ex c o v p
  rw [h]
@[simp] theorem State.iceRecord_pending (s : State) (c o v : Nat) (p : List Byte) : (s.iceRecord c o v p).pending = s.pending := by
  obtain ⟨i, h⟩ := s.iceRecord_ex c o v p
  rw [h]
@[simp] theorem State.postOnly_pw (s : State) (c o : Nat) (p : List Byte) : (s.postOnly c o p).pw = s.pw := (s.postOnly_told ..).posted.pw
@[simp] theorem State.postOnly_clk (s : State) (c o : Nat) (p : List Byte) : (s.postOnly c o p).clk = s.clk := (s.postOnly_told ..).posted.clk
@[simp] theorem State.postOnly_fr (s : State) (c o : Nat) (p : List Byte) : (s.postOnly c o p).fr = s.fr := (s.postOnly_told ..).posted.fr
@[simp] theorem State.postOnly_pump (s : State) (c o : Nat) (p : List Byte) : (s.postOnly c o p).pump = s.pump := (s.postOnly_told ..).posted.pump
@[simp] theorem State.postOnly_settings (s : State) (c o : Nat) (p : List Byte) : (s.postOnly c o p).settings = s.settings := (s.postOnly_told ..).posted.settings
@[simp] theorem State.postOnly_staged (s : State) (c o : Nat) (p : List Byte) : (s.postOnly c o p).staged = s.staged := (s.postOnly_told ..).posted.staged
@[simp] theorem State.postOnly_ch (s : State) (c o : Nat) (p : List Byte) : (s.postOnly c o p).ch = s.ch := (s.postOnly_told ..).posted.ch
@[simp] theorem State.postOnly_adm (s : State) (c o : Nat) (p : List Byte) : (s.postOnly c o p).adm = s.adm := (s.postOnly_told ..).posted.adm
@[simp] theorem State.postOnly_grp (s : State) (c o : Nat) (p : List Byte) : (s.postOnly c o p).grp = s.grp := (s.postOnly_told ..).posted.grp
@[simp] theorem State.postOnly_g4 (s : State) (c o : Nat) (p : List Byte) : (s.postOnly c o p).g4 = s.g4 := (s.postOnly_told ..).posted.g4
@[simp] theorem State.postOnly_g4Ok (s : State) (c o : Nat) (p : List Byte) : (s.postOnly c o p).g4Ok = s.g4Ok := (s.postOnly_told ..).posted.g4Ok
@[simp] theorem State.postOnly_hk (s : State) (c o : Nat) (p : List Byte) : (s.postOnly c o p).hk = s.hk := (s.postOnly_told ..).posted.hk
@[simp] theorem State.postOnly_cv (s : State) (c o : Nat) (p : List Byte) : (s.postOnly c o p).cv = s.cv := (s.postOnly_told ..).posted.cv
@[simp] theorem State.postOnly_aux (s : State) (c o : Nat) (p : List Byte) : (s.postOnly c o p).aux = s.aux := (s.postOnly_told ..).posted.aux
@[simp] theorem State.postOnly_inj (s : State) (c o : Nat) (p : List Byte) : (s.postOnly c o p).inj = s.inj := (s.postOnly_told ..).posted.inj
@[simp] theorem State.postOnly_zone (s : State) (c o : Nat) (p : List Byte) : (s.postOnly c o p).zone = s.zone := (s.postOnly_told ..).posted.zone
@[simp] theorem State.postOnly_bat (s : State) (c o : Nat) (p : List Byte) : (s.postOnly c o p).bat = s.bat := (s.postOnly_told ..).posted.bat
@[simp] theorem State.postOnly_winBase (s : State) (c o : Nat) (p : List Byte) : (s.postOnly c o p).winBase = s.winBase := (s.postOnly_told ..).posted.winBase
@[simp] theorem State.postOnly_owners (s : State) (c o : Nat) (p : List Byte) : (s.postOnly c o p).owners = s.owners := (s.postOnly_told ..).posted.owners
@[simp] theorem State.postOnly_resOwner (s : State) (c o : Nat) (p : List Byte) : (s.postOnly c o p).resOwner = s.resOwner := (s.postOnly_told ..).posted.resOwner
@[simp] theorem State.postOnly_vio (s : State) (c o : Nat) (p : List Byte) : (s.postOnly c o p).vio = s.vio := (s.postOnly_told ..).posted.vio
@[simp] theorem State.postOnly_vioOver (s : State) (c o : Nat) (p : List Byte) : (s.postOnly c o p).vioOver = s.vioOver := (s.postOnly_told ..).posted.vioOver
@[simp] theorem State.postOnly_hpt (s : State) (c o : Nat) (p : List Byte) : (s.postOnly c o p).hpt = s.hpt := (s.postOnly_told ..).posted.hpt
@[simp] theorem State.postOnly_hptAt (s : State) (c o : Nat) (p : List Byte) : (s.postOnly c o p).hptAt = s.hptAt := (s.postOnly_told ..).posted.hptAt
@[simp] theorem State.postOnly_nBeyond (s : State) (c o : Nat) (p : List Byte) : (s.postOnly c o p).nBeyond = s.nBeyond := (s.postOnly_told ..).posted.nBeyond
@[simp] theorem State.postOnly_ccount (s : State) (c o : Nat) (p : List Byte) : (s.postOnly c o p).ccount = s.ccount := (s.postOnly_told ..).posted.ccount
@[simp] theorem State.postOnly_ccountFirn (s : State) (c o : Nat) (p : List Byte) : (s.postOnly c o p).ccountFirn = s.ccountFirn := (s.postOnly_told ..).posted.ccountFirn
@[simp] theorem State.postOnly_hinge (s : State) (c o : Nat) (p : List Byte) : (s.postOnly c o p).hinge = s.hinge := (s.postOnly_told ..).posted.hinge
@[simp] theorem State.postOnly_tmb (s : State) (c o : Nat) (p : List Byte) : (s.postOnly c o p).tmb = s.tmb := (s.postOnly_told ..).posted.tmb
@[simp] theorem State.postOnly_krg (s : State) (c o : Nat) (p : List Byte) : (s.postOnly c o p).krg = s.krg := (s.postOnly_told ..).posted.krg
@[simp] theorem State.postOnly_th (s : State) (c o : Nat) (p : List Byte) : (s.postOnly c o p).th = s.th := (s.postOnly_told ..).posted.th
@[simp] theorem State.postOnly_pd (s : State) (c o : Nat) (p : List Byte) : (s.postOnly c o p).pd = s.pd := (s.postOnly_told ..).posted.pd
@[simp] theorem State.postOnly_upd (s : State) (c o : Nat) (p : List Byte) : (s.postOnly c o p).upd = s.upd := (s.postOnly_told ..).posted.upd
@[simp] theorem State.postOnly_otp (s : State) (c o : Nat) (p : List Byte) : (s.postOnly c o p).otp = s.otp := (s.postOnly_told ..).posted.otp
@[simp] theorem State.postOnly_spi (s : State) (c o : Nat) (p : List Byte) : (s.postOnly c o p).spi = s.spi := (s.postOnly_told ..).posted.spi
@[simp] theorem State.postOnly_cap (s : State) (c o : Nat) (p : List Byte) : (s.postOnly c o p).cap = s.cap := (s.postOnly_told ..).posted.cap
@[simp] theorem State.postOnly_snap0 (s : State) (c o : Nat) (p : List Byte) : (s.postOnly c o p).snap0 = s.snap0 := (s.postOnly_told ..).posted.snap0
@[simp] theorem State.postOnly_snap1 (s : State) (c o : Nat) (p : List Byte) : (s.postOnly c o p).snap1 = s.snap1 := (s.postOnly_told ..).posted.snap1
@[simp] theorem State.postOnly_snapSrc (s : State) (c o : Nat) (p : List Byte) : (s.postOnly c o p).snapSrc = s.snapSrc := (s.postOnly_told ..).posted.snapSrc
@[simp] theorem State.postOnly_wmTrip (s : State) (c o : Nat) (p : List Byte) : (s.postOnly c o p).wmTrip = s.wmTrip := (s.postOnly_told ..).posted.wmTrip
@[simp] theorem State.postOnly_wmRecDone (s : State) (c o : Nat) (p : List Byte) : (s.postOnly c o p).wmRecDone = s.wmRecDone := (s.postOnly_told ..).posted.wmRecDone
@[simp] theorem State.postOnly_acoh (s : State) (c o : Nat) (p : List Byte) : (s.postOnly c o p).acoh = s.acoh := (s.postOnly_told ..).posted.acoh
@[simp] theorem State.postOnly_cvMarks (s : State) (c o : Nat) (p : List Byte) : (s.postOnly c o p).cvMarks = s.cvMarks := (s.postOnly_told ..).posted.cvMarks
@[simp] theorem State.postOnly_mail (s : State) (c o : Nat) (p : List Byte) : (s.postOnly c o p).mail = s.mail := (s.postOnly_told ..).posted.mail
@[simp] theorem State.postOnly_mem (s : State) (c o : Nat) (p : List Byte) : (s.postOnly c o p).mem = s.mem := (s.postOnly_told ..).posted.mem
@[simp] theorem State.postOnly_linkLost (s : State) (c o : Nat) (p : List Byte) : (s.postOnly c o p).linkLost = s.linkLost := (s.postOnly_told ..).posted.linkLost
@[simp] theorem State.postOnly_s5Held (s : State) (c o : Nat) (p : List Byte) : (s.postOnly c o p).s5Held = s.s5Held := (s.postOnly_told ..).posted.s5Held
@[simp] theorem State.postOnly_rest (s : State) (c o : Nat) (p : List Byte) : (s.postOnly c o p).rest = s.rest := (s.postOnly_told ..).posted.rest
@[simp] theorem State.postOnly_promLost (s : State) (c o : Nat) (p : List Byte) : (s.postOnly c o p).promLost = s.promLost := (s.postOnly_told ..).posted.promLost
@[simp] theorem State.postOnly_pending (s : State) (c o : Nat) (p : List Byte) : (s.postOnly c o p).pending = s.pending := (s.postOnly_told ..).posted.pending
@[simp] theorem State.postOnly_outs (s : State) (c o : Nat) (p : List Byte) : (s.postOnly c o p).outs = s.outs := (s.postOnly_told ..).outs
@[simp] theorem State.postRec_pw (s : State) (c o : Nat) (p : List Byte) : (s.postRec c o p).pw = s.pw := (s.postRec_told ..).posted.pw
@[simp] theorem State.postRec_clk (s : State) (c o : Nat) (p : List Byte) : (s.postRec c o p).clk = s.clk := (s.postRec_told ..).posted.clk
@[simp] theorem State.postRec_fr (s : State) (c o : Nat) (p : List Byte) : (s.postRec c o p).fr = s.fr := (s.postRec_told ..).posted.fr
@[simp] theorem State.postRec_pump (s : State) (c o : Nat) (p : List Byte) : (s.postRec c o p).pump = s.pump := (s.postRec_told ..).posted.pump
@[simp] theorem State.postRec_settings (s : State) (c o : Nat) (p : List Byte) : (s.postRec c o p).settings = s.settings := (s.postRec_told ..).posted.settings
@[simp] theorem State.postRec_staged (s : State) (c o : Nat) (p : List Byte) : (s.postRec c o p).staged = s.staged := (s.postRec_told ..).posted.staged
@[simp] theorem State.postRec_ch (s : State) (c o : Nat) (p : List Byte) : (s.postRec c o p).ch = s.ch := (s.postRec_told ..).posted.ch
@[simp] theorem State.postRec_adm (s : State) (c o : Nat) (p : List Byte) : (s.postRec c o p).adm = s.adm := (s.postRec_told ..).posted.adm
@[simp] theorem State.postRec_grp (s : State) (c o : Nat) (p : List Byte) : (s.postRec c o p).grp = s.grp := (s.postRec_told ..).posted.grp
@[simp] theorem State.postRec_g4 (s : State) (c o : Nat) (p : List Byte) : (s.postRec c o p).g4 = s.g4 := (s.postRec_told ..).posted.g4
@[simp] theorem State.postRec_g4Ok (s : State) (c o : Nat) (p : List Byte) : (s.postRec c o p).g4Ok = s.g4Ok := (s.postRec_told ..).posted.g4Ok
@[simp] theorem State.postRec_hk (s : State) (c o : Nat) (p : List Byte) : (s.postRec c o p).hk = s.hk := (s.postRec_told ..).posted.hk
@[simp] theorem State.postRec_cv (s : State) (c o : Nat) (p : List Byte) : (s.postRec c o p).cv = s.cv := (s.postRec_told ..).posted.cv
@[simp] theorem State.postRec_aux (s : State) (c o : Nat) (p : List Byte) : (s.postRec c o p).aux = s.aux := (s.postRec_told ..).posted.aux
@[simp] theorem State.postRec_inj (s : State) (c o : Nat) (p : List Byte) : (s.postRec c o p).inj = s.inj := (s.postRec_told ..).posted.inj
@[simp] theorem State.postRec_zone (s : State) (c o : Nat) (p : List Byte) : (s.postRec c o p).zone = s.zone := (s.postRec_told ..).posted.zone
@[simp] theorem State.postRec_bat (s : State) (c o : Nat) (p : List Byte) : (s.postRec c o p).bat = s.bat := (s.postRec_told ..).posted.bat
@[simp] theorem State.postRec_winBase (s : State) (c o : Nat) (p : List Byte) : (s.postRec c o p).winBase = s.winBase := (s.postRec_told ..).posted.winBase
@[simp] theorem State.postRec_owners (s : State) (c o : Nat) (p : List Byte) : (s.postRec c o p).owners = s.owners := (s.postRec_told ..).posted.owners
@[simp] theorem State.postRec_resOwner (s : State) (c o : Nat) (p : List Byte) : (s.postRec c o p).resOwner = s.resOwner := (s.postRec_told ..).posted.resOwner
@[simp] theorem State.postRec_vio (s : State) (c o : Nat) (p : List Byte) : (s.postRec c o p).vio = s.vio := (s.postRec_told ..).posted.vio
@[simp] theorem State.postRec_vioOver (s : State) (c o : Nat) (p : List Byte) : (s.postRec c o p).vioOver = s.vioOver := (s.postRec_told ..).posted.vioOver
@[simp] theorem State.postRec_hpt (s : State) (c o : Nat) (p : List Byte) : (s.postRec c o p).hpt = s.hpt := (s.postRec_told ..).posted.hpt
@[simp] theorem State.postRec_hptAt (s : State) (c o : Nat) (p : List Byte) : (s.postRec c o p).hptAt = s.hptAt := (s.postRec_told ..).posted.hptAt
@[simp] theorem State.postRec_nBeyond (s : State) (c o : Nat) (p : List Byte) : (s.postRec c o p).nBeyond = s.nBeyond := (s.postRec_told ..).posted.nBeyond
@[simp] theorem State.postRec_ccount (s : State) (c o : Nat) (p : List Byte) : (s.postRec c o p).ccount = s.ccount := (s.postRec_told ..).posted.ccount
@[simp] theorem State.postRec_ccountFirn (s : State) (c o : Nat) (p : List Byte) : (s.postRec c o p).ccountFirn = s.ccountFirn := (s.postRec_told ..).posted.ccountFirn
@[simp] theorem State.postRec_hinge (s : State) (c o : Nat) (p : List Byte) : (s.postRec c o p).hinge = s.hinge := (s.postRec_told ..).posted.hinge
@[simp] theorem State.postRec_tmb (s : State) (c o : Nat) (p : List Byte) : (s.postRec c o p).tmb = s.tmb := (s.postRec_told ..).posted.tmb
@[simp] theorem State.postRec_krg (s : State) (c o : Nat) (p : List Byte) : (s.postRec c o p).krg = s.krg := (s.postRec_told ..).posted.krg
@[simp] theorem State.postRec_th (s : State) (c o : Nat) (p : List Byte) : (s.postRec c o p).th = s.th := (s.postRec_told ..).posted.th
@[simp] theorem State.postRec_pd (s : State) (c o : Nat) (p : List Byte) : (s.postRec c o p).pd = s.pd := (s.postRec_told ..).posted.pd
@[simp] theorem State.postRec_upd (s : State) (c o : Nat) (p : List Byte) : (s.postRec c o p).upd = s.upd := (s.postRec_told ..).posted.upd
@[simp] theorem State.postRec_otp (s : State) (c o : Nat) (p : List Byte) : (s.postRec c o p).otp = s.otp := (s.postRec_told ..).posted.otp
@[simp] theorem State.postRec_spi (s : State) (c o : Nat) (p : List Byte) : (s.postRec c o p).spi = s.spi := (s.postRec_told ..).posted.spi
@[simp] theorem State.postRec_cap (s : State) (c o : Nat) (p : List Byte) : (s.postRec c o p).cap = s.cap := (s.postRec_told ..).posted.cap
@[simp] theorem State.postRec_snap0 (s : State) (c o : Nat) (p : List Byte) : (s.postRec c o p).snap0 = s.snap0 := (s.postRec_told ..).posted.snap0
@[simp] theorem State.postRec_snap1 (s : State) (c o : Nat) (p : List Byte) : (s.postRec c o p).snap1 = s.snap1 := (s.postRec_told ..).posted.snap1
@[simp] theorem State.postRec_snapSrc (s : State) (c o : Nat) (p : List Byte) : (s.postRec c o p).snapSrc = s.snapSrc := (s.postRec_told ..).posted.snapSrc
@[simp] theorem State.postRec_wmTrip (s : State) (c o : Nat) (p : List Byte) : (s.postRec c o p).wmTrip = s.wmTrip := (s.postRec_told ..).posted.wmTrip
@[simp] theorem State.postRec_wmRecDone (s : State) (c o : Nat) (p : List Byte) : (s.postRec c o p).wmRecDone = s.wmRecDone := (s.postRec_told ..).posted.wmRecDone
@[simp] theorem State.postRec_acoh (s : State) (c o : Nat) (p : List Byte) : (s.postRec c o p).acoh = s.acoh := (s.postRec_told ..).posted.acoh
@[simp] theorem State.postRec_cvMarks (s : State) (c o : Nat) (p : List Byte) : (s.postRec c o p).cvMarks = s.cvMarks := (s.postRec_told ..).posted.cvMarks
@[simp] theorem State.postRec_mail (s : State) (c o : Nat) (p : List Byte) : (s.postRec c o p).mail = s.mail := (s.postRec_told ..).posted.mail
@[simp] theorem State.postRec_mem (s : State) (c o : Nat) (p : List Byte) : (s.postRec c o p).mem = s.mem := (s.postRec_told ..).posted.mem
@[simp] theorem State.postRec_linkLost (s : State) (c o : Nat) (p : List Byte) : (s.postRec c o p).linkLost = s.linkLost := (s.postRec_told ..).posted.linkLost
@[simp] theorem State.postRec_s5Held (s : State) (c o : Nat) (p : List Byte) : (s.postRec c o p).s5Held = s.s5Held := (s.postRec_told ..).posted.s5Held
@[simp] theorem State.postRec_rest (s : State) (c o : Nat) (p : List Byte) : (s.postRec c o p).rest = s.rest := (s.postRec_told ..).posted.rest
@[simp] theorem State.postRec_promLost (s : State) (c o : Nat) (p : List Byte) : (s.postRec c o p).promLost = s.promLost := (s.postRec_told ..).posted.promLost
@[simp] theorem State.postRec_pending (s : State) (c o : Nat) (p : List Byte) : (s.postRec c o p).pending = s.pending := (s.postRec_told ..).posted.pending
@[simp] theorem State.postRec_outs (s : State) (c o : Nat) (p : List Byte) : (s.postRec c o p).outs = s.outs := (s.postRec_told ..).outs
@[simp] theorem State.violation_pw (s : State) (k p : Nat) (o : Option (Fin 16)) (q : Option (Fin 32)) (a : Nat) : (s.violation k p o q a).pw = s.pw := by
  obtain ⟨i, v, w, h⟩ := s.violation_ex k p o q a
  rw [h]
@[simp] theorem State.violation_clk (s : State) (k p : Nat) (o : Option (Fin 16)) (q : Option (Fin 32)) (a : Nat) : (s.violation k p o q a).clk = s.clk := by
  obtain ⟨i, v, w, h⟩ := s.violation_ex k p o q a
  rw [h]
@[simp] theorem State.violation_fr (s : State) (k p : Nat) (o : Option (Fin 16)) (q : Option (Fin 32)) (a : Nat) : (s.violation k p o q a).fr = s.fr := by
  obtain ⟨i, v, w, h⟩ := s.violation_ex k p o q a
  rw [h]
@[simp] theorem State.violation_pump (s : State) (k p : Nat) (o : Option (Fin 16)) (q : Option (Fin 32)) (a : Nat) : (s.violation k p o q a).pump = s.pump := by
  obtain ⟨i, v, w, h⟩ := s.violation_ex k p o q a
  rw [h]
@[simp] theorem State.violation_settings (s : State) (k p : Nat) (o : Option (Fin 16)) (q : Option (Fin 32)) (a : Nat) : (s.violation k p o q a).settings = s.settings := by
  obtain ⟨i, v, w, h⟩ := s.violation_ex k p o q a
  rw [h]
@[simp] theorem State.violation_staged (s : State) (k p : Nat) (o : Option (Fin 16)) (q : Option (Fin 32)) (a : Nat) : (s.violation k p o q a).staged = s.staged := by
  obtain ⟨i, v, w, h⟩ := s.violation_ex k p o q a
  rw [h]
@[simp] theorem State.violation_ch (s : State) (k p : Nat) (o : Option (Fin 16)) (q : Option (Fin 32)) (a : Nat) : (s.violation k p o q a).ch = s.ch := by
  obtain ⟨i, v, w, h⟩ := s.violation_ex k p o q a
  rw [h]
@[simp] theorem State.violation_adm (s : State) (k p : Nat) (o : Option (Fin 16)) (q : Option (Fin 32)) (a : Nat) : (s.violation k p o q a).adm = s.adm := by
  obtain ⟨i, v, w, h⟩ := s.violation_ex k p o q a
  rw [h]
@[simp] theorem State.violation_grp (s : State) (k p : Nat) (o : Option (Fin 16)) (q : Option (Fin 32)) (a : Nat) : (s.violation k p o q a).grp = s.grp := by
  obtain ⟨i, v, w, h⟩ := s.violation_ex k p o q a
  rw [h]
@[simp] theorem State.violation_g4 (s : State) (k p : Nat) (o : Option (Fin 16)) (q : Option (Fin 32)) (a : Nat) : (s.violation k p o q a).g4 = s.g4 := by
  obtain ⟨i, v, w, h⟩ := s.violation_ex k p o q a
  rw [h]
@[simp] theorem State.violation_g4Ok (s : State) (k p : Nat) (o : Option (Fin 16)) (q : Option (Fin 32)) (a : Nat) : (s.violation k p o q a).g4Ok = s.g4Ok := by
  obtain ⟨i, v, w, h⟩ := s.violation_ex k p o q a
  rw [h]
@[simp] theorem State.violation_hk (s : State) (k p : Nat) (o : Option (Fin 16)) (q : Option (Fin 32)) (a : Nat) : (s.violation k p o q a).hk = s.hk := by
  obtain ⟨i, v, w, h⟩ := s.violation_ex k p o q a
  rw [h]
@[simp] theorem State.violation_cv (s : State) (k p : Nat) (o : Option (Fin 16)) (q : Option (Fin 32)) (a : Nat) : (s.violation k p o q a).cv = s.cv := by
  obtain ⟨i, v, w, h⟩ := s.violation_ex k p o q a
  rw [h]
@[simp] theorem State.violation_aux (s : State) (k p : Nat) (o : Option (Fin 16)) (q : Option (Fin 32)) (a : Nat) : (s.violation k p o q a).aux = s.aux := by
  obtain ⟨i, v, w, h⟩ := s.violation_ex k p o q a
  rw [h]
@[simp] theorem State.violation_inj (s : State) (k p : Nat) (o : Option (Fin 16)) (q : Option (Fin 32)) (a : Nat) : (s.violation k p o q a).inj = s.inj := by
  obtain ⟨i, v, w, h⟩ := s.violation_ex k p o q a
  rw [h]
@[simp] theorem State.violation_zone (s : State) (k p : Nat) (o : Option (Fin 16)) (q : Option (Fin 32)) (a : Nat) : (s.violation k p o q a).zone = s.zone := by
  obtain ⟨i, v, w, h⟩ := s.violation_ex k p o q a
  rw [h]
@[simp] theorem State.violation_bat (s : State) (k p : Nat) (o : Option (Fin 16)) (q : Option (Fin 32)) (a : Nat) : (s.violation k p o q a).bat = s.bat := by
  obtain ⟨i, v, w, h⟩ := s.violation_ex k p o q a
  rw [h]
@[simp] theorem State.violation_qs (s : State) (k p : Nat) (o : Option (Fin 16)) (q : Option (Fin 32)) (a : Nat) : (s.violation k p o q a).qs = s.qs := by
  obtain ⟨i, v, w, h⟩ := s.violation_ex k p o q a
  rw [h]
@[simp] theorem State.violation_qmem (s : State) (k p : Nat) (o : Option (Fin 16)) (q : Option (Fin 32)) (a : Nat) : (s.violation k p o q a).qmem = s.qmem := by
  obtain ⟨i, v, w, h⟩ := s.violation_ex k p o q a
  rw [h]
@[simp] theorem State.violation_winBase (s : State) (k p : Nat) (o : Option (Fin 16)) (q : Option (Fin 32)) (a : Nat) : (s.violation k p o q a).winBase = s.winBase := by
  obtain ⟨i, v, w, h⟩ := s.violation_ex k p o q a
  rw [h]
@[simp] theorem State.violation_outs (s : State) (k p : Nat) (o : Option (Fin 16)) (q : Option (Fin 32)) (a : Nat) : (s.violation k p o q a).outs = s.outs := by
  obtain ⟨i, v, w, h⟩ := s.violation_ex k p o q a
  rw [h]
@[simp] theorem State.violation_owners (s : State) (k p : Nat) (o : Option (Fin 16)) (q : Option (Fin 32)) (a : Nat) : (s.violation k p o q a).owners = s.owners := by
  obtain ⟨i, v, w, h⟩ := s.violation_ex k p o q a
  rw [h]
@[simp] theorem State.violation_resOwner (s : State) (k p : Nat) (o : Option (Fin 16)) (q : Option (Fin 32)) (a : Nat) : (s.violation k p o q a).resOwner = s.resOwner := by
  obtain ⟨i, v, w, h⟩ := s.violation_ex k p o q a
  rw [h]
@[simp] theorem State.violation_hpt (s : State) (k p : Nat) (o : Option (Fin 16)) (q : Option (Fin 32)) (a : Nat) : (s.violation k p o q a).hpt = s.hpt := by
  obtain ⟨i, v, w, h⟩ := s.violation_ex k p o q a
  rw [h]
@[simp] theorem State.violation_hptAt (s : State) (k p : Nat) (o : Option (Fin 16)) (q : Option (Fin 32)) (a : Nat) : (s.violation k p o q a).hptAt = s.hptAt := by
  obtain ⟨i, v, w, h⟩ := s.violation_ex k p o q a
  rw [h]
@[simp] theorem State.violation_nBeyond (s : State) (k p : Nat) (o : Option (Fin 16)) (q : Option (Fin 32)) (a : Nat) : (s.violation k p o q a).nBeyond = s.nBeyond := by
  obtain ⟨i, v, w, h⟩ := s.violation_ex k p o q a
  rw [h]
@[simp] theorem State.violation_nLatMiss (s : State) (k p : Nat) (o : Option (Fin 16)) (q : Option (Fin 32)) (a : Nat) : (s.violation k p o q a).nLatMiss = s.nLatMiss := by
  obtain ⟨i, v, w, h⟩ := s.violation_ex k p o q a
  rw [h]
@[simp] theorem State.violation_evDropped (s : State) (k p : Nat) (o : Option (Fin 16)) (q : Option (Fin 32)) (a : Nat) : (s.violation k p o q a).evDropped = s.evDropped := by
  obtain ⟨i, v, w, h⟩ := s.violation_ex k p o q a
  rw [h]
@[simp] theorem State.violation_ccount (s : State) (k p : Nat) (o : Option (Fin 16)) (q : Option (Fin 32)) (a : Nat) : (s.violation k p o q a).ccount = s.ccount := by
  obtain ⟨i, v, w, h⟩ := s.violation_ex k p o q a
  rw [h]
@[simp] theorem State.violation_ccountFirn (s : State) (k p : Nat) (o : Option (Fin 16)) (q : Option (Fin 32)) (a : Nat) : (s.violation k p o q a).ccountFirn = s.ccountFirn := by
  obtain ⟨i, v, w, h⟩ := s.violation_ex k p o q a
  rw [h]
@[simp] theorem State.violation_net (s : State) (k p : Nat) (o : Option (Fin 16)) (q : Option (Fin 32)) (a : Nat) : (s.violation k p o q a).net = s.net := by
  obtain ⟨i, v, w, h⟩ := s.violation_ex k p o q a
  rw [h]
@[simp] theorem State.violation_tw (s : State) (k p : Nat) (o : Option (Fin 16)) (q : Option (Fin 32)) (a : Nat) : (s.violation k p o q a).tw = s.tw := by
  obtain ⟨i, v, w, h⟩ := s.violation_ex k p o q a
  rw [h]
@[simp] theorem State.violation_hinge (s : State) (k p : Nat) (o : Option (Fin 16)) (q : Option (Fin 32)) (a : Nat) : (s.violation k p o q a).hinge = s.hinge := by
  obtain ⟨i, v, w, h⟩ := s.violation_ex k p o q a
  rw [h]
@[simp] theorem State.violation_tmb (s : State) (k p : Nat) (o : Option (Fin 16)) (q : Option (Fin 32)) (a : Nat) : (s.violation k p o q a).tmb = s.tmb := by
  obtain ⟨i, v, w, h⟩ := s.violation_ex k p o q a
  rw [h]
@[simp] theorem State.violation_krg (s : State) (k p : Nat) (o : Option (Fin 16)) (q : Option (Fin 32)) (a : Nat) : (s.violation k p o q a).krg = s.krg := by
  obtain ⟨i, v, w, h⟩ := s.violation_ex k p o q a
  rw [h]
@[simp] theorem State.violation_th (s : State) (k p : Nat) (o : Option (Fin 16)) (q : Option (Fin 32)) (a : Nat) : (s.violation k p o q a).th = s.th := by
  obtain ⟨i, v, w, h⟩ := s.violation_ex k p o q a
  rw [h]
@[simp] theorem State.violation_pd (s : State) (k p : Nat) (o : Option (Fin 16)) (q : Option (Fin 32)) (a : Nat) : (s.violation k p o q a).pd = s.pd := by
  obtain ⟨i, v, w, h⟩ := s.violation_ex k p o q a
  rw [h]
@[simp] theorem State.violation_upd (s : State) (k p : Nat) (o : Option (Fin 16)) (q : Option (Fin 32)) (a : Nat) : (s.violation k p o q a).upd = s.upd := by
  obtain ⟨i, v, w, h⟩ := s.violation_ex k p o q a
  rw [h]
@[simp] theorem State.violation_otp (s : State) (k p : Nat) (o : Option (Fin 16)) (q : Option (Fin 32)) (a : Nat) : (s.violation k p o q a).otp = s.otp := by
  obtain ⟨i, v, w, h⟩ := s.violation_ex k p o q a
  rw [h]
@[simp] theorem State.violation_spi (s : State) (k p : Nat) (o : Option (Fin 16)) (q : Option (Fin 32)) (a : Nat) : (s.violation k p o q a).spi = s.spi := by
  obtain ⟨i, v, w, h⟩ := s.violation_ex k p o q a
  rw [h]
@[simp] theorem State.violation_cap (s : State) (k p : Nat) (o : Option (Fin 16)) (q : Option (Fin 32)) (a : Nat) : (s.violation k p o q a).cap = s.cap := by
  obtain ⟨i, v, w, h⟩ := s.violation_ex k p o q a
  rw [h]
@[simp] theorem State.violation_snap0 (s : State) (k p : Nat) (o : Option (Fin 16)) (q : Option (Fin 32)) (a : Nat) : (s.violation k p o q a).snap0 = s.snap0 := by
  obtain ⟨i, v, w, h⟩ := s.violation_ex k p o q a
  rw [h]
@[simp] theorem State.violation_snap1 (s : State) (k p : Nat) (o : Option (Fin 16)) (q : Option (Fin 32)) (a : Nat) : (s.violation k p o q a).snap1 = s.snap1 := by
  obtain ⟨i, v, w, h⟩ := s.violation_ex k p o q a
  rw [h]
@[simp] theorem State.violation_snapSrc (s : State) (k p : Nat) (o : Option (Fin 16)) (q : Option (Fin 32)) (a : Nat) : (s.violation k p o q a).snapSrc = s.snapSrc := by
  obtain ⟨i, v, w, h⟩ := s.violation_ex k p o q a
  rw [h]
@[simp] theorem State.violation_wmTrip (s : State) (k p : Nat) (o : Option (Fin 16)) (q : Option (Fin 32)) (a : Nat) : (s.violation k p o q a).wmTrip = s.wmTrip := by
  obtain ⟨i, v, w, h⟩ := s.violation_ex k p o q a
  rw [h]
@[simp] theorem State.violation_wmRecDone (s : State) (k p : Nat) (o : Option (Fin 16)) (q : Option (Fin 32)) (a : Nat) : (s.violation k p o q a).wmRecDone = s.wmRecDone := by
  obtain ⟨i, v, w, h⟩ := s.violation_ex k p o q a
  rw [h]
@[simp] theorem State.violation_acoh (s : State) (k p : Nat) (o : Option (Fin 16)) (q : Option (Fin 32)) (a : Nat) : (s.violation k p o q a).acoh = s.acoh := by
  obtain ⟨i, v, w, h⟩ := s.violation_ex k p o q a
  rw [h]
@[simp] theorem State.violation_cvMarks (s : State) (k p : Nat) (o : Option (Fin 16)) (q : Option (Fin 32)) (a : Nat) : (s.violation k p o q a).cvMarks = s.cvMarks := by
  obtain ⟨i, v, w, h⟩ := s.violation_ex k p o q a
  rw [h]
@[simp] theorem State.violation_mail (s : State) (k p : Nat) (o : Option (Fin 16)) (q : Option (Fin 32)) (a : Nat) : (s.violation k p o q a).mail = s.mail := by
  obtain ⟨i, v, w, h⟩ := s.violation_ex k p o q a
  rw [h]
@[simp] theorem State.violation_mem (s : State) (k p : Nat) (o : Option (Fin 16)) (q : Option (Fin 32)) (a : Nat) : (s.violation k p o q a).mem = s.mem := by
  obtain ⟨i, v, w, h⟩ := s.violation_ex k p o q a
  rw [h]
@[simp] theorem State.violation_linkLost (s : State) (k p : Nat) (o : Option (Fin 16)) (q : Option (Fin 32)) (a : Nat) : (s.violation k p o q a).linkLost = s.linkLost := by
  obtain ⟨i, v, w, h⟩ := s.violation_ex k p o q a
  rw [h]
@[simp] theorem State.violation_s5Held (s : State) (k p : Nat) (o : Option (Fin 16)) (q : Option (Fin 32)) (a : Nat) : (s.violation k p o q a).s5Held = s.s5Held := by
  obtain ⟨i, v, w, h⟩ := s.violation_ex k p o q a
  rw [h]
@[simp] theorem State.violation_rest (s : State) (k p : Nat) (o : Option (Fin 16)) (q : Option (Fin 32)) (a : Nat) : (s.violation k p o q a).rest = s.rest := by
  obtain ⟨i, v, w, h⟩ := s.violation_ex k p o q a
  rw [h]
@[simp] theorem State.violation_promLost (s : State) (k p : Nat) (o : Option (Fin 16)) (q : Option (Fin 32)) (a : Nat) : (s.violation k p o q a).promLost = s.promLost := by
  obtain ⟨i, v, w, h⟩ := s.violation_ex k p o q a
  rw [h]
@[simp] theorem State.violation_free (s : State) (k p : Nat) (o : Option (Fin 16)) (q : Option (Fin 32)) (a : Nat) : (s.violation k p o q a).free = s.free := by
  obtain ⟨i, v, w, h⟩ := s.violation_ex k p o q a
  rw [h]
@[simp] theorem State.violation_pending (s : State) (k p : Nat) (o : Option (Fin 16)) (q : Option (Fin 32)) (a : Nat) : (s.violation k p o q a).pending = s.pending := by
  obtain ⟨i, v, w, h⟩ := s.violation_ex k p o q a
  rw [h]
@[simp] theorem State.complete_pw (s : State) (t : Taken) (x : Nat) (f : Option Nat) (r d : List Byte) (e : Bool) : (s.complete t x f r d e).pw = s.pw := (s.complete_posted ..).pw
@[simp] theorem State.complete_clk (s : State) (t : Taken) (x : Nat) (f : Option Nat) (r d : List Byte) (e : Bool) : (s.complete t x f r d e).clk = s.clk := (s.complete_posted ..).clk
@[simp] theorem State.complete_fr (s : State) (t : Taken) (x : Nat) (f : Option Nat) (r d : List Byte) (e : Bool) : (s.complete t x f r d e).fr = s.fr := (s.complete_posted ..).fr
@[simp] theorem State.complete_pump (s : State) (t : Taken) (x : Nat) (f : Option Nat) (r d : List Byte) (e : Bool) : (s.complete t x f r d e).pump = s.pump := (s.complete_posted ..).pump
@[simp] theorem State.complete_settings (s : State) (t : Taken) (x : Nat) (f : Option Nat) (r d : List Byte) (e : Bool) : (s.complete t x f r d e).settings = s.settings := (s.complete_posted ..).settings
@[simp] theorem State.complete_staged (s : State) (t : Taken) (x : Nat) (f : Option Nat) (r d : List Byte) (e : Bool) : (s.complete t x f r d e).staged = s.staged := (s.complete_posted ..).staged
@[simp] theorem State.complete_ch (s : State) (t : Taken) (x : Nat) (f : Option Nat) (r d : List Byte) (e : Bool) : (s.complete t x f r d e).ch = s.ch := (s.complete_posted ..).ch
@[simp] theorem State.complete_adm (s : State) (t : Taken) (x : Nat) (f : Option Nat) (r d : List Byte) (e : Bool) : (s.complete t x f r d e).adm = s.adm := (s.complete_posted ..).adm
@[simp] theorem State.complete_grp (s : State) (t : Taken) (x : Nat) (f : Option Nat) (r d : List Byte) (e : Bool) : (s.complete t x f r d e).grp = s.grp := (s.complete_posted ..).grp
@[simp] theorem State.complete_g4 (s : State) (t : Taken) (x : Nat) (f : Option Nat) (r d : List Byte) (e : Bool) : (s.complete t x f r d e).g4 = s.g4 := (s.complete_posted ..).g4
@[simp] theorem State.complete_g4Ok (s : State) (t : Taken) (x : Nat) (f : Option Nat) (r d : List Byte) (e : Bool) : (s.complete t x f r d e).g4Ok = s.g4Ok := (s.complete_posted ..).g4Ok
@[simp] theorem State.complete_hk (s : State) (t : Taken) (x : Nat) (f : Option Nat) (r d : List Byte) (e : Bool) : (s.complete t x f r d e).hk = s.hk := (s.complete_posted ..).hk
@[simp] theorem State.complete_cv (s : State) (t : Taken) (x : Nat) (f : Option Nat) (r d : List Byte) (e : Bool) : (s.complete t x f r d e).cv = s.cv := (s.complete_posted ..).cv
@[simp] theorem State.complete_aux (s : State) (t : Taken) (x : Nat) (f : Option Nat) (r d : List Byte) (e : Bool) : (s.complete t x f r d e).aux = s.aux := (s.complete_posted ..).aux
@[simp] theorem State.complete_inj (s : State) (t : Taken) (x : Nat) (f : Option Nat) (r d : List Byte) (e : Bool) : (s.complete t x f r d e).inj = s.inj := (s.complete_posted ..).inj
@[simp] theorem State.complete_zone (s : State) (t : Taken) (x : Nat) (f : Option Nat) (r d : List Byte) (e : Bool) : (s.complete t x f r d e).zone = s.zone := (s.complete_posted ..).zone
@[simp] theorem State.complete_bat (s : State) (t : Taken) (x : Nat) (f : Option Nat) (r d : List Byte) (e : Bool) : (s.complete t x f r d e).bat = s.bat := (s.complete_posted ..).bat
@[simp] theorem State.complete_winBase (s : State) (t : Taken) (x : Nat) (f : Option Nat) (r d : List Byte) (e : Bool) : (s.complete t x f r d e).winBase = s.winBase := (s.complete_posted ..).winBase
@[simp] theorem State.complete_owners (s : State) (t : Taken) (x : Nat) (f : Option Nat) (r d : List Byte) (e : Bool) : (s.complete t x f r d e).owners = s.owners := (s.complete_posted ..).owners
@[simp] theorem State.complete_resOwner (s : State) (t : Taken) (x : Nat) (f : Option Nat) (r d : List Byte) (e : Bool) : (s.complete t x f r d e).resOwner = s.resOwner := (s.complete_posted ..).resOwner
@[simp] theorem State.complete_vio (s : State) (t : Taken) (x : Nat) (f : Option Nat) (r d : List Byte) (e : Bool) : (s.complete t x f r d e).vio = s.vio := (s.complete_posted ..).vio
@[simp] theorem State.complete_vioOver (s : State) (t : Taken) (x : Nat) (f : Option Nat) (r d : List Byte) (e : Bool) : (s.complete t x f r d e).vioOver = s.vioOver := (s.complete_posted ..).vioOver
@[simp] theorem State.complete_hpt (s : State) (t : Taken) (x : Nat) (f : Option Nat) (r d : List Byte) (e : Bool) : (s.complete t x f r d e).hpt = s.hpt := (s.complete_posted ..).hpt
@[simp] theorem State.complete_hptAt (s : State) (t : Taken) (x : Nat) (f : Option Nat) (r d : List Byte) (e : Bool) : (s.complete t x f r d e).hptAt = s.hptAt := (s.complete_posted ..).hptAt
@[simp] theorem State.complete_nBeyond (s : State) (t : Taken) (x : Nat) (f : Option Nat) (r d : List Byte) (e : Bool) : (s.complete t x f r d e).nBeyond = s.nBeyond := (s.complete_posted ..).nBeyond
@[simp] theorem State.complete_ccount (s : State) (t : Taken) (x : Nat) (f : Option Nat) (r d : List Byte) (e : Bool) : (s.complete t x f r d e).ccount = s.ccount := (s.complete_posted ..).ccount
@[simp] theorem State.complete_ccountFirn (s : State) (t : Taken) (x : Nat) (f : Option Nat) (r d : List Byte) (e : Bool) : (s.complete t x f r d e).ccountFirn = s.ccountFirn := (s.complete_posted ..).ccountFirn
@[simp] theorem State.complete_hinge (s : State) (t : Taken) (x : Nat) (f : Option Nat) (r d : List Byte) (e : Bool) : (s.complete t x f r d e).hinge = s.hinge := (s.complete_posted ..).hinge
@[simp] theorem State.complete_tmb (s : State) (t : Taken) (x : Nat) (f : Option Nat) (r d : List Byte) (e : Bool) : (s.complete t x f r d e).tmb = s.tmb := (s.complete_posted ..).tmb
@[simp] theorem State.complete_krg (s : State) (t : Taken) (x : Nat) (f : Option Nat) (r d : List Byte) (e : Bool) : (s.complete t x f r d e).krg = s.krg := (s.complete_posted ..).krg
@[simp] theorem State.complete_th (s : State) (t : Taken) (x : Nat) (f : Option Nat) (r d : List Byte) (e : Bool) : (s.complete t x f r d e).th = s.th := (s.complete_posted ..).th
@[simp] theorem State.complete_pd (s : State) (t : Taken) (x : Nat) (f : Option Nat) (r d : List Byte) (e : Bool) : (s.complete t x f r d e).pd = s.pd := (s.complete_posted ..).pd
@[simp] theorem State.complete_upd (s : State) (t : Taken) (x : Nat) (f : Option Nat) (r d : List Byte) (e : Bool) : (s.complete t x f r d e).upd = s.upd := (s.complete_posted ..).upd
@[simp] theorem State.complete_otp (s : State) (t : Taken) (x : Nat) (f : Option Nat) (r d : List Byte) (e : Bool) : (s.complete t x f r d e).otp = s.otp := (s.complete_posted ..).otp
@[simp] theorem State.complete_spi (s : State) (t : Taken) (x : Nat) (f : Option Nat) (r d : List Byte) (e : Bool) : (s.complete t x f r d e).spi = s.spi := (s.complete_posted ..).spi
@[simp] theorem State.complete_cap (s : State) (t : Taken) (x : Nat) (f : Option Nat) (r d : List Byte) (e : Bool) : (s.complete t x f r d e).cap = s.cap := (s.complete_posted ..).cap
@[simp] theorem State.complete_snap0 (s : State) (t : Taken) (x : Nat) (f : Option Nat) (r d : List Byte) (e : Bool) : (s.complete t x f r d e).snap0 = s.snap0 := (s.complete_posted ..).snap0
@[simp] theorem State.complete_snap1 (s : State) (t : Taken) (x : Nat) (f : Option Nat) (r d : List Byte) (e : Bool) : (s.complete t x f r d e).snap1 = s.snap1 := (s.complete_posted ..).snap1
@[simp] theorem State.complete_snapSrc (s : State) (t : Taken) (x : Nat) (f : Option Nat) (r d : List Byte) (e : Bool) : (s.complete t x f r d e).snapSrc = s.snapSrc := (s.complete_posted ..).snapSrc
@[simp] theorem State.complete_wmTrip (s : State) (t : Taken) (x : Nat) (f : Option Nat) (r d : List Byte) (e : Bool) : (s.complete t x f r d e).wmTrip = s.wmTrip := (s.complete_posted ..).wmTrip
@[simp] theorem State.complete_wmRecDone (s : State) (t : Taken) (x : Nat) (f : Option Nat) (r d : List Byte) (e : Bool) : (s.complete t x f r d e).wmRecDone = s.wmRecDone := (s.complete_posted ..).wmRecDone
@[simp] theorem State.complete_acoh (s : State) (t : Taken) (x : Nat) (f : Option Nat) (r d : List Byte) (e : Bool) : (s.complete t x f r d e).acoh = s.acoh := (s.complete_posted ..).acoh
@[simp] theorem State.complete_cvMarks (s : State) (t : Taken) (x : Nat) (f : Option Nat) (r d : List Byte) (e : Bool) : (s.complete t x f r d e).cvMarks = s.cvMarks := (s.complete_posted ..).cvMarks
@[simp] theorem State.complete_mail (s : State) (t : Taken) (x : Nat) (f : Option Nat) (r d : List Byte) (e : Bool) : (s.complete t x f r d e).mail = s.mail := (s.complete_posted ..).mail
@[simp] theorem State.complete_mem (s : State) (t : Taken) (x : Nat) (f : Option Nat) (r d : List Byte) (e : Bool) : (s.complete t x f r d e).mem = s.mem := (s.complete_posted ..).mem
@[simp] theorem State.complete_linkLost (s : State) (t : Taken) (x : Nat) (f : Option Nat) (r d : List Byte) (e : Bool) : (s.complete t x f r d e).linkLost = s.linkLost := (s.complete_posted ..).linkLost
@[simp] theorem State.complete_s5Held (s : State) (t : Taken) (x : Nat) (f : Option Nat) (r d : List Byte) (e : Bool) : (s.complete t x f r d e).s5Held = s.s5Held := (s.complete_posted ..).s5Held
@[simp] theorem State.complete_rest (s : State) (t : Taken) (x : Nat) (f : Option Nat) (r d : List Byte) (e : Bool) : (s.complete t x f r d e).rest = s.rest := (s.complete_posted ..).rest
@[simp] theorem State.complete_promLost (s : State) (t : Taken) (x : Nat) (f : Option Nat) (r d : List Byte) (e : Bool) : (s.complete t x f r d e).promLost = s.promLost := (s.complete_posted ..).promLost
@[simp] theorem State.complete_pending (s : State) (t : Taken) (x : Nat) (f : Option Nat) (r d : List Byte) (e : Bool) : (s.complete t x f r d e).pending = s.pending := (s.complete_posted ..).pending
@[simp] theorem State.finish_pw (s : State) (t : Taken) (x : Nat) (f : Option Nat) (r : List Byte) : (s.finish t x f r).pw = s.pw := (s.finish_posted ..).pw
@[simp] theorem State.finish_clk (s : State) (t : Taken) (x : Nat) (f : Option Nat) (r : List Byte) : (s.finish t x f r).clk = s.clk := (s.finish_posted ..).clk
@[simp] theorem State.finish_fr (s : State) (t : Taken) (x : Nat) (f : Option Nat) (r : List Byte) : (s.finish t x f r).fr = s.fr := (s.finish_posted ..).fr
@[simp] theorem State.finish_pump (s : State) (t : Taken) (x : Nat) (f : Option Nat) (r : List Byte) : (s.finish t x f r).pump = s.pump := (s.finish_posted ..).pump
@[simp] theorem State.finish_settings (s : State) (t : Taken) (x : Nat) (f : Option Nat) (r : List Byte) : (s.finish t x f r).settings = s.settings := (s.finish_posted ..).settings
@[simp] theorem State.finish_staged (s : State) (t : Taken) (x : Nat) (f : Option Nat) (r : List Byte) : (s.finish t x f r).staged = s.staged := (s.finish_posted ..).staged
@[simp] theorem State.finish_ch (s : State) (t : Taken) (x : Nat) (f : Option Nat) (r : List Byte) : (s.finish t x f r).ch = s.ch := (s.finish_posted ..).ch
@[simp] theorem State.finish_adm (s : State) (t : Taken) (x : Nat) (f : Option Nat) (r : List Byte) : (s.finish t x f r).adm = s.adm := (s.finish_posted ..).adm
@[simp] theorem State.finish_grp (s : State) (t : Taken) (x : Nat) (f : Option Nat) (r : List Byte) : (s.finish t x f r).grp = s.grp := (s.finish_posted ..).grp
@[simp] theorem State.finish_g4 (s : State) (t : Taken) (x : Nat) (f : Option Nat) (r : List Byte) : (s.finish t x f r).g4 = s.g4 := (s.finish_posted ..).g4
@[simp] theorem State.finish_g4Ok (s : State) (t : Taken) (x : Nat) (f : Option Nat) (r : List Byte) : (s.finish t x f r).g4Ok = s.g4Ok := (s.finish_posted ..).g4Ok
@[simp] theorem State.finish_hk (s : State) (t : Taken) (x : Nat) (f : Option Nat) (r : List Byte) : (s.finish t x f r).hk = s.hk := (s.finish_posted ..).hk
@[simp] theorem State.finish_cv (s : State) (t : Taken) (x : Nat) (f : Option Nat) (r : List Byte) : (s.finish t x f r).cv = s.cv := (s.finish_posted ..).cv
@[simp] theorem State.finish_aux (s : State) (t : Taken) (x : Nat) (f : Option Nat) (r : List Byte) : (s.finish t x f r).aux = s.aux := (s.finish_posted ..).aux
@[simp] theorem State.finish_inj (s : State) (t : Taken) (x : Nat) (f : Option Nat) (r : List Byte) : (s.finish t x f r).inj = s.inj := (s.finish_posted ..).inj
@[simp] theorem State.finish_zone (s : State) (t : Taken) (x : Nat) (f : Option Nat) (r : List Byte) : (s.finish t x f r).zone = s.zone := (s.finish_posted ..).zone
@[simp] theorem State.finish_bat (s : State) (t : Taken) (x : Nat) (f : Option Nat) (r : List Byte) : (s.finish t x f r).bat = s.bat := (s.finish_posted ..).bat
@[simp] theorem State.finish_winBase (s : State) (t : Taken) (x : Nat) (f : Option Nat) (r : List Byte) : (s.finish t x f r).winBase = s.winBase := (s.finish_posted ..).winBase
@[simp] theorem State.finish_owners (s : State) (t : Taken) (x : Nat) (f : Option Nat) (r : List Byte) : (s.finish t x f r).owners = s.owners := (s.finish_posted ..).owners
@[simp] theorem State.finish_resOwner (s : State) (t : Taken) (x : Nat) (f : Option Nat) (r : List Byte) : (s.finish t x f r).resOwner = s.resOwner := (s.finish_posted ..).resOwner
@[simp] theorem State.finish_vio (s : State) (t : Taken) (x : Nat) (f : Option Nat) (r : List Byte) : (s.finish t x f r).vio = s.vio := (s.finish_posted ..).vio
@[simp] theorem State.finish_vioOver (s : State) (t : Taken) (x : Nat) (f : Option Nat) (r : List Byte) : (s.finish t x f r).vioOver = s.vioOver := (s.finish_posted ..).vioOver
@[simp] theorem State.finish_hpt (s : State) (t : Taken) (x : Nat) (f : Option Nat) (r : List Byte) : (s.finish t x f r).hpt = s.hpt := (s.finish_posted ..).hpt
@[simp] theorem State.finish_hptAt (s : State) (t : Taken) (x : Nat) (f : Option Nat) (r : List Byte) : (s.finish t x f r).hptAt = s.hptAt := (s.finish_posted ..).hptAt
@[simp] theorem State.finish_nBeyond (s : State) (t : Taken) (x : Nat) (f : Option Nat) (r : List Byte) : (s.finish t x f r).nBeyond = s.nBeyond := (s.finish_posted ..).nBeyond
@[simp] theorem State.finish_ccount (s : State) (t : Taken) (x : Nat) (f : Option Nat) (r : List Byte) : (s.finish t x f r).ccount = s.ccount := (s.finish_posted ..).ccount
@[simp] theorem State.finish_ccountFirn (s : State) (t : Taken) (x : Nat) (f : Option Nat) (r : List Byte) : (s.finish t x f r).ccountFirn = s.ccountFirn := (s.finish_posted ..).ccountFirn
@[simp] theorem State.finish_hinge (s : State) (t : Taken) (x : Nat) (f : Option Nat) (r : List Byte) : (s.finish t x f r).hinge = s.hinge := (s.finish_posted ..).hinge
@[simp] theorem State.finish_tmb (s : State) (t : Taken) (x : Nat) (f : Option Nat) (r : List Byte) : (s.finish t x f r).tmb = s.tmb := (s.finish_posted ..).tmb
@[simp] theorem State.finish_krg (s : State) (t : Taken) (x : Nat) (f : Option Nat) (r : List Byte) : (s.finish t x f r).krg = s.krg := (s.finish_posted ..).krg
@[simp] theorem State.finish_th (s : State) (t : Taken) (x : Nat) (f : Option Nat) (r : List Byte) : (s.finish t x f r).th = s.th := (s.finish_posted ..).th
@[simp] theorem State.finish_pd (s : State) (t : Taken) (x : Nat) (f : Option Nat) (r : List Byte) : (s.finish t x f r).pd = s.pd := (s.finish_posted ..).pd
@[simp] theorem State.finish_upd (s : State) (t : Taken) (x : Nat) (f : Option Nat) (r : List Byte) : (s.finish t x f r).upd = s.upd := (s.finish_posted ..).upd
@[simp] theorem State.finish_otp (s : State) (t : Taken) (x : Nat) (f : Option Nat) (r : List Byte) : (s.finish t x f r).otp = s.otp := (s.finish_posted ..).otp
@[simp] theorem State.finish_spi (s : State) (t : Taken) (x : Nat) (f : Option Nat) (r : List Byte) : (s.finish t x f r).spi = s.spi := (s.finish_posted ..).spi
@[simp] theorem State.finish_cap (s : State) (t : Taken) (x : Nat) (f : Option Nat) (r : List Byte) : (s.finish t x f r).cap = s.cap := (s.finish_posted ..).cap
@[simp] theorem State.finish_snap0 (s : State) (t : Taken) (x : Nat) (f : Option Nat) (r : List Byte) : (s.finish t x f r).snap0 = s.snap0 := (s.finish_posted ..).snap0
@[simp] theorem State.finish_snap1 (s : State) (t : Taken) (x : Nat) (f : Option Nat) (r : List Byte) : (s.finish t x f r).snap1 = s.snap1 := (s.finish_posted ..).snap1
@[simp] theorem State.finish_snapSrc (s : State) (t : Taken) (x : Nat) (f : Option Nat) (r : List Byte) : (s.finish t x f r).snapSrc = s.snapSrc := (s.finish_posted ..).snapSrc
@[simp] theorem State.finish_wmTrip (s : State) (t : Taken) (x : Nat) (f : Option Nat) (r : List Byte) : (s.finish t x f r).wmTrip = s.wmTrip := (s.finish_posted ..).wmTrip
@[simp] theorem State.finish_wmRecDone (s : State) (t : Taken) (x : Nat) (f : Option Nat) (r : List Byte) : (s.finish t x f r).wmRecDone = s.wmRecDone := (s.finish_posted ..).wmRecDone
@[simp] theorem State.finish_acoh (s : State) (t : Taken) (x : Nat) (f : Option Nat) (r : List Byte) : (s.finish t x f r).acoh = s.acoh := (s.finish_posted ..).acoh
@[simp] theorem State.finish_cvMarks (s : State) (t : Taken) (x : Nat) (f : Option Nat) (r : List Byte) : (s.finish t x f r).cvMarks = s.cvMarks := (s.finish_posted ..).cvMarks
@[simp] theorem State.finish_mail (s : State) (t : Taken) (x : Nat) (f : Option Nat) (r : List Byte) : (s.finish t x f r).mail = s.mail := (s.finish_posted ..).mail
@[simp] theorem State.finish_mem (s : State) (t : Taken) (x : Nat) (f : Option Nat) (r : List Byte) : (s.finish t x f r).mem = s.mem := (s.finish_posted ..).mem
@[simp] theorem State.finish_linkLost (s : State) (t : Taken) (x : Nat) (f : Option Nat) (r : List Byte) : (s.finish t x f r).linkLost = s.linkLost := (s.finish_posted ..).linkLost
@[simp] theorem State.finish_s5Held (s : State) (t : Taken) (x : Nat) (f : Option Nat) (r : List Byte) : (s.finish t x f r).s5Held = s.s5Held := (s.finish_posted ..).s5Held
@[simp] theorem State.finish_rest (s : State) (t : Taken) (x : Nat) (f : Option Nat) (r : List Byte) : (s.finish t x f r).rest = s.rest := (s.finish_posted ..).rest
@[simp] theorem State.finish_promLost (s : State) (t : Taken) (x : Nat) (f : Option Nat) (r : List Byte) : (s.finish t x f r).promLost = s.promLost := (s.finish_posted ..).promLost
@[simp] theorem State.finish_pending (s : State) (t : Taken) (x : Nat) (f : Option Nat) (r : List Byte) : (s.finish t x f r).pending = s.pending := (s.finish_posted ..).pending
@[simp] theorem State.refuse_pw (s : State) (t : Taken) (x : Nat) (r : List Byte) : (s.refuse t x r).pw = s.pw := (s.refuse_posted ..).pw
@[simp] theorem State.refuse_clk (s : State) (t : Taken) (x : Nat) (r : List Byte) : (s.refuse t x r).clk = s.clk := (s.refuse_posted ..).clk
@[simp] theorem State.refuse_fr (s : State) (t : Taken) (x : Nat) (r : List Byte) : (s.refuse t x r).fr = s.fr := (s.refuse_posted ..).fr
@[simp] theorem State.refuse_pump (s : State) (t : Taken) (x : Nat) (r : List Byte) : (s.refuse t x r).pump = s.pump := (s.refuse_posted ..).pump
@[simp] theorem State.refuse_settings (s : State) (t : Taken) (x : Nat) (r : List Byte) : (s.refuse t x r).settings = s.settings := (s.refuse_posted ..).settings
@[simp] theorem State.refuse_staged (s : State) (t : Taken) (x : Nat) (r : List Byte) : (s.refuse t x r).staged = s.staged := (s.refuse_posted ..).staged
@[simp] theorem State.refuse_ch (s : State) (t : Taken) (x : Nat) (r : List Byte) : (s.refuse t x r).ch = s.ch := (s.refuse_posted ..).ch
@[simp] theorem State.refuse_adm (s : State) (t : Taken) (x : Nat) (r : List Byte) : (s.refuse t x r).adm = s.adm := (s.refuse_posted ..).adm
@[simp] theorem State.refuse_grp (s : State) (t : Taken) (x : Nat) (r : List Byte) : (s.refuse t x r).grp = s.grp := (s.refuse_posted ..).grp
@[simp] theorem State.refuse_g4 (s : State) (t : Taken) (x : Nat) (r : List Byte) : (s.refuse t x r).g4 = s.g4 := (s.refuse_posted ..).g4
@[simp] theorem State.refuse_g4Ok (s : State) (t : Taken) (x : Nat) (r : List Byte) : (s.refuse t x r).g4Ok = s.g4Ok := (s.refuse_posted ..).g4Ok
@[simp] theorem State.refuse_hk (s : State) (t : Taken) (x : Nat) (r : List Byte) : (s.refuse t x r).hk = s.hk := (s.refuse_posted ..).hk
@[simp] theorem State.refuse_cv (s : State) (t : Taken) (x : Nat) (r : List Byte) : (s.refuse t x r).cv = s.cv := (s.refuse_posted ..).cv
@[simp] theorem State.refuse_aux (s : State) (t : Taken) (x : Nat) (r : List Byte) : (s.refuse t x r).aux = s.aux := (s.refuse_posted ..).aux
@[simp] theorem State.refuse_inj (s : State) (t : Taken) (x : Nat) (r : List Byte) : (s.refuse t x r).inj = s.inj := (s.refuse_posted ..).inj
@[simp] theorem State.refuse_zone (s : State) (t : Taken) (x : Nat) (r : List Byte) : (s.refuse t x r).zone = s.zone := (s.refuse_posted ..).zone
@[simp] theorem State.refuse_bat (s : State) (t : Taken) (x : Nat) (r : List Byte) : (s.refuse t x r).bat = s.bat := (s.refuse_posted ..).bat
@[simp] theorem State.refuse_winBase (s : State) (t : Taken) (x : Nat) (r : List Byte) : (s.refuse t x r).winBase = s.winBase := (s.refuse_posted ..).winBase
@[simp] theorem State.refuse_owners (s : State) (t : Taken) (x : Nat) (r : List Byte) : (s.refuse t x r).owners = s.owners := (s.refuse_posted ..).owners
@[simp] theorem State.refuse_resOwner (s : State) (t : Taken) (x : Nat) (r : List Byte) : (s.refuse t x r).resOwner = s.resOwner := (s.refuse_posted ..).resOwner
@[simp] theorem State.refuse_vio (s : State) (t : Taken) (x : Nat) (r : List Byte) : (s.refuse t x r).vio = s.vio := (s.refuse_posted ..).vio
@[simp] theorem State.refuse_vioOver (s : State) (t : Taken) (x : Nat) (r : List Byte) : (s.refuse t x r).vioOver = s.vioOver := (s.refuse_posted ..).vioOver
@[simp] theorem State.refuse_hpt (s : State) (t : Taken) (x : Nat) (r : List Byte) : (s.refuse t x r).hpt = s.hpt := (s.refuse_posted ..).hpt
@[simp] theorem State.refuse_hptAt (s : State) (t : Taken) (x : Nat) (r : List Byte) : (s.refuse t x r).hptAt = s.hptAt := (s.refuse_posted ..).hptAt
@[simp] theorem State.refuse_nBeyond (s : State) (t : Taken) (x : Nat) (r : List Byte) : (s.refuse t x r).nBeyond = s.nBeyond := (s.refuse_posted ..).nBeyond
@[simp] theorem State.refuse_ccount (s : State) (t : Taken) (x : Nat) (r : List Byte) : (s.refuse t x r).ccount = s.ccount := (s.refuse_posted ..).ccount
@[simp] theorem State.refuse_ccountFirn (s : State) (t : Taken) (x : Nat) (r : List Byte) : (s.refuse t x r).ccountFirn = s.ccountFirn := (s.refuse_posted ..).ccountFirn
@[simp] theorem State.refuse_hinge (s : State) (t : Taken) (x : Nat) (r : List Byte) : (s.refuse t x r).hinge = s.hinge := (s.refuse_posted ..).hinge
@[simp] theorem State.refuse_tmb (s : State) (t : Taken) (x : Nat) (r : List Byte) : (s.refuse t x r).tmb = s.tmb := (s.refuse_posted ..).tmb
@[simp] theorem State.refuse_krg (s : State) (t : Taken) (x : Nat) (r : List Byte) : (s.refuse t x r).krg = s.krg := (s.refuse_posted ..).krg
@[simp] theorem State.refuse_th (s : State) (t : Taken) (x : Nat) (r : List Byte) : (s.refuse t x r).th = s.th := (s.refuse_posted ..).th
@[simp] theorem State.refuse_pd (s : State) (t : Taken) (x : Nat) (r : List Byte) : (s.refuse t x r).pd = s.pd := (s.refuse_posted ..).pd
@[simp] theorem State.refuse_upd (s : State) (t : Taken) (x : Nat) (r : List Byte) : (s.refuse t x r).upd = s.upd := (s.refuse_posted ..).upd
@[simp] theorem State.refuse_otp (s : State) (t : Taken) (x : Nat) (r : List Byte) : (s.refuse t x r).otp = s.otp := (s.refuse_posted ..).otp
@[simp] theorem State.refuse_spi (s : State) (t : Taken) (x : Nat) (r : List Byte) : (s.refuse t x r).spi = s.spi := (s.refuse_posted ..).spi
@[simp] theorem State.refuse_cap (s : State) (t : Taken) (x : Nat) (r : List Byte) : (s.refuse t x r).cap = s.cap := (s.refuse_posted ..).cap
@[simp] theorem State.refuse_snap0 (s : State) (t : Taken) (x : Nat) (r : List Byte) : (s.refuse t x r).snap0 = s.snap0 := (s.refuse_posted ..).snap0
@[simp] theorem State.refuse_snap1 (s : State) (t : Taken) (x : Nat) (r : List Byte) : (s.refuse t x r).snap1 = s.snap1 := (s.refuse_posted ..).snap1
@[simp] theorem State.refuse_snapSrc (s : State) (t : Taken) (x : Nat) (r : List Byte) : (s.refuse t x r).snapSrc = s.snapSrc := (s.refuse_posted ..).snapSrc
@[simp] theorem State.refuse_wmTrip (s : State) (t : Taken) (x : Nat) (r : List Byte) : (s.refuse t x r).wmTrip = s.wmTrip := (s.refuse_posted ..).wmTrip
@[simp] theorem State.refuse_wmRecDone (s : State) (t : Taken) (x : Nat) (r : List Byte) : (s.refuse t x r).wmRecDone = s.wmRecDone := (s.refuse_posted ..).wmRecDone
@[simp] theorem State.refuse_acoh (s : State) (t : Taken) (x : Nat) (r : List Byte) : (s.refuse t x r).acoh = s.acoh := (s.refuse_posted ..).acoh
@[simp] theorem State.refuse_cvMarks (s : State) (t : Taken) (x : Nat) (r : List Byte) : (s.refuse t x r).cvMarks = s.cvMarks := (s.refuse_posted ..).cvMarks
@[simp] theorem State.refuse_mail (s : State) (t : Taken) (x : Nat) (r : List Byte) : (s.refuse t x r).mail = s.mail := (s.refuse_posted ..).mail
@[simp] theorem State.refuse_mem (s : State) (t : Taken) (x : Nat) (r : List Byte) : (s.refuse t x r).mem = s.mem := (s.refuse_posted ..).mem
@[simp] theorem State.refuse_linkLost (s : State) (t : Taken) (x : Nat) (r : List Byte) : (s.refuse t x r).linkLost = s.linkLost := (s.refuse_posted ..).linkLost
@[simp] theorem State.refuse_s5Held (s : State) (t : Taken) (x : Nat) (r : List Byte) : (s.refuse t x r).s5Held = s.s5Held := (s.refuse_posted ..).s5Held
@[simp] theorem State.refuse_rest (s : State) (t : Taken) (x : Nat) (r : List Byte) : (s.refuse t x r).rest = s.rest := (s.refuse_posted ..).rest
@[simp] theorem State.refuse_promLost (s : State) (t : Taken) (x : Nat) (r : List Byte) : (s.refuse t x r).promLost = s.promLost := (s.refuse_posted ..).promLost
@[simp] theorem State.refuse_pending (s : State) (t : Taken) (x : Nat) (r : List Byte) : (s.refuse t x r).pending = s.pending := (s.refuse_posted ..).pending
@[simp] theorem State.writeCpl_pw (s : State) (t : Taken) (x : Nat) (f : Option Nat) (r d : List Byte) (e : Bool) : (s.writeCpl t x f r d e).pw = s.pw := (s.writeCpl_told ..).posted.pw
@[simp] theorem State.writeCpl_clk (s : State) (t : Taken) (x : Nat) (f : Option Nat) (r d : List Byte) (e : Bool) : (s.writeCpl t x f r d e).clk = s.clk := (s.writeCpl_told ..).posted.clk
@[simp] theorem State.writeCpl_fr (s : State) (t : Taken) (x : Nat) (f : Option Nat) (r d : List Byte) (e : Bool) : (s.writeCpl t x f r d e).fr = s.fr := (s.writeCpl_told ..).posted.fr
@[simp] theorem State.writeCpl_pump (s : State) (t : Taken) (x : Nat) (f : Option Nat) (r d : List Byte) (e : Bool) : (s.writeCpl t x f r d e).pump = s.pump := (s.writeCpl_told ..).posted.pump
@[simp] theorem State.writeCpl_settings (s : State) (t : Taken) (x : Nat) (f : Option Nat) (r d : List Byte) (e : Bool) : (s.writeCpl t x f r d e).settings = s.settings := (s.writeCpl_told ..).posted.settings
@[simp] theorem State.writeCpl_staged (s : State) (t : Taken) (x : Nat) (f : Option Nat) (r d : List Byte) (e : Bool) : (s.writeCpl t x f r d e).staged = s.staged := (s.writeCpl_told ..).posted.staged
@[simp] theorem State.writeCpl_ch (s : State) (t : Taken) (x : Nat) (f : Option Nat) (r d : List Byte) (e : Bool) : (s.writeCpl t x f r d e).ch = s.ch := (s.writeCpl_told ..).posted.ch
@[simp] theorem State.writeCpl_adm (s : State) (t : Taken) (x : Nat) (f : Option Nat) (r d : List Byte) (e : Bool) : (s.writeCpl t x f r d e).adm = s.adm := (s.writeCpl_told ..).posted.adm
@[simp] theorem State.writeCpl_grp (s : State) (t : Taken) (x : Nat) (f : Option Nat) (r d : List Byte) (e : Bool) : (s.writeCpl t x f r d e).grp = s.grp := (s.writeCpl_told ..).posted.grp
@[simp] theorem State.writeCpl_g4 (s : State) (t : Taken) (x : Nat) (f : Option Nat) (r d : List Byte) (e : Bool) : (s.writeCpl t x f r d e).g4 = s.g4 := (s.writeCpl_told ..).posted.g4
@[simp] theorem State.writeCpl_g4Ok (s : State) (t : Taken) (x : Nat) (f : Option Nat) (r d : List Byte) (e : Bool) : (s.writeCpl t x f r d e).g4Ok = s.g4Ok := (s.writeCpl_told ..).posted.g4Ok
@[simp] theorem State.writeCpl_hk (s : State) (t : Taken) (x : Nat) (f : Option Nat) (r d : List Byte) (e : Bool) : (s.writeCpl t x f r d e).hk = s.hk := (s.writeCpl_told ..).posted.hk
@[simp] theorem State.writeCpl_cv (s : State) (t : Taken) (x : Nat) (f : Option Nat) (r d : List Byte) (e : Bool) : (s.writeCpl t x f r d e).cv = s.cv := (s.writeCpl_told ..).posted.cv
@[simp] theorem State.writeCpl_aux (s : State) (t : Taken) (x : Nat) (f : Option Nat) (r d : List Byte) (e : Bool) : (s.writeCpl t x f r d e).aux = s.aux := (s.writeCpl_told ..).posted.aux
@[simp] theorem State.writeCpl_inj (s : State) (t : Taken) (x : Nat) (f : Option Nat) (r d : List Byte) (e : Bool) : (s.writeCpl t x f r d e).inj = s.inj := (s.writeCpl_told ..).posted.inj
@[simp] theorem State.writeCpl_zone (s : State) (t : Taken) (x : Nat) (f : Option Nat) (r d : List Byte) (e : Bool) : (s.writeCpl t x f r d e).zone = s.zone := (s.writeCpl_told ..).posted.zone
@[simp] theorem State.writeCpl_bat (s : State) (t : Taken) (x : Nat) (f : Option Nat) (r d : List Byte) (e : Bool) : (s.writeCpl t x f r d e).bat = s.bat := (s.writeCpl_told ..).posted.bat
@[simp] theorem State.writeCpl_winBase (s : State) (t : Taken) (x : Nat) (f : Option Nat) (r d : List Byte) (e : Bool) : (s.writeCpl t x f r d e).winBase = s.winBase := (s.writeCpl_told ..).posted.winBase
@[simp] theorem State.writeCpl_owners (s : State) (t : Taken) (x : Nat) (f : Option Nat) (r d : List Byte) (e : Bool) : (s.writeCpl t x f r d e).owners = s.owners := (s.writeCpl_told ..).posted.owners
@[simp] theorem State.writeCpl_resOwner (s : State) (t : Taken) (x : Nat) (f : Option Nat) (r d : List Byte) (e : Bool) : (s.writeCpl t x f r d e).resOwner = s.resOwner := (s.writeCpl_told ..).posted.resOwner
@[simp] theorem State.writeCpl_vio (s : State) (t : Taken) (x : Nat) (f : Option Nat) (r d : List Byte) (e : Bool) : (s.writeCpl t x f r d e).vio = s.vio := (s.writeCpl_told ..).posted.vio
@[simp] theorem State.writeCpl_vioOver (s : State) (t : Taken) (x : Nat) (f : Option Nat) (r d : List Byte) (e : Bool) : (s.writeCpl t x f r d e).vioOver = s.vioOver := (s.writeCpl_told ..).posted.vioOver
@[simp] theorem State.writeCpl_hpt (s : State) (t : Taken) (x : Nat) (f : Option Nat) (r d : List Byte) (e : Bool) : (s.writeCpl t x f r d e).hpt = s.hpt := (s.writeCpl_told ..).posted.hpt
@[simp] theorem State.writeCpl_hptAt (s : State) (t : Taken) (x : Nat) (f : Option Nat) (r d : List Byte) (e : Bool) : (s.writeCpl t x f r d e).hptAt = s.hptAt := (s.writeCpl_told ..).posted.hptAt
@[simp] theorem State.writeCpl_nBeyond (s : State) (t : Taken) (x : Nat) (f : Option Nat) (r d : List Byte) (e : Bool) : (s.writeCpl t x f r d e).nBeyond = s.nBeyond := (s.writeCpl_told ..).posted.nBeyond
@[simp] theorem State.writeCpl_ccount (s : State) (t : Taken) (x : Nat) (f : Option Nat) (r d : List Byte) (e : Bool) : (s.writeCpl t x f r d e).ccount = s.ccount := (s.writeCpl_told ..).posted.ccount
@[simp] theorem State.writeCpl_ccountFirn (s : State) (t : Taken) (x : Nat) (f : Option Nat) (r d : List Byte) (e : Bool) : (s.writeCpl t x f r d e).ccountFirn = s.ccountFirn := (s.writeCpl_told ..).posted.ccountFirn
@[simp] theorem State.writeCpl_hinge (s : State) (t : Taken) (x : Nat) (f : Option Nat) (r d : List Byte) (e : Bool) : (s.writeCpl t x f r d e).hinge = s.hinge := (s.writeCpl_told ..).posted.hinge
@[simp] theorem State.writeCpl_tmb (s : State) (t : Taken) (x : Nat) (f : Option Nat) (r d : List Byte) (e : Bool) : (s.writeCpl t x f r d e).tmb = s.tmb := (s.writeCpl_told ..).posted.tmb
@[simp] theorem State.writeCpl_krg (s : State) (t : Taken) (x : Nat) (f : Option Nat) (r d : List Byte) (e : Bool) : (s.writeCpl t x f r d e).krg = s.krg := (s.writeCpl_told ..).posted.krg
@[simp] theorem State.writeCpl_th (s : State) (t : Taken) (x : Nat) (f : Option Nat) (r d : List Byte) (e : Bool) : (s.writeCpl t x f r d e).th = s.th := (s.writeCpl_told ..).posted.th
@[simp] theorem State.writeCpl_pd (s : State) (t : Taken) (x : Nat) (f : Option Nat) (r d : List Byte) (e : Bool) : (s.writeCpl t x f r d e).pd = s.pd := (s.writeCpl_told ..).posted.pd
@[simp] theorem State.writeCpl_upd (s : State) (t : Taken) (x : Nat) (f : Option Nat) (r d : List Byte) (e : Bool) : (s.writeCpl t x f r d e).upd = s.upd := (s.writeCpl_told ..).posted.upd
@[simp] theorem State.writeCpl_otp (s : State) (t : Taken) (x : Nat) (f : Option Nat) (r d : List Byte) (e : Bool) : (s.writeCpl t x f r d e).otp = s.otp := (s.writeCpl_told ..).posted.otp
@[simp] theorem State.writeCpl_spi (s : State) (t : Taken) (x : Nat) (f : Option Nat) (r d : List Byte) (e : Bool) : (s.writeCpl t x f r d e).spi = s.spi := (s.writeCpl_told ..).posted.spi
@[simp] theorem State.writeCpl_cap (s : State) (t : Taken) (x : Nat) (f : Option Nat) (r d : List Byte) (e : Bool) : (s.writeCpl t x f r d e).cap = s.cap := (s.writeCpl_told ..).posted.cap
@[simp] theorem State.writeCpl_snap0 (s : State) (t : Taken) (x : Nat) (f : Option Nat) (r d : List Byte) (e : Bool) : (s.writeCpl t x f r d e).snap0 = s.snap0 := (s.writeCpl_told ..).posted.snap0
@[simp] theorem State.writeCpl_snap1 (s : State) (t : Taken) (x : Nat) (f : Option Nat) (r d : List Byte) (e : Bool) : (s.writeCpl t x f r d e).snap1 = s.snap1 := (s.writeCpl_told ..).posted.snap1
@[simp] theorem State.writeCpl_snapSrc (s : State) (t : Taken) (x : Nat) (f : Option Nat) (r d : List Byte) (e : Bool) : (s.writeCpl t x f r d e).snapSrc = s.snapSrc := (s.writeCpl_told ..).posted.snapSrc
@[simp] theorem State.writeCpl_wmTrip (s : State) (t : Taken) (x : Nat) (f : Option Nat) (r d : List Byte) (e : Bool) : (s.writeCpl t x f r d e).wmTrip = s.wmTrip := (s.writeCpl_told ..).posted.wmTrip
@[simp] theorem State.writeCpl_wmRecDone (s : State) (t : Taken) (x : Nat) (f : Option Nat) (r d : List Byte) (e : Bool) : (s.writeCpl t x f r d e).wmRecDone = s.wmRecDone := (s.writeCpl_told ..).posted.wmRecDone
@[simp] theorem State.writeCpl_acoh (s : State) (t : Taken) (x : Nat) (f : Option Nat) (r d : List Byte) (e : Bool) : (s.writeCpl t x f r d e).acoh = s.acoh := (s.writeCpl_told ..).posted.acoh
@[simp] theorem State.writeCpl_cvMarks (s : State) (t : Taken) (x : Nat) (f : Option Nat) (r d : List Byte) (e : Bool) : (s.writeCpl t x f r d e).cvMarks = s.cvMarks := (s.writeCpl_told ..).posted.cvMarks
@[simp] theorem State.writeCpl_mail (s : State) (t : Taken) (x : Nat) (f : Option Nat) (r d : List Byte) (e : Bool) : (s.writeCpl t x f r d e).mail = s.mail := (s.writeCpl_told ..).posted.mail
@[simp] theorem State.writeCpl_mem (s : State) (t : Taken) (x : Nat) (f : Option Nat) (r d : List Byte) (e : Bool) : (s.writeCpl t x f r d e).mem = s.mem := (s.writeCpl_told ..).posted.mem
@[simp] theorem State.writeCpl_linkLost (s : State) (t : Taken) (x : Nat) (f : Option Nat) (r d : List Byte) (e : Bool) : (s.writeCpl t x f r d e).linkLost = s.linkLost := (s.writeCpl_told ..).posted.linkLost
@[simp] theorem State.writeCpl_s5Held (s : State) (t : Taken) (x : Nat) (f : Option Nat) (r d : List Byte) (e : Bool) : (s.writeCpl t x f r d e).s5Held = s.s5Held := (s.writeCpl_told ..).posted.s5Held
@[simp] theorem State.writeCpl_rest (s : State) (t : Taken) (x : Nat) (f : Option Nat) (r d : List Byte) (e : Bool) : (s.writeCpl t x f r d e).rest = s.rest := (s.writeCpl_told ..).posted.rest
@[simp] theorem State.writeCpl_promLost (s : State) (t : Taken) (x : Nat) (f : Option Nat) (r d : List Byte) (e : Bool) : (s.writeCpl t x f r d e).promLost = s.promLost := (s.writeCpl_told ..).posted.promLost
@[simp] theorem State.writeCpl_pending (s : State) (t : Taken) (x : Nat) (f : Option Nat) (r d : List Byte) (e : Bool) : (s.writeCpl t x f r d e).pending = s.pending := (s.writeCpl_told ..).posted.pending
@[simp] theorem State.writeCpl_outs (s : State) (t : Taken) (x : Nat) (f : Option Nat) (r d : List Byte) (e : Bool) : (s.writeCpl t x f r d e).outs = s.outs := (s.writeCpl_told ..).outs
@[simp] theorem State.cmdStart_pw (s : State) (t : Taken) : (s.cmdStart t).pw = s.pw := (s.cmdStart_told ..).posted.pw
@[simp] theorem State.cmdStart_clk (s : State) (t : Taken) : (s.cmdStart t).clk = s.clk := (s.cmdStart_told ..).posted.clk
@[simp] theorem State.cmdStart_fr (s : State) (t : Taken) : (s.cmdStart t).fr = s.fr := (s.cmdStart_told ..).posted.fr
@[simp] theorem State.cmdStart_pump (s : State) (t : Taken) : (s.cmdStart t).pump = s.pump := (s.cmdStart_told ..).posted.pump
@[simp] theorem State.cmdStart_settings (s : State) (t : Taken) : (s.cmdStart t).settings = s.settings := (s.cmdStart_told ..).posted.settings
@[simp] theorem State.cmdStart_staged (s : State) (t : Taken) : (s.cmdStart t).staged = s.staged := (s.cmdStart_told ..).posted.staged
@[simp] theorem State.cmdStart_ch (s : State) (t : Taken) : (s.cmdStart t).ch = s.ch := (s.cmdStart_told ..).posted.ch
@[simp] theorem State.cmdStart_adm (s : State) (t : Taken) : (s.cmdStart t).adm = s.adm := (s.cmdStart_told ..).posted.adm
@[simp] theorem State.cmdStart_grp (s : State) (t : Taken) : (s.cmdStart t).grp = s.grp := (s.cmdStart_told ..).posted.grp
@[simp] theorem State.cmdStart_g4 (s : State) (t : Taken) : (s.cmdStart t).g4 = s.g4 := (s.cmdStart_told ..).posted.g4
@[simp] theorem State.cmdStart_g4Ok (s : State) (t : Taken) : (s.cmdStart t).g4Ok = s.g4Ok := (s.cmdStart_told ..).posted.g4Ok
@[simp] theorem State.cmdStart_hk (s : State) (t : Taken) : (s.cmdStart t).hk = s.hk := (s.cmdStart_told ..).posted.hk
@[simp] theorem State.cmdStart_cv (s : State) (t : Taken) : (s.cmdStart t).cv = s.cv := (s.cmdStart_told ..).posted.cv
@[simp] theorem State.cmdStart_aux (s : State) (t : Taken) : (s.cmdStart t).aux = s.aux := (s.cmdStart_told ..).posted.aux
@[simp] theorem State.cmdStart_inj (s : State) (t : Taken) : (s.cmdStart t).inj = s.inj := (s.cmdStart_told ..).posted.inj
@[simp] theorem State.cmdStart_zone (s : State) (t : Taken) : (s.cmdStart t).zone = s.zone := (s.cmdStart_told ..).posted.zone
@[simp] theorem State.cmdStart_bat (s : State) (t : Taken) : (s.cmdStart t).bat = s.bat := (s.cmdStart_told ..).posted.bat
@[simp] theorem State.cmdStart_winBase (s : State) (t : Taken) : (s.cmdStart t).winBase = s.winBase := (s.cmdStart_told ..).posted.winBase
@[simp] theorem State.cmdStart_owners (s : State) (t : Taken) : (s.cmdStart t).owners = s.owners := (s.cmdStart_told ..).posted.owners
@[simp] theorem State.cmdStart_resOwner (s : State) (t : Taken) : (s.cmdStart t).resOwner = s.resOwner := (s.cmdStart_told ..).posted.resOwner
@[simp] theorem State.cmdStart_vio (s : State) (t : Taken) : (s.cmdStart t).vio = s.vio := (s.cmdStart_told ..).posted.vio
@[simp] theorem State.cmdStart_vioOver (s : State) (t : Taken) : (s.cmdStart t).vioOver = s.vioOver := (s.cmdStart_told ..).posted.vioOver
@[simp] theorem State.cmdStart_hpt (s : State) (t : Taken) : (s.cmdStart t).hpt = s.hpt := (s.cmdStart_told ..).posted.hpt
@[simp] theorem State.cmdStart_hptAt (s : State) (t : Taken) : (s.cmdStart t).hptAt = s.hptAt := (s.cmdStart_told ..).posted.hptAt
@[simp] theorem State.cmdStart_nBeyond (s : State) (t : Taken) : (s.cmdStart t).nBeyond = s.nBeyond := (s.cmdStart_told ..).posted.nBeyond
@[simp] theorem State.cmdStart_ccount (s : State) (t : Taken) : (s.cmdStart t).ccount = s.ccount := (s.cmdStart_told ..).posted.ccount
@[simp] theorem State.cmdStart_ccountFirn (s : State) (t : Taken) : (s.cmdStart t).ccountFirn = s.ccountFirn := (s.cmdStart_told ..).posted.ccountFirn
@[simp] theorem State.cmdStart_hinge (s : State) (t : Taken) : (s.cmdStart t).hinge = s.hinge := (s.cmdStart_told ..).posted.hinge
@[simp] theorem State.cmdStart_tmb (s : State) (t : Taken) : (s.cmdStart t).tmb = s.tmb := (s.cmdStart_told ..).posted.tmb
@[simp] theorem State.cmdStart_krg (s : State) (t : Taken) : (s.cmdStart t).krg = s.krg := (s.cmdStart_told ..).posted.krg
@[simp] theorem State.cmdStart_th (s : State) (t : Taken) : (s.cmdStart t).th = s.th := (s.cmdStart_told ..).posted.th
@[simp] theorem State.cmdStart_pd (s : State) (t : Taken) : (s.cmdStart t).pd = s.pd := (s.cmdStart_told ..).posted.pd
@[simp] theorem State.cmdStart_upd (s : State) (t : Taken) : (s.cmdStart t).upd = s.upd := (s.cmdStart_told ..).posted.upd
@[simp] theorem State.cmdStart_otp (s : State) (t : Taken) : (s.cmdStart t).otp = s.otp := (s.cmdStart_told ..).posted.otp
@[simp] theorem State.cmdStart_spi (s : State) (t : Taken) : (s.cmdStart t).spi = s.spi := (s.cmdStart_told ..).posted.spi
@[simp] theorem State.cmdStart_cap (s : State) (t : Taken) : (s.cmdStart t).cap = s.cap := (s.cmdStart_told ..).posted.cap
@[simp] theorem State.cmdStart_snap0 (s : State) (t : Taken) : (s.cmdStart t).snap0 = s.snap0 := (s.cmdStart_told ..).posted.snap0
@[simp] theorem State.cmdStart_snap1 (s : State) (t : Taken) : (s.cmdStart t).snap1 = s.snap1 := (s.cmdStart_told ..).posted.snap1
@[simp] theorem State.cmdStart_snapSrc (s : State) (t : Taken) : (s.cmdStart t).snapSrc = s.snapSrc := (s.cmdStart_told ..).posted.snapSrc
@[simp] theorem State.cmdStart_wmTrip (s : State) (t : Taken) : (s.cmdStart t).wmTrip = s.wmTrip := (s.cmdStart_told ..).posted.wmTrip
@[simp] theorem State.cmdStart_wmRecDone (s : State) (t : Taken) : (s.cmdStart t).wmRecDone = s.wmRecDone := (s.cmdStart_told ..).posted.wmRecDone
@[simp] theorem State.cmdStart_acoh (s : State) (t : Taken) : (s.cmdStart t).acoh = s.acoh := (s.cmdStart_told ..).posted.acoh
@[simp] theorem State.cmdStart_cvMarks (s : State) (t : Taken) : (s.cmdStart t).cvMarks = s.cvMarks := (s.cmdStart_told ..).posted.cvMarks
@[simp] theorem State.cmdStart_mail (s : State) (t : Taken) : (s.cmdStart t).mail = s.mail := (s.cmdStart_told ..).posted.mail
@[simp] theorem State.cmdStart_mem (s : State) (t : Taken) : (s.cmdStart t).mem = s.mem := (s.cmdStart_told ..).posted.mem
@[simp] theorem State.cmdStart_linkLost (s : State) (t : Taken) : (s.cmdStart t).linkLost = s.linkLost := (s.cmdStart_told ..).posted.linkLost
@[simp] theorem State.cmdStart_s5Held (s : State) (t : Taken) : (s.cmdStart t).s5Held = s.s5Held := (s.cmdStart_told ..).posted.s5Held
@[simp] theorem State.cmdStart_rest (s : State) (t : Taken) : (s.cmdStart t).rest = s.rest := (s.cmdStart_told ..).posted.rest
@[simp] theorem State.cmdStart_promLost (s : State) (t : Taken) : (s.cmdStart t).promLost = s.promLost := (s.cmdStart_told ..).posted.promLost
@[simp] theorem State.cmdStart_pending (s : State) (t : Taken) : (s.cmdStart t).pending = s.pending := (s.cmdStart_told ..).posted.pending
@[simp] theorem State.cmdStart_outs (s : State) (t : Taken) : (s.cmdStart t).outs = s.outs := (s.cmdStart_told ..).outs
@[simp] theorem State.cmdDone_pw (s : State) (t : Taken) (x : Nat) (r : List Byte) : (s.cmdDone t x r).pw = s.pw := (s.cmdDone_told ..).posted.pw
@[simp] theorem State.cmdDone_clk (s : State) (t : Taken) (x : Nat) (r : List Byte) : (s.cmdDone t x r).clk = s.clk := (s.cmdDone_told ..).posted.clk
@[simp] theorem State.cmdDone_fr (s : State) (t : Taken) (x : Nat) (r : List Byte) : (s.cmdDone t x r).fr = s.fr := (s.cmdDone_told ..).posted.fr
@[simp] theorem State.cmdDone_pump (s : State) (t : Taken) (x : Nat) (r : List Byte) : (s.cmdDone t x r).pump = s.pump := (s.cmdDone_told ..).posted.pump
@[simp] theorem State.cmdDone_settings (s : State) (t : Taken) (x : Nat) (r : List Byte) : (s.cmdDone t x r).settings = s.settings := (s.cmdDone_told ..).posted.settings
@[simp] theorem State.cmdDone_staged (s : State) (t : Taken) (x : Nat) (r : List Byte) : (s.cmdDone t x r).staged = s.staged := (s.cmdDone_told ..).posted.staged
@[simp] theorem State.cmdDone_ch (s : State) (t : Taken) (x : Nat) (r : List Byte) : (s.cmdDone t x r).ch = s.ch := (s.cmdDone_told ..).posted.ch
@[simp] theorem State.cmdDone_adm (s : State) (t : Taken) (x : Nat) (r : List Byte) : (s.cmdDone t x r).adm = s.adm := (s.cmdDone_told ..).posted.adm
@[simp] theorem State.cmdDone_grp (s : State) (t : Taken) (x : Nat) (r : List Byte) : (s.cmdDone t x r).grp = s.grp := (s.cmdDone_told ..).posted.grp
@[simp] theorem State.cmdDone_g4 (s : State) (t : Taken) (x : Nat) (r : List Byte) : (s.cmdDone t x r).g4 = s.g4 := (s.cmdDone_told ..).posted.g4
@[simp] theorem State.cmdDone_g4Ok (s : State) (t : Taken) (x : Nat) (r : List Byte) : (s.cmdDone t x r).g4Ok = s.g4Ok := (s.cmdDone_told ..).posted.g4Ok
@[simp] theorem State.cmdDone_hk (s : State) (t : Taken) (x : Nat) (r : List Byte) : (s.cmdDone t x r).hk = s.hk := (s.cmdDone_told ..).posted.hk
@[simp] theorem State.cmdDone_cv (s : State) (t : Taken) (x : Nat) (r : List Byte) : (s.cmdDone t x r).cv = s.cv := (s.cmdDone_told ..).posted.cv
@[simp] theorem State.cmdDone_aux (s : State) (t : Taken) (x : Nat) (r : List Byte) : (s.cmdDone t x r).aux = s.aux := (s.cmdDone_told ..).posted.aux
@[simp] theorem State.cmdDone_inj (s : State) (t : Taken) (x : Nat) (r : List Byte) : (s.cmdDone t x r).inj = s.inj := (s.cmdDone_told ..).posted.inj
@[simp] theorem State.cmdDone_zone (s : State) (t : Taken) (x : Nat) (r : List Byte) : (s.cmdDone t x r).zone = s.zone := (s.cmdDone_told ..).posted.zone
@[simp] theorem State.cmdDone_bat (s : State) (t : Taken) (x : Nat) (r : List Byte) : (s.cmdDone t x r).bat = s.bat := (s.cmdDone_told ..).posted.bat
@[simp] theorem State.cmdDone_winBase (s : State) (t : Taken) (x : Nat) (r : List Byte) : (s.cmdDone t x r).winBase = s.winBase := (s.cmdDone_told ..).posted.winBase
@[simp] theorem State.cmdDone_owners (s : State) (t : Taken) (x : Nat) (r : List Byte) : (s.cmdDone t x r).owners = s.owners := (s.cmdDone_told ..).posted.owners
@[simp] theorem State.cmdDone_resOwner (s : State) (t : Taken) (x : Nat) (r : List Byte) : (s.cmdDone t x r).resOwner = s.resOwner := (s.cmdDone_told ..).posted.resOwner
@[simp] theorem State.cmdDone_vio (s : State) (t : Taken) (x : Nat) (r : List Byte) : (s.cmdDone t x r).vio = s.vio := (s.cmdDone_told ..).posted.vio
@[simp] theorem State.cmdDone_vioOver (s : State) (t : Taken) (x : Nat) (r : List Byte) : (s.cmdDone t x r).vioOver = s.vioOver := (s.cmdDone_told ..).posted.vioOver
@[simp] theorem State.cmdDone_hpt (s : State) (t : Taken) (x : Nat) (r : List Byte) : (s.cmdDone t x r).hpt = s.hpt := (s.cmdDone_told ..).posted.hpt
@[simp] theorem State.cmdDone_hptAt (s : State) (t : Taken) (x : Nat) (r : List Byte) : (s.cmdDone t x r).hptAt = s.hptAt := (s.cmdDone_told ..).posted.hptAt
@[simp] theorem State.cmdDone_nBeyond (s : State) (t : Taken) (x : Nat) (r : List Byte) : (s.cmdDone t x r).nBeyond = s.nBeyond := (s.cmdDone_told ..).posted.nBeyond
@[simp] theorem State.cmdDone_ccount (s : State) (t : Taken) (x : Nat) (r : List Byte) : (s.cmdDone t x r).ccount = s.ccount := (s.cmdDone_told ..).posted.ccount
@[simp] theorem State.cmdDone_ccountFirn (s : State) (t : Taken) (x : Nat) (r : List Byte) : (s.cmdDone t x r).ccountFirn = s.ccountFirn := (s.cmdDone_told ..).posted.ccountFirn
@[simp] theorem State.cmdDone_hinge (s : State) (t : Taken) (x : Nat) (r : List Byte) : (s.cmdDone t x r).hinge = s.hinge := (s.cmdDone_told ..).posted.hinge
@[simp] theorem State.cmdDone_tmb (s : State) (t : Taken) (x : Nat) (r : List Byte) : (s.cmdDone t x r).tmb = s.tmb := (s.cmdDone_told ..).posted.tmb
@[simp] theorem State.cmdDone_krg (s : State) (t : Taken) (x : Nat) (r : List Byte) : (s.cmdDone t x r).krg = s.krg := (s.cmdDone_told ..).posted.krg
@[simp] theorem State.cmdDone_th (s : State) (t : Taken) (x : Nat) (r : List Byte) : (s.cmdDone t x r).th = s.th := (s.cmdDone_told ..).posted.th
@[simp] theorem State.cmdDone_pd (s : State) (t : Taken) (x : Nat) (r : List Byte) : (s.cmdDone t x r).pd = s.pd := (s.cmdDone_told ..).posted.pd
@[simp] theorem State.cmdDone_upd (s : State) (t : Taken) (x : Nat) (r : List Byte) : (s.cmdDone t x r).upd = s.upd := (s.cmdDone_told ..).posted.upd
@[simp] theorem State.cmdDone_otp (s : State) (t : Taken) (x : Nat) (r : List Byte) : (s.cmdDone t x r).otp = s.otp := (s.cmdDone_told ..).posted.otp
@[simp] theorem State.cmdDone_spi (s : State) (t : Taken) (x : Nat) (r : List Byte) : (s.cmdDone t x r).spi = s.spi := (s.cmdDone_told ..).posted.spi
@[simp] theorem State.cmdDone_cap (s : State) (t : Taken) (x : Nat) (r : List Byte) : (s.cmdDone t x r).cap = s.cap := (s.cmdDone_told ..).posted.cap
@[simp] theorem State.cmdDone_snap0 (s : State) (t : Taken) (x : Nat) (r : List Byte) : (s.cmdDone t x r).snap0 = s.snap0 := (s.cmdDone_told ..).posted.snap0
@[simp] theorem State.cmdDone_snap1 (s : State) (t : Taken) (x : Nat) (r : List Byte) : (s.cmdDone t x r).snap1 = s.snap1 := (s.cmdDone_told ..).posted.snap1
@[simp] theorem State.cmdDone_snapSrc (s : State) (t : Taken) (x : Nat) (r : List Byte) : (s.cmdDone t x r).snapSrc = s.snapSrc := (s.cmdDone_told ..).posted.snapSrc
@[simp] theorem State.cmdDone_wmTrip (s : State) (t : Taken) (x : Nat) (r : List Byte) : (s.cmdDone t x r).wmTrip = s.wmTrip := (s.cmdDone_told ..).posted.wmTrip
@[simp] theorem State.cmdDone_wmRecDone (s : State) (t : Taken) (x : Nat) (r : List Byte) : (s.cmdDone t x r).wmRecDone = s.wmRecDone := (s.cmdDone_told ..).posted.wmRecDone
@[simp] theorem State.cmdDone_acoh (s : State) (t : Taken) (x : Nat) (r : List Byte) : (s.cmdDone t x r).acoh = s.acoh := (s.cmdDone_told ..).posted.acoh
@[simp] theorem State.cmdDone_cvMarks (s : State) (t : Taken) (x : Nat) (r : List Byte) : (s.cmdDone t x r).cvMarks = s.cvMarks := (s.cmdDone_told ..).posted.cvMarks
@[simp] theorem State.cmdDone_mail (s : State) (t : Taken) (x : Nat) (r : List Byte) : (s.cmdDone t x r).mail = s.mail := (s.cmdDone_told ..).posted.mail
@[simp] theorem State.cmdDone_mem (s : State) (t : Taken) (x : Nat) (r : List Byte) : (s.cmdDone t x r).mem = s.mem := (s.cmdDone_told ..).posted.mem
@[simp] theorem State.cmdDone_linkLost (s : State) (t : Taken) (x : Nat) (r : List Byte) : (s.cmdDone t x r).linkLost = s.linkLost := (s.cmdDone_told ..).posted.linkLost
@[simp] theorem State.cmdDone_s5Held (s : State) (t : Taken) (x : Nat) (r : List Byte) : (s.cmdDone t x r).s5Held = s.s5Held := (s.cmdDone_told ..).posted.s5Held
@[simp] theorem State.cmdDone_rest (s : State) (t : Taken) (x : Nat) (r : List Byte) : (s.cmdDone t x r).rest = s.rest := (s.cmdDone_told ..).posted.rest
@[simp] theorem State.cmdDone_promLost (s : State) (t : Taken) (x : Nat) (r : List Byte) : (s.cmdDone t x r).promLost = s.promLost := (s.cmdDone_told ..).posted.promLost
@[simp] theorem State.cmdDone_pending (s : State) (t : Taken) (x : Nat) (r : List Byte) : (s.cmdDone t x r).pending = s.pending := (s.cmdDone_told ..).posted.pending
@[simp] theorem State.cmdDone_outs (s : State) (t : Taken) (x : Nat) (r : List Byte) : (s.cmdDone t x r).outs = s.outs := (s.cmdDone_told ..).outs
@[simp] theorem State.sendMsg_pw (s : State) (l : Cls) (y d q c : Nat) (pl : List Byte) (f : Option (Fin 32 × Option Nat)) (e : Bool) (m : Option Nat) (k : Option (Nat × Option Word)) : (s.sendMsg l y d q c pl f e m k).pw = s.pw := (s.sendMsg_told ..).posted.pw
@[simp] theorem State.sendMsg_clk (s : State) (l : Cls) (y d q c : Nat) (pl : List Byte) (f : Option (Fin 32 × Option Nat)) (e : Bool) (m : Option Nat) (k : Option (Nat × Option Word)) : (s.sendMsg l y d q c pl f e m k).clk = s.clk := (s.sendMsg_told ..).posted.clk
@[simp] theorem State.sendMsg_fr (s : State) (l : Cls) (y d q c : Nat) (pl : List Byte) (f : Option (Fin 32 × Option Nat)) (e : Bool) (m : Option Nat) (k : Option (Nat × Option Word)) : (s.sendMsg l y d q c pl f e m k).fr = s.fr := (s.sendMsg_told ..).posted.fr
@[simp] theorem State.sendMsg_pump (s : State) (l : Cls) (y d q c : Nat) (pl : List Byte) (f : Option (Fin 32 × Option Nat)) (e : Bool) (m : Option Nat) (k : Option (Nat × Option Word)) : (s.sendMsg l y d q c pl f e m k).pump = s.pump := (s.sendMsg_told ..).posted.pump
@[simp] theorem State.sendMsg_settings (s : State) (l : Cls) (y d q c : Nat) (pl : List Byte) (f : Option (Fin 32 × Option Nat)) (e : Bool) (m : Option Nat) (k : Option (Nat × Option Word)) : (s.sendMsg l y d q c pl f e m k).settings = s.settings := (s.sendMsg_told ..).posted.settings
@[simp] theorem State.sendMsg_staged (s : State) (l : Cls) (y d q c : Nat) (pl : List Byte) (f : Option (Fin 32 × Option Nat)) (e : Bool) (m : Option Nat) (k : Option (Nat × Option Word)) : (s.sendMsg l y d q c pl f e m k).staged = s.staged := (s.sendMsg_told ..).posted.staged
@[simp] theorem State.sendMsg_ch (s : State) (l : Cls) (y d q c : Nat) (pl : List Byte) (f : Option (Fin 32 × Option Nat)) (e : Bool) (m : Option Nat) (k : Option (Nat × Option Word)) : (s.sendMsg l y d q c pl f e m k).ch = s.ch := (s.sendMsg_told ..).posted.ch
@[simp] theorem State.sendMsg_adm (s : State) (l : Cls) (y d q c : Nat) (pl : List Byte) (f : Option (Fin 32 × Option Nat)) (e : Bool) (m : Option Nat) (k : Option (Nat × Option Word)) : (s.sendMsg l y d q c pl f e m k).adm = s.adm := (s.sendMsg_told ..).posted.adm
@[simp] theorem State.sendMsg_grp (s : State) (l : Cls) (y d q c : Nat) (pl : List Byte) (f : Option (Fin 32 × Option Nat)) (e : Bool) (m : Option Nat) (k : Option (Nat × Option Word)) : (s.sendMsg l y d q c pl f e m k).grp = s.grp := (s.sendMsg_told ..).posted.grp
@[simp] theorem State.sendMsg_g4 (s : State) (l : Cls) (y d q c : Nat) (pl : List Byte) (f : Option (Fin 32 × Option Nat)) (e : Bool) (m : Option Nat) (k : Option (Nat × Option Word)) : (s.sendMsg l y d q c pl f e m k).g4 = s.g4 := (s.sendMsg_told ..).posted.g4
@[simp] theorem State.sendMsg_g4Ok (s : State) (l : Cls) (y d q c : Nat) (pl : List Byte) (f : Option (Fin 32 × Option Nat)) (e : Bool) (m : Option Nat) (k : Option (Nat × Option Word)) : (s.sendMsg l y d q c pl f e m k).g4Ok = s.g4Ok := (s.sendMsg_told ..).posted.g4Ok
@[simp] theorem State.sendMsg_hk (s : State) (l : Cls) (y d q c : Nat) (pl : List Byte) (f : Option (Fin 32 × Option Nat)) (e : Bool) (m : Option Nat) (k : Option (Nat × Option Word)) : (s.sendMsg l y d q c pl f e m k).hk = s.hk := (s.sendMsg_told ..).posted.hk
@[simp] theorem State.sendMsg_cv (s : State) (l : Cls) (y d q c : Nat) (pl : List Byte) (f : Option (Fin 32 × Option Nat)) (e : Bool) (m : Option Nat) (k : Option (Nat × Option Word)) : (s.sendMsg l y d q c pl f e m k).cv = s.cv := (s.sendMsg_told ..).posted.cv
@[simp] theorem State.sendMsg_aux (s : State) (l : Cls) (y d q c : Nat) (pl : List Byte) (f : Option (Fin 32 × Option Nat)) (e : Bool) (m : Option Nat) (k : Option (Nat × Option Word)) : (s.sendMsg l y d q c pl f e m k).aux = s.aux := (s.sendMsg_told ..).posted.aux
@[simp] theorem State.sendMsg_inj (s : State) (l : Cls) (y d q c : Nat) (pl : List Byte) (f : Option (Fin 32 × Option Nat)) (e : Bool) (m : Option Nat) (k : Option (Nat × Option Word)) : (s.sendMsg l y d q c pl f e m k).inj = s.inj := (s.sendMsg_told ..).posted.inj
@[simp] theorem State.sendMsg_zone (s : State) (l : Cls) (y d q c : Nat) (pl : List Byte) (f : Option (Fin 32 × Option Nat)) (e : Bool) (m : Option Nat) (k : Option (Nat × Option Word)) : (s.sendMsg l y d q c pl f e m k).zone = s.zone := (s.sendMsg_told ..).posted.zone
@[simp] theorem State.sendMsg_bat (s : State) (l : Cls) (y d q c : Nat) (pl : List Byte) (f : Option (Fin 32 × Option Nat)) (e : Bool) (m : Option Nat) (k : Option (Nat × Option Word)) : (s.sendMsg l y d q c pl f e m k).bat = s.bat := (s.sendMsg_told ..).posted.bat
@[simp] theorem State.sendMsg_winBase (s : State) (l : Cls) (y d q c : Nat) (pl : List Byte) (f : Option (Fin 32 × Option Nat)) (e : Bool) (m : Option Nat) (k : Option (Nat × Option Word)) : (s.sendMsg l y d q c pl f e m k).winBase = s.winBase := (s.sendMsg_told ..).posted.winBase
@[simp] theorem State.sendMsg_owners (s : State) (l : Cls) (y d q c : Nat) (pl : List Byte) (f : Option (Fin 32 × Option Nat)) (e : Bool) (m : Option Nat) (k : Option (Nat × Option Word)) : (s.sendMsg l y d q c pl f e m k).owners = s.owners := (s.sendMsg_told ..).posted.owners
@[simp] theorem State.sendMsg_resOwner (s : State) (l : Cls) (y d q c : Nat) (pl : List Byte) (f : Option (Fin 32 × Option Nat)) (e : Bool) (m : Option Nat) (k : Option (Nat × Option Word)) : (s.sendMsg l y d q c pl f e m k).resOwner = s.resOwner := (s.sendMsg_told ..).posted.resOwner
@[simp] theorem State.sendMsg_vio (s : State) (l : Cls) (y d q c : Nat) (pl : List Byte) (f : Option (Fin 32 × Option Nat)) (e : Bool) (m : Option Nat) (k : Option (Nat × Option Word)) : (s.sendMsg l y d q c pl f e m k).vio = s.vio := (s.sendMsg_told ..).posted.vio
@[simp] theorem State.sendMsg_vioOver (s : State) (l : Cls) (y d q c : Nat) (pl : List Byte) (f : Option (Fin 32 × Option Nat)) (e : Bool) (m : Option Nat) (k : Option (Nat × Option Word)) : (s.sendMsg l y d q c pl f e m k).vioOver = s.vioOver := (s.sendMsg_told ..).posted.vioOver
@[simp] theorem State.sendMsg_hpt (s : State) (l : Cls) (y d q c : Nat) (pl : List Byte) (f : Option (Fin 32 × Option Nat)) (e : Bool) (m : Option Nat) (k : Option (Nat × Option Word)) : (s.sendMsg l y d q c pl f e m k).hpt = s.hpt := (s.sendMsg_told ..).posted.hpt
@[simp] theorem State.sendMsg_hptAt (s : State) (l : Cls) (y d q c : Nat) (pl : List Byte) (f : Option (Fin 32 × Option Nat)) (e : Bool) (m : Option Nat) (k : Option (Nat × Option Word)) : (s.sendMsg l y d q c pl f e m k).hptAt = s.hptAt := (s.sendMsg_told ..).posted.hptAt
@[simp] theorem State.sendMsg_nBeyond (s : State) (l : Cls) (y d q c : Nat) (pl : List Byte) (f : Option (Fin 32 × Option Nat)) (e : Bool) (m : Option Nat) (k : Option (Nat × Option Word)) : (s.sendMsg l y d q c pl f e m k).nBeyond = s.nBeyond := (s.sendMsg_told ..).posted.nBeyond
@[simp] theorem State.sendMsg_ccount (s : State) (l : Cls) (y d q c : Nat) (pl : List Byte) (f : Option (Fin 32 × Option Nat)) (e : Bool) (m : Option Nat) (k : Option (Nat × Option Word)) : (s.sendMsg l y d q c pl f e m k).ccount = s.ccount := (s.sendMsg_told ..).posted.ccount
@[simp] theorem State.sendMsg_ccountFirn (s : State) (l : Cls) (y d q c : Nat) (pl : List Byte) (f : Option (Fin 32 × Option Nat)) (e : Bool) (m : Option Nat) (k : Option (Nat × Option Word)) : (s.sendMsg l y d q c pl f e m k).ccountFirn = s.ccountFirn := (s.sendMsg_told ..).posted.ccountFirn
@[simp] theorem State.sendMsg_hinge (s : State) (l : Cls) (y d q c : Nat) (pl : List Byte) (f : Option (Fin 32 × Option Nat)) (e : Bool) (m : Option Nat) (k : Option (Nat × Option Word)) : (s.sendMsg l y d q c pl f e m k).hinge = s.hinge := (s.sendMsg_told ..).posted.hinge
@[simp] theorem State.sendMsg_tmb (s : State) (l : Cls) (y d q c : Nat) (pl : List Byte) (f : Option (Fin 32 × Option Nat)) (e : Bool) (m : Option Nat) (k : Option (Nat × Option Word)) : (s.sendMsg l y d q c pl f e m k).tmb = s.tmb := (s.sendMsg_told ..).posted.tmb
@[simp] theorem State.sendMsg_krg (s : State) (l : Cls) (y d q c : Nat) (pl : List Byte) (f : Option (Fin 32 × Option Nat)) (e : Bool) (m : Option Nat) (k : Option (Nat × Option Word)) : (s.sendMsg l y d q c pl f e m k).krg = s.krg := (s.sendMsg_told ..).posted.krg
@[simp] theorem State.sendMsg_th (s : State) (l : Cls) (y d q c : Nat) (pl : List Byte) (f : Option (Fin 32 × Option Nat)) (e : Bool) (m : Option Nat) (k : Option (Nat × Option Word)) : (s.sendMsg l y d q c pl f e m k).th = s.th := (s.sendMsg_told ..).posted.th
@[simp] theorem State.sendMsg_pd (s : State) (l : Cls) (y d q c : Nat) (pl : List Byte) (f : Option (Fin 32 × Option Nat)) (e : Bool) (m : Option Nat) (k : Option (Nat × Option Word)) : (s.sendMsg l y d q c pl f e m k).pd = s.pd := (s.sendMsg_told ..).posted.pd
@[simp] theorem State.sendMsg_upd (s : State) (l : Cls) (y d q c : Nat) (pl : List Byte) (f : Option (Fin 32 × Option Nat)) (e : Bool) (m : Option Nat) (k : Option (Nat × Option Word)) : (s.sendMsg l y d q c pl f e m k).upd = s.upd := (s.sendMsg_told ..).posted.upd
@[simp] theorem State.sendMsg_otp (s : State) (l : Cls) (y d q c : Nat) (pl : List Byte) (f : Option (Fin 32 × Option Nat)) (e : Bool) (m : Option Nat) (k : Option (Nat × Option Word)) : (s.sendMsg l y d q c pl f e m k).otp = s.otp := (s.sendMsg_told ..).posted.otp
@[simp] theorem State.sendMsg_spi (s : State) (l : Cls) (y d q c : Nat) (pl : List Byte) (f : Option (Fin 32 × Option Nat)) (e : Bool) (m : Option Nat) (k : Option (Nat × Option Word)) : (s.sendMsg l y d q c pl f e m k).spi = s.spi := (s.sendMsg_told ..).posted.spi
@[simp] theorem State.sendMsg_cap (s : State) (l : Cls) (y d q c : Nat) (pl : List Byte) (f : Option (Fin 32 × Option Nat)) (e : Bool) (m : Option Nat) (k : Option (Nat × Option Word)) : (s.sendMsg l y d q c pl f e m k).cap = s.cap := (s.sendMsg_told ..).posted.cap
@[simp] theorem State.sendMsg_snap0 (s : State) (l : Cls) (y d q c : Nat) (pl : List Byte) (f : Option (Fin 32 × Option Nat)) (e : Bool) (m : Option Nat) (k : Option (Nat × Option Word)) : (s.sendMsg l y d q c pl f e m k).snap0 = s.snap0 := (s.sendMsg_told ..).posted.snap0
@[simp] theorem State.sendMsg_snap1 (s : State) (l : Cls) (y d q c : Nat) (pl : List Byte) (f : Option (Fin 32 × Option Nat)) (e : Bool) (m : Option Nat) (k : Option (Nat × Option Word)) : (s.sendMsg l y d q c pl f e m k).snap1 = s.snap1 := (s.sendMsg_told ..).posted.snap1
@[simp] theorem State.sendMsg_snapSrc (s : State) (l : Cls) (y d q c : Nat) (pl : List Byte) (f : Option (Fin 32 × Option Nat)) (e : Bool) (m : Option Nat) (k : Option (Nat × Option Word)) : (s.sendMsg l y d q c pl f e m k).snapSrc = s.snapSrc := (s.sendMsg_told ..).posted.snapSrc
@[simp] theorem State.sendMsg_wmTrip (s : State) (l : Cls) (y d q c : Nat) (pl : List Byte) (f : Option (Fin 32 × Option Nat)) (e : Bool) (m : Option Nat) (k : Option (Nat × Option Word)) : (s.sendMsg l y d q c pl f e m k).wmTrip = s.wmTrip := (s.sendMsg_told ..).posted.wmTrip
@[simp] theorem State.sendMsg_wmRecDone (s : State) (l : Cls) (y d q c : Nat) (pl : List Byte) (f : Option (Fin 32 × Option Nat)) (e : Bool) (m : Option Nat) (k : Option (Nat × Option Word)) : (s.sendMsg l y d q c pl f e m k).wmRecDone = s.wmRecDone := (s.sendMsg_told ..).posted.wmRecDone
@[simp] theorem State.sendMsg_acoh (s : State) (l : Cls) (y d q c : Nat) (pl : List Byte) (f : Option (Fin 32 × Option Nat)) (e : Bool) (m : Option Nat) (k : Option (Nat × Option Word)) : (s.sendMsg l y d q c pl f e m k).acoh = s.acoh := (s.sendMsg_told ..).posted.acoh
@[simp] theorem State.sendMsg_cvMarks (s : State) (l : Cls) (y d q c : Nat) (pl : List Byte) (f : Option (Fin 32 × Option Nat)) (e : Bool) (m : Option Nat) (k : Option (Nat × Option Word)) : (s.sendMsg l y d q c pl f e m k).cvMarks = s.cvMarks := (s.sendMsg_told ..).posted.cvMarks
@[simp] theorem State.sendMsg_mail (s : State) (l : Cls) (y d q c : Nat) (pl : List Byte) (f : Option (Fin 32 × Option Nat)) (e : Bool) (m : Option Nat) (k : Option (Nat × Option Word)) : (s.sendMsg l y d q c pl f e m k).mail = s.mail := (s.sendMsg_told ..).posted.mail
@[simp] theorem State.sendMsg_mem (s : State) (l : Cls) (y d q c : Nat) (pl : List Byte) (f : Option (Fin 32 × Option Nat)) (e : Bool) (m : Option Nat) (k : Option (Nat × Option Word)) : (s.sendMsg l y d q c pl f e m k).mem = s.mem := (s.sendMsg_told ..).posted.mem
@[simp] theorem State.sendMsg_linkLost (s : State) (l : Cls) (y d q c : Nat) (pl : List Byte) (f : Option (Fin 32 × Option Nat)) (e : Bool) (m : Option Nat) (k : Option (Nat × Option Word)) : (s.sendMsg l y d q c pl f e m k).linkLost = s.linkLost := (s.sendMsg_told ..).posted.linkLost
@[simp] theorem State.sendMsg_s5Held (s : State) (l : Cls) (y d q c : Nat) (pl : List Byte) (f : Option (Fin 32 × Option Nat)) (e : Bool) (m : Option Nat) (k : Option (Nat × Option Word)) : (s.sendMsg l y d q c pl f e m k).s5Held = s.s5Held := (s.sendMsg_told ..).posted.s5Held
@[simp] theorem State.sendMsg_rest (s : State) (l : Cls) (y d q c : Nat) (pl : List Byte) (f : Option (Fin 32 × Option Nat)) (e : Bool) (m : Option Nat) (k : Option (Nat × Option Word)) : (s.sendMsg l y d q c pl f e m k).rest = s.rest := (s.sendMsg_told ..).posted.rest
@[simp] theorem State.sendMsg_promLost (s : State) (l : Cls) (y d q c : Nat) (pl : List Byte) (f : Option (Fin 32 × Option Nat)) (e : Bool) (m : Option Nat) (k : Option (Nat × Option Word)) : (s.sendMsg l y d q c pl f e m k).promLost = s.promLost := (s.sendMsg_told ..).posted.promLost
@[simp] theorem State.sendMsg_pending (s : State) (l : Cls) (y d q c : Nat) (pl : List Byte) (f : Option (Fin 32 × Option Nat)) (e : Bool) (m : Option Nat) (k : Option (Nat × Option Word)) : (s.sendMsg l y d q c pl f e m k).pending = s.pending := (s.sendMsg_told ..).posted.pending
@[simp] theorem State.sendMsg_outs (s : State) (l : Cls) (y d q c : Nat) (pl : List Byte) (f : Option (Fin 32 × Option Nat)) (e : Bool) (m : Option Nat) (k : Option (Nat × Option Word)) : (s.sendMsg l y d q c pl f e m k).outs = s.outs := (s.sendMsg_told ..).outs
@[simp] theorem State.twAdd_pw (s : State) (e : TwEnt) (b : Bool) : (s.twAdd e b).pw = s.pw := (s.twAdd_told ..).posted.pw
@[simp] theorem State.twAdd_clk (s : State) (e : TwEnt) (b : Bool) : (s.twAdd e b).clk = s.clk := (s.twAdd_told ..).posted.clk
@[simp] theorem State.twAdd_fr (s : State) (e : TwEnt) (b : Bool) : (s.twAdd e b).fr = s.fr := (s.twAdd_told ..).posted.fr
@[simp] theorem State.twAdd_pump (s : State) (e : TwEnt) (b : Bool) : (s.twAdd e b).pump = s.pump := (s.twAdd_told ..).posted.pump
@[simp] theorem State.twAdd_settings (s : State) (e : TwEnt) (b : Bool) : (s.twAdd e b).settings = s.settings := (s.twAdd_told ..).posted.settings
@[simp] theorem State.twAdd_staged (s : State) (e : TwEnt) (b : Bool) : (s.twAdd e b).staged = s.staged := (s.twAdd_told ..).posted.staged
@[simp] theorem State.twAdd_ch (s : State) (e : TwEnt) (b : Bool) : (s.twAdd e b).ch = s.ch := (s.twAdd_told ..).posted.ch
@[simp] theorem State.twAdd_adm (s : State) (e : TwEnt) (b : Bool) : (s.twAdd e b).adm = s.adm := (s.twAdd_told ..).posted.adm
@[simp] theorem State.twAdd_grp (s : State) (e : TwEnt) (b : Bool) : (s.twAdd e b).grp = s.grp := (s.twAdd_told ..).posted.grp
@[simp] theorem State.twAdd_g4 (s : State) (e : TwEnt) (b : Bool) : (s.twAdd e b).g4 = s.g4 := (s.twAdd_told ..).posted.g4
@[simp] theorem State.twAdd_g4Ok (s : State) (e : TwEnt) (b : Bool) : (s.twAdd e b).g4Ok = s.g4Ok := (s.twAdd_told ..).posted.g4Ok
@[simp] theorem State.twAdd_hk (s : State) (e : TwEnt) (b : Bool) : (s.twAdd e b).hk = s.hk := (s.twAdd_told ..).posted.hk
@[simp] theorem State.twAdd_cv (s : State) (e : TwEnt) (b : Bool) : (s.twAdd e b).cv = s.cv := (s.twAdd_told ..).posted.cv
@[simp] theorem State.twAdd_aux (s : State) (e : TwEnt) (b : Bool) : (s.twAdd e b).aux = s.aux := (s.twAdd_told ..).posted.aux
@[simp] theorem State.twAdd_inj (s : State) (e : TwEnt) (b : Bool) : (s.twAdd e b).inj = s.inj := (s.twAdd_told ..).posted.inj
@[simp] theorem State.twAdd_zone (s : State) (e : TwEnt) (b : Bool) : (s.twAdd e b).zone = s.zone := (s.twAdd_told ..).posted.zone
@[simp] theorem State.twAdd_bat (s : State) (e : TwEnt) (b : Bool) : (s.twAdd e b).bat = s.bat := (s.twAdd_told ..).posted.bat
@[simp] theorem State.twAdd_winBase (s : State) (e : TwEnt) (b : Bool) : (s.twAdd e b).winBase = s.winBase := (s.twAdd_told ..).posted.winBase
@[simp] theorem State.twAdd_owners (s : State) (e : TwEnt) (b : Bool) : (s.twAdd e b).owners = s.owners := (s.twAdd_told ..).posted.owners
@[simp] theorem State.twAdd_resOwner (s : State) (e : TwEnt) (b : Bool) : (s.twAdd e b).resOwner = s.resOwner := (s.twAdd_told ..).posted.resOwner
@[simp] theorem State.twAdd_vio (s : State) (e : TwEnt) (b : Bool) : (s.twAdd e b).vio = s.vio := (s.twAdd_told ..).posted.vio
@[simp] theorem State.twAdd_vioOver (s : State) (e : TwEnt) (b : Bool) : (s.twAdd e b).vioOver = s.vioOver := (s.twAdd_told ..).posted.vioOver
@[simp] theorem State.twAdd_hpt (s : State) (e : TwEnt) (b : Bool) : (s.twAdd e b).hpt = s.hpt := (s.twAdd_told ..).posted.hpt
@[simp] theorem State.twAdd_hptAt (s : State) (e : TwEnt) (b : Bool) : (s.twAdd e b).hptAt = s.hptAt := (s.twAdd_told ..).posted.hptAt
@[simp] theorem State.twAdd_nBeyond (s : State) (e : TwEnt) (b : Bool) : (s.twAdd e b).nBeyond = s.nBeyond := (s.twAdd_told ..).posted.nBeyond
@[simp] theorem State.twAdd_ccount (s : State) (e : TwEnt) (b : Bool) : (s.twAdd e b).ccount = s.ccount := (s.twAdd_told ..).posted.ccount
@[simp] theorem State.twAdd_ccountFirn (s : State) (e : TwEnt) (b : Bool) : (s.twAdd e b).ccountFirn = s.ccountFirn := (s.twAdd_told ..).posted.ccountFirn
@[simp] theorem State.twAdd_hinge (s : State) (e : TwEnt) (b : Bool) : (s.twAdd e b).hinge = s.hinge := (s.twAdd_told ..).posted.hinge
@[simp] theorem State.twAdd_tmb (s : State) (e : TwEnt) (b : Bool) : (s.twAdd e b).tmb = s.tmb := (s.twAdd_told ..).posted.tmb
@[simp] theorem State.twAdd_krg (s : State) (e : TwEnt) (b : Bool) : (s.twAdd e b).krg = s.krg := (s.twAdd_told ..).posted.krg
@[simp] theorem State.twAdd_th (s : State) (e : TwEnt) (b : Bool) : (s.twAdd e b).th = s.th := (s.twAdd_told ..).posted.th
@[simp] theorem State.twAdd_pd (s : State) (e : TwEnt) (b : Bool) : (s.twAdd e b).pd = s.pd := (s.twAdd_told ..).posted.pd
@[simp] theorem State.twAdd_upd (s : State) (e : TwEnt) (b : Bool) : (s.twAdd e b).upd = s.upd := (s.twAdd_told ..).posted.upd
@[simp] theorem State.twAdd_otp (s : State) (e : TwEnt) (b : Bool) : (s.twAdd e b).otp = s.otp := (s.twAdd_told ..).posted.otp
@[simp] theorem State.twAdd_spi (s : State) (e : TwEnt) (b : Bool) : (s.twAdd e b).spi = s.spi := (s.twAdd_told ..).posted.spi
@[simp] theorem State.twAdd_cap (s : State) (e : TwEnt) (b : Bool) : (s.twAdd e b).cap = s.cap := (s.twAdd_told ..).posted.cap
@[simp] theorem State.twAdd_snap0 (s : State) (e : TwEnt) (b : Bool) : (s.twAdd e b).snap0 = s.snap0 := (s.twAdd_told ..).posted.snap0
@[simp] theorem State.twAdd_snap1 (s : State) (e : TwEnt) (b : Bool) : (s.twAdd e b).snap1 = s.snap1 := (s.twAdd_told ..).posted.snap1
@[simp] theorem State.twAdd_snapSrc (s : State) (e : TwEnt) (b : Bool) : (s.twAdd e b).snapSrc = s.snapSrc := (s.twAdd_told ..).posted.snapSrc
@[simp] theorem State.twAdd_wmTrip (s : State) (e : TwEnt) (b : Bool) : (s.twAdd e b).wmTrip = s.wmTrip := (s.twAdd_told ..).posted.wmTrip
@[simp] theorem State.twAdd_wmRecDone (s : State) (e : TwEnt) (b : Bool) : (s.twAdd e b).wmRecDone = s.wmRecDone := (s.twAdd_told ..).posted.wmRecDone
@[simp] theorem State.twAdd_acoh (s : State) (e : TwEnt) (b : Bool) : (s.twAdd e b).acoh = s.acoh := (s.twAdd_told ..).posted.acoh
@[simp] theorem State.twAdd_cvMarks (s : State) (e : TwEnt) (b : Bool) : (s.twAdd e b).cvMarks = s.cvMarks := (s.twAdd_told ..).posted.cvMarks
@[simp] theorem State.twAdd_mail (s : State) (e : TwEnt) (b : Bool) : (s.twAdd e b).mail = s.mail := (s.twAdd_told ..).posted.mail
@[simp] theorem State.twAdd_mem (s : State) (e : TwEnt) (b : Bool) : (s.twAdd e b).mem = s.mem := (s.twAdd_told ..).posted.mem
@[simp] theorem State.twAdd_linkLost (s : State) (e : TwEnt) (b : Bool) : (s.twAdd e b).linkLost = s.linkLost := (s.twAdd_told ..).posted.linkLost
@[simp] theorem State.twAdd_s5Held (s : State) (e : TwEnt) (b : Bool) : (s.twAdd e b).s5Held = s.s5Held := (s.twAdd_told ..).posted.s5Held
@[simp] theorem State.twAdd_rest (s : State) (e : TwEnt) (b : Bool) : (s.twAdd e b).rest = s.rest := (s.twAdd_told ..).posted.rest
@[simp] theorem State.twAdd_promLost (s : State) (e : TwEnt) (b : Bool) : (s.twAdd e b).promLost = s.promLost := (s.twAdd_told ..).posted.promLost
@[simp] theorem State.twAdd_pending (s : State) (e : TwEnt) (b : Bool) : (s.twAdd e b).pending = s.pending := (s.twAdd_told ..).posted.pending
@[simp] theorem State.twAdd_outs (s : State) (e : TwEnt) (b : Bool) : (s.twAdd e b).outs = s.outs := (s.twAdd_told ..).outs

end Sys2Proof.Machine
end

