-- ==== Sys2Proof/Tests/Slice0.lean ====
section
/-! SUPPORT. Tests: a smoke test of well-formedness with an ill-formed term for each check, worked values of the spec, and for every
statement with hypotheses a state and operands that meet them (witness_<name of the statement>). -/

namespace Sys2Proof.Tests

open Sys2Proof Sys2Proof.Machine Sys2Proof.Stated

-- One test after another: each evaluates its states in the kernel, and side by side they reserve too much memory.
set_option Elab.async false

/-! ### Small states and descriptors -/

/-- A block in RUN at Frame 1,000 with every Queue of a path in RUN. -/
def runS : State := { State.reset with
  pw := { State.reset.pw with mode := .run, logic := .running, step := 17, admOpen := true, starts := 1 }
  fr := { State.reset.fr with running := true, count := 1000 }
  qs := State.reset.qs.map fun k => { k with st := if k.path == .none then .disabled else .run, phase := true }
  pump := { State.reset.pump with bank := Vector.replicate 4 .good }
  cv := { State.reset.cv with mode := .buck, gen := { State.reset.cv.gen with target := 12 } }
  hinge := { State.reset.hinge with st := .solo } }

/-- A descriptor with its PARAM given as (byte, length, value). -/
def args (target : Nat) (ps : List (Nat × Nat × Nat)) : CmdArgs :=
  { flags := 0, tag := 7, target := BitVec.ofNat 16 target, rsv := 0, doff := 0, dlen := 0
    param := (List.range 48).map fun k => BitVec.ofNat 8
      (ps.map fun p => if p.1 ≤ k + 16 ∧ k + 16 < p.1 + p.2.1 then p.2.2 / 256 ^ (k + 16 - p.1) else 0).sum }

/-- A record of Table 12.4 as a number. -/
def rec1 (ord code val : Nat) : Nat := ord + code * 256 + val * 2 ^ 32

/-- A descriptor with one inline record. -/
def cfg1 (target ord code val : Nat) : CmdArgs := args target [(16, 2, 1), (24, 8, rec1 ord code val)]

/-- A descriptor with an area of n bytes. -/
def withArea (d : CmdArgs) (n : Nat) : CmdArgs := { d with flags := 1, dlen := BitVec.ofNat 16 n }

/-- Whether a command of the host is executed at once and no check turns it away. -/
def ok (x : Instr × State) : Bool :=
  match rowOf x.1 with
  | some (op, q, d) =>
    x.2.takeable q && !x.2.fenced q && (x.2.qs[q]).waiting.isEmpty &&
      (match opRow op with
        | some r => (allChecks x.1 r x.2 q op d).all fun p => !p.2
        | none => false)
  | none => false

/-- The commands of a list are accepted in their states. -/
def Accepts (l : List (Instr × State)) : Prop := ∀ x ∈ l, ∃ op q d, rowOf x.1 = some (op, q, d) ∧ Accepted x.1 x.2 q op d

theorem accepts_nil : Accepts [] := by
  intro x hx
  cases hx

theorem accepts_cons {x : Instr × State} {l : List (Instr × State)} (h1 : ok x = true) (h : Accepts l) : Accepts (x :: l) := by
  intro y hy
  rcases List.mem_cons.mp hy with rfl | hy
  · unfold ok at h1
    split at h1
    · rename_i op q d hr
      simp only [Bool.and_eq_true, Bool.not_eq_true', List.isEmpty_iff] at h1
      obtain ⟨⟨⟨a, b⟩, c⟩, e⟩ := h1
      split at e
      · rename_i r hq
        refine ⟨op, q, d, hr, ⟨a, b, c⟩, r, hq, fun p hp => ?_⟩
        simpa using List.all_eq_true.mp e p hp
      · cases e
    · cases h1
  · exact h y hy

def updS : State := { runS with upd := { runS.upd with
  slotA := { runS.upd.slotA with st := .active }, slotB := { runS.upd.slotB with st := .receiving }, size := 2048 } }
def valS : State := { runS with upd := { runS.upd with slotB := { runS.upd.slotB with st := .valid } } }
def pairS : State := { runS with hinge := { runS.hinge with
  hen := true, st := .active, driving := true, linkUp := true, partner := 2, partnerFlags := 8 } }
def capS (st : Nat) : State := { runS with cap := runS.cap.map fun c => { c with st := st, configured := true } }
def chS (n : Fin 64) (st : ChState) : State := runS.updCh n fun c => { c with st := st }
def pdS (st : PdState) : State := { runS with pd := runS.pd.map fun p => { p with st := st } }
/-- A block in its start, at a step, with the logic die running. -/
def startS (step : Nat) : State := { runS with pw := { runS.pw with mode := .start, step := step, admOpen := false } }
def offS : State := State.reset
def frOff (s : State) : State := { s with fr := { s.fr with running := false } }
def withPw (s : State) (f : Power → Power) : State := { s with pw := f s.pw }

/-! ### Well-formedness -/

def okArgs : CmdArgs := args 3 []
def msg0 : NetMsg := { (default : NetMsg) with encap := .raw, etherType := 0x88B5, pn := 1, bytes := List.replicate 16 0 }
def frame0 : LinkFrame := { (default : LinkFrame) with crcOk := true }

/-- Each check of Instr.wf refuses a term that breaks it alone. -/
theorem test_wf_refuses_ill_formed :
    Instr.wf (.chOn 4 { okArgs with param := [] }) = false ∧
    Instr.wf (.frameTick { (default : FrameIn) with s2Cycles := 2001 }) = false ∧
    Instr.wf (.frameTick { (default : FrameIn) with s3Cycles := 2001 }) = false ∧
    Instr.wf (.frameTick { (default : FrameIn) with late := [(0, 1, 2), (0, 1, 2)] }) = false ∧
    Instr.wf (.spiFrame (List.replicate 132 0) false) = false ∧
    Instr.wf (.commandMessage { msg0 with bytes := List.replicate 1105 0 }) = false ∧
    Instr.wf (.heartbeat { frame0 with state := 6 }) = false ∧
    Instr.wf (.heartbeat { frame0 with recs := [.chan 0 7 0 0 false false 0 0] }) = false ∧
    Instr.wf (.heartbeat { frame0 with recs := [.chan 0 0 18 0 false false 0 0] }) = false ∧
    Instr.wf (.heartbeat { frame0 with recs := [.conv 3 0 0 0 0] }) = false ∧
    Instr.wf (.tw1BlockWrite 0 256 [] none) = false ∧
    Instr.wf (.tw1BlockWrite 0 64 (List.replicate 256 0) none) = false ∧
    Instr.wf (.request 0 ⟨0, 0, 0⟩) = false ∧ Instr.wf (.request 0 ⟨8, 0, 0⟩) = false ∧
    Instr.wf (.periodBoundary { (default : PeriodIn) with margin := (default : PeriodIn).margin.set 0 (Vector.replicate 5 2501) }) = false ∧
    Instr.wf (.keyringSeal 65536) = false ∧ Instr.wf (.ceRelease (2 ^ 64)) = false := by
  decide +kernel

theorem test_wf_accepts_well_formed :
    Instr.wf (.chOn 4 okArgs) = true ∧ Instr.wf (.frameTick default) = true ∧ Instr.wf (.commandMessage msg0) = true ∧
    Instr.wf (.heartbeat frame0) = true ∧ Instr.wf (.request 0 ⟨1, 0, 0⟩) = true := by
  decide +kernel

/-! ### Hypotheses of the statements: the whole block and the Queues -/

theorem witness_queue_memory : memWf [(0x40000000, 1#8), (0x40000001, 2#8)] = true ∧
    (memWriteL [] 5 [1#8, 0#8, 3#8]) = [(5, 1#8), (7, 3#8)] := by decide +kernel

theorem witness_EveryStepKeepsQueueMemoryCanonical :
    memWf runS.qmem = true ∧ ∃ t, step { runS with pending := [.flashWriteDone] } = .next t := ⟨by decide +kernel, _, rfl⟩

theorem witness_DescriptorBytesDecodeToTheDescriptor : okArgs.wf = true := by decide +kernel

theorem witness_AppliedFieldReadsTheNewValue :
    (let k : FKey := ⟨0x43, 3, 1, 0⟩
     k.code < 0x100 ∧ ¬(k.code = 0x52 ∧ k.ord = 12) ∧ ¬(k.code = 0x52 ∧ k.ord = 10)) ∧
    (let k : FKey := ⟨0x52, 3, 10, 0⟩
     k.code < 0x100 ∧ ¬(k.code = 0x52 ∧ k.ord = 12) ∧ k.code = 0x52 ∧ k.ord = 10) := by decide +kernel

theorem witness_WrittenDescriptorIsTakenAsItself :
    let s := { runS with qs := runS.qs.map fun (k : Queue) => { k with vis := [default] } }
    memWf s.qmem = true ∧ okArgs.wf = true ∧ okArgs.flags.getLsbD 0 = false ∧ (s.qs[(4 : Fin 32)]).vis = default :: [] ∧
      s.takeable 4 = true := by decide +kernel

/-- The status that the checks give, where the Queue takes the command at once. -/
def statusOf (c : Instr) (s : State) : Option Nat :=
  match rowOf c with
  | some (op, q, d) =>
    if s.takeable q && !s.fenced q && (s.qs[q]).waiting.isEmpty then
      (match opRow op with | some r => firstStatus (allChecks c r s q op d) | none => none)
    else none
  | none => none

theorem witness_RefusedCommandHasNoEffect :
    statusOf (.chOn 4 { okArgs with rsv := 1 }) runS = some 0x22 ∧ statusOf (.capArm 4 (args 0x180 [])) runS = some 0x21 ∧
    statusOf (.cvSet 15 (args 0x110 [(16, 1, 2)])) runS = some 0x22 ∧
    statusOf (.chOn 15 okArgs) (withPw runS fun p => { p with pfw := true }) = some 0x41 ∧
    statusOf (.chOn 4 okArgs) { runS with hinge := { runS.hinge with hen := true, st := .standby } } = some 0x40 := by decide +kernel

/-- A reserved field, an area beyond the window, an offset without DATA, CRED without DATA, a reserved FLAGS bit, a reserved PARAM
byte: each alone. -/
theorem witness_BadDescriptorCompletesWithBadParam :
    ([{ okArgs with rsv := 1 }, { okArgs with flags := 4 }, { okArgs with flags := 1, doff := 511, dlen := 17 },
      { okArgs with doff := 1 }, { okArgs with dlen := 1 }, { okArgs with flags := 2 }, args 3 [(63, 1, 1)]].all
      fun d => statusOf (.chOn 4 d) runS == some 0x22) = true ∧
    statusOf (.chOn 4 { okArgs with flags := 1, doff := 511, dlen := 16 }) runS = none := by decide +kernel

theorem witness_ClassAOffWithoutCredentialIsRefused :
    let s := runS.updCh 3 fun c => { c with st := .on, tmb := { c.tmb with classA := true } }
    statusOf (.chOff 4 okArgs) s = some 0x10 ∧ (s.ch[(3 : Fin 64)]).tmb.classA = true ∧ driven (s.ch[(3 : Fin 64)]).st = true ∧
    (entered s 4 0x0102 okArgs).credOk (taken s 4 0x0102 okArgs) = false := by decide +kernel

theorem witness_CommandsNotTakenOrFencedAreNotExecuted :
    let t := taken runS 4 0x0701 (args 0xFFFF [(16, 4, 1)])
    let s := { runS with outs := [⟨t, 0, .fence [(0, 0)] 1000⟩] }
    s.takeable 4 = true ∧ s.fenced 4 = true ∧ s.fenced 5 = false ∧
    (let full := runS.updQ 4 fun k => { k with nTaken := k.depth }
     (full.qs[(4 : Fin 32)]).held + (full.qs[(4 : Fin 32)]).nTaken + 1 ≥ (full.qs[(4 : Fin 32)]).depth) ∧
    (offS.qs[(4 : Fin 32)]).st ≠ .run := by decide +kernel

theorem witness_CompletionsAreWrittenInOrderAtCqtail :
    let t := taken runS 15 0x0101 okArgs
    let u : Taken := { t with vis := { t.vis with id := t.vis.id + 1 } }
    let held : State := { runS with outs := [⟨t, 0, .tick 0 []⟩] }
    memWf runS.qmem = true ∧ t.dead = false ∧ (runS.qs[(15 : Fin 32)]).st = .run ∧
    (runS.qs[(15 : Fin 32)]).disabling = false ∧ (runS.qs[(15 : Fin 32)]).path = .spi ∧ runS.upd.recovery = false ∧
    runS.promised t = false ∧ (runS.qs[(15 : Fin 32)]).cqTail < (runS.qs[(15 : Fin 32)]).depth ∧
    runS.behind t = false ∧ runS.outs = [] ∧ held.behind u = true ∧ t.vis.id < u.vis.id := by
  and_intros <;> decide +kernel

theorem witness_PowerInv : PowerInv runS ∧ PowerInv State.reset := by
  unfold PowerInv
  decide +kernel

/-! ### Accepted commands -/

theorem witness_ConfigurationCommandsStageTheirRecords : Accepts [
    (.chCfg 15 (cfg1 3 8 0x43 1), runS), (.cvCfg 15 (cfg1 0x100 8 0x73 20), runS), (.auxCfg 15 (cfg1 0x110 6 0x78 90), runS),
    (.lawCfg 15 (cfg1 0x100 16 0x83 0), runS), (.capSet 15 (cfg1 0x130 3 0x97 2), runS), (.huCfg 15 (cfg1 0x130 7 0x91 300), runS),
    (.stagCfg 15 (cfg1 0x130 0 0x27 2), runS), (.batCfg 15 (cfg1 0x130 8 0xA1 20), runS),
    (.hingeCfg 15 (cfg1 0xFFFF 4 0xF1 0), runS), (.pdCfg 15 (cfg1 0x120 1 0xF9 45), runS)] :=
  (by repeat' first | exact accepts_nil | refine accepts_cons (by decide +kernel) ?_)

theorem witness_OwnerQueueAndSenseCommandsStageTheirWrites : Accepts [
    (.ownerMap 15 (args 0xFFFF [(16, 2, 5), (18, 1, 1)]), runS), (.qCfg 15 (args 0x17F [(17, 1, 1), (18, 1, 3)]), runS),
    (.qCtlDisable 15 (args 0x168 []), runS), (.qCtlEnable 15 (args 0x168 []), runS), (.qCtlRestart 15 (args 0x168 []), runS),
    (.vioClear 15 (args 0xFFFF []), runS), (.wakeCfg 15 (args 0xFFFF [(16, 2, 10)]), runS),
    (.ownerRes 15 (args 3 [(16, 1, 1)]), runS), (.snsMask 15 (args 0x150 []), runS), (.snsGain 15 (args 0x150 []), runS),
    (.snsFilter 15 (args 0x150 []), runS), (.snsInj 15 (args 0x150 [(16, 2, 1)]), runS), (.snsZone 15 (args 0xFFFF []), runS)] :=
  (by repeat' first | exact accepts_nil | refine accepts_cons (by decide +kernel) ?_)

theorem witness_CaptureCommandsAct : Accepts [
    (.capCfg 15 (args 0x180 [(20, 2, 1)]), runS), (.capArm 25 (args 0x180 []), capS 0), (.capTrig 15 (args 0x180 []), runS),
    (.capRelease 15 (args 0x180 []), runS), (.capRead 25 (withArea (args 0x180 []) 64), capS 3),
    (.capNetStart 25 (args 0x180 [(16, 1, 1), (18, 2, 9)]),
      { capS 3 with net := { runS.net with nodes := [{ (default : Node) with node := 9, link := .t1 }] } }),
    (.capNetStop 25 (args 0x180 []), runS)] :=
  (by repeat' first | exact accepts_nil | refine accepts_cons (by decide +kernel) ?_)

def readCmds (s : State) : List (Instr × State) := [(.chRead 15 (args 3 []), s), (.cvRead 15 (args 0x100 []), s), (.zoneRead 15 (args 0x130 []), s),
  (.batRead 15 (args 0x130 []), s), (.snsRead 15 (args 0x150 []), s), (.idRead 15 (withArea (args 0xFFFF []) 256), s),
  (.hingeRead 15 (args 0xFFFF []), s), (.pdRead 15 (args 0x120 []), s), (.updRead 15 (args 0xFFFF []), s), (.injRead 15 (withArea (args 0x100 []) 64), s),
  (.ceStat 15 (args 0xFFFF []), s), (.iceRead 15 (withArea (args 0xFFFF [(20, 2, 1)]) 32), s)]

/-- Without a FENCE before it, and after one whose next latch is still to come. -/
theorem witness_ReadsCompleteWithTheirData :
    Accepts (readCmds runS) ∧ (runS.qs[(15 : Fin 32)]).fenceAt = none ∧
    (let s := runS.updQ 15 fun k => { k with fenceAt := some 1000 }
     Accepts (readCmds s) ∧ (s.qs[(15 : Fin 32)]).fenceAt = some 1000 ∧ s.fr.count < 1000 + 1) :=
  ⟨(by repeat' first | exact accepts_nil | refine accepts_cons (by decide +kernel) ?_), by decide +kernel, (by repeat' first | exact accepts_nil | refine accepts_cons (by decide +kernel) ?_), by decide +kernel⟩

/-- A Channel whose CH_OFF, executed before, waits for its tick. -/
def offPendS : State := { chS 3 .on with outs := [⟨taken (chS 3 .on) 4 0x0102 okArgs, 0, .chOff 3⟩] }

theorem witness_ChannelCommandsAct : Accepts [
    (.chOn 4 okArgs, chS 3 .on), (.chOn 4 okArgs, chS 3 .ramp), (.chOn 4 okArgs, runS), (.chOn 4 okArgs, offPendS),
    (.chOff 4 okArgs, runS), (.chOff 4 (withArea okArgs 160), chS 3 .on),
    (.chClear 4 okArgs, runS), (.chClear 4 okArgs, chS 3 .tripped)] ∧
    ((chS 3 .on).stAfter 3 = .on ∧ (chS 3 .ramp).stAfter 3 = .ramp ∧ runS.stAfter 3 = .off ∧ offPendS.stAfter 3 = .off ∧
      offPendS.outs = [] ++ [⟨taken (chS 3 .on) 4 0x0102 okArgs, 0, .chOff 3⟩] ∧ (offPendS.ch[(3 : Fin 64)]).st = .on) :=
  ⟨(by repeat' first | exact accepts_nil | refine accepts_cons (by decide +kernel) ?_), by and_intros <;> decide +kernel⟩

theorem witness_DeferredCommandsWait : Accepts [
    (.cvSet 15 (args 0x110 [(18, 2, 1200)]), runS), (.huTest 15 (args 0x130 [(16, 2, 5)]), runS),
    (.shedOrder 15 (args 0x130 [(16, 2, 1)]), runS), (.dormant 15 (args 0xFFFF []), runS), (.reset 15 (args 0xFFFF []), runS),
    (.hingeHandover 15 (args 0xFFFF []), pairS), (.hingeResync 15 (args 0xFFFF []), pairS),
    (.hingeCounterClear 15 (args 0xFFFF []), runS), (.pdReadvertise 15 (args 0x120 []), runS),
    (.pdHardReset 15 (args 0x120 []), pdS .contract), (.pdMoistureTestNow 15 (args 0x120 []), pdS .unattached),
    (.pdClearFault 15 (args 0x120 []), runS), (.pdClearCorrosion 15 (args 0x120 []), runS)] :=
  (by repeat' first | exact accepts_nil | refine accepts_cons (by decide +kernel) ?_)

/-- A FENCE with no scoped Queue, one that waits, and one that is ready to complete. -/
theorem witness_FenceWaitsAndCompletes :
    Accepts [(.fence 4 (args 0xFFFF []), runS), (.fence 4 (args 0xFFFF [(16, 4, 1)]), runS)] ∧
    (args 0xFFFF [(16, 4, 1)]).param.head? = some 1 ∧ (runS.qs[(0 : Fin 32)]).st = .run ∧ runS.fenceReady 4 = none ∧
    (State.fenceReady { runS with outs := [⟨taken runS 4 0x0701 (args 0xFFFF [(16, 4, 1)]), 0, .fence [] 900⟩] } 4).isSome = true :=
  ⟨(by repeat' first | exact accepts_nil | refine accepts_cons (by decide +kernel) ?_), by decide +kernel, by decide +kernel, by decide +kernel, by decide +kernel⟩

theorem witness_InjectionAndRecordCommandsAct :
    Accepts [(.injStart 15 (args 0x100 [(16, 2, 3), (24, 8, rec1 3 0x87 0x3DCCCCCD), (32, 8, rec1 4 0x87 171799),
        (40, 8, rec1 5 0x87 1717990)]), runS), (.injStop 15 (args 0x100 []), runS),
      (.injStart 15 (args 0x100 [(16, 2, 4), (24, 8, rec1 3 0x87 0x3DCCCCCD), (32, 8, rec1 4 0x87 171799),
        (40, 8, rec1 5 0x87 1717990), (48, 8, rec1 11 0x87 5000)]), runS),
      (.iceFlush 15 (args 0xFFFF []), runS), (.iceClear 15 (withArea (args 0xFFFF []) 160), runS)] ∧
    (let s := { runS with inj := { runS.inj with status := 1, res := 0x100 } }
     Accepts [(.injStop 15 (args 0x100 []), s)] ∧ s.inj.status = 1 ∧ s.inj.ending = none) ∧
    runS.inj.status ≠ 1 :=
  ⟨(by repeat' first | exact accepts_nil | refine accepts_cons (by decide +kernel) ?_),
    ⟨(by repeat' first | exact accepts_nil | refine accepts_cons (by decide +kernel) ?_), by decide +kernel⟩, by decide +kernel⟩

theorem witness_UpdateCommandsAndEventsAct :
    Accepts [(.updBegin 15 (args 0xFFFF [(16, 1, 1), (20, 4, 2048)]), valS), (.updData 15 (withArea (args 0xFFFF []) 64), updS),
      (.updData 15 (withArea (args 0xFFFF []) 1024), updS), (.updEnd 15 (args 0xFFFF []), updS),
      (.updActivate 15 (args 0xFFFF []), valS), (.updActivate 15 (args 0xFFFF [(16, 1, 1)]), valS)] ∧
    updS.receiver = some true ∧ imgTotal (List.replicate 1024 0#8) ≠ updS.upd.size ∧
    (let s := { runS with upd := { runS.upd with verifying := some (true, taken runS 15 0x0A03 (args 0xFFFF [])) } }
     s.upd.verifying.isSome = true ∧ (s.upd.slot true).image.length = imgTotal (s.upd.slot true).image ∧
     s.imgReason (s.upd.slot true).image ≠ 0 ∧ [1#8].length ≠ imgTotal [1#8] ∧ runS.upd.verifying = none) ∧
    (let s := { runS with upd := { runS.upd with slotA := { runS.upd.slotA with st := .trial }, trialPeriods := 1000 } }
     s.live = true ∧ s.pw.mode = .run ∧ (s.upd.slot s.upd.booted).st = .trial ∧ s.pw.pfw = false ∧
      (withPw s fun p => { p with pfw := true }).live = true) :=
  ⟨(by repeat' first | exact accepts_nil | refine accepts_cons (by decide +kernel) ?_), by decide +kernel, by decide +kernel, by decide +kernel, by decide +kernel⟩

/-- An image of 1,024 bytes with the five sections that an image has, each empty, and its key index 0. -/
def image0 : List Byte :=
  let sect (t : Nat) : List Byte := le 4 t ++ le 4 1024 ++ List.replicate 40 0
  le 4 0x56425A31 ++ le 2 1 ++ le 2 0 ++ le 4 7 ++ le 4 1024 ++ le 4 0 ++ [0#8, 5#8] ++ le 2 0 ++ List.replicate 104 0 ++
    [1, 2, 3, 4, 5].flatMap sect ++ List.replicate 656 0

/-- Its layout passes; with a key, a signature and tags that verify, it is an image that boots and that UPD_END finds VALID. Which bytes
verify is not a value of the spec. -/
theorem witness_image_verifies (h1 : Config.sha384 ((image0.drop 512).take 96) = Config.pkh0)
    (h2 : Config.ecdsaVerifies ((image0.drop 512).take 96) (image0.take 608) ((image0.drop 608).take 96) = true)
    (h3 : ∀ b, Config.gcmVerifies b = true) : runS.imgReason image0 = 0 ∧ image0.length = imgTotal image0 := by
  have a : hdrOk image0 = true := by decide +kernel
  have b : layoutOk image0 = true := by decide +kernel
  have c : runS.otp.keyHash (imgKidx image0) = some Config.pkh0 := rfl
  have d : (imgSvn image0 < runS.otp.svnc) = False := by simp only [eq_iff_iff, iff_false]; decide +kernel
  have e : getLe image0 24 8 = 0 := by decide +kernel
  have f : image0.length = imgTotal image0 := by decide +kernel
  refine ⟨?_, f⟩
  unfold State.imgReason State.hdrReason
  simp [a, b, c, d, e, f, h1, h2, h3]

/-! ### Events: supply, reset, clocks, start -/

theorem witness_SupplyCommandsActOnTheStart :
    (offS.pw.mode = .off ∧ offS.pw.resetNLow = false) ∧ (runS.pw.mode = .run ∧ runS.pw.logic ≠ .off) ∧
    (let s := withPw (frOff (startS 2)) fun p => { p with logic := .off }
     s.pw.mode = .start ∧ s.pw.logic = .off ∧ s.pw.step = 2) := by decide +kernel

theorem witness_ResetSourcesRestartTheLogicDie :
    (runS.pw.mode = .run ∧ runS.pw.logic = .running ∧ runS.krg.st ≠ .safe ∧ 4 ≤ runS.pw.step ∧ runS.clk.relocking = false) ∧
    (let s := withPw (frOff (startS 3)) fun p => { p with logic := .inReset, resetNLow := true }
     s.pw.mode = .start ∧ s.pw.logic = .inReset ∧ s.krg.st ≠ .safe ∧ (s.updKrg fun k => { k with st := .safe }).krg.st = .safe) ∧
    (let s := withPw runS fun p => { p with resetDue := some 900 }
     s.pw.resetDue = some 900 ∧ 900 ≤ s.fr.count) := by decide +kernel

theorem witness_LogicResetMovesEachChannelByTable210 :
    runS.hinge.hen = false ∧ ([.on, .ramp, .tripped, .lockout, .fetFault, .off, .held].all fun st =>
      ((chS 3 st).ch[(3 : Fin 64)]).st == st) = true ∧ (chS 3 .on).holds 3 = false ∧
    ((chS 3 .on).updCh 3 fun c => { c with tmb := { c.tmb with classA := true } }).holds 3 = true ∧
    (∀ m : Fin 64, (runS.ch[m]).cmpTrip = true → (runS.ch[m]).st = .tripped) ∧
    (((chS 3 .on).updCh 3 fun c => { c with cmpTrip := true }).ch[(3 : Fin 64)]).cmpTrip = true := by decide +kernel

theorem witness_ShutdownIsLeftOnlyByAKeepAlivePor :
    let s := withPw (frOff runS) fun p => { p with mode := .shutdown, logic := .inReset }
    s.pw.mode = .shutdown ∧ PowerInv s := by
  unfold PowerInv
  decide +kernel

theorem witness_ClockMonitorsAct :
    (runS.live = true ∧ runS.clk.rc = false ∧ runS.clk.rcFailed = false ∧ runS.pw.logic = .running) ∧
    (let s := { runS with clk := { runS.clk with relocking := true } }
     s.clk.relocking = true ∧ s.clk.rcFailed = false) ∧ (startS 3).pw.step = 3 ∧
    (runS.ice.kept.filter fun e => keptLimited e.1).length < 16 ∧ (frOff (startS 3)).live = false ∧
    (frOff (startS 3)).pw.logic = .running ∧ (frOff (startS 3)).clk.rc = false := by decide +kernel

theorem witness_StartStepsFollowInOrder :
    (let s := frOff (startS 3); s.pw.mode = .start ∧ s.pw.logic = .running ∧ s.pw.step = 3) ∧
    ((runS.updUpd fun u => { u with slotA := { u.slotA with st := .active } }).upd.slot false).st = .active ∧
    (runS.imgReason [] ≠ 0) ∧ (startS 9).pw.mode = .start ∧ 7 ≤ (startS 9).pw.step ∧ (startS 9).pw.step ≤ 10 ∧ 50 ≤ (startS 9).fr.count ∧
    (startS 11).fr.count ≤ { (startS 11).pump with startAt := 900 }.startAt + 125 ∧ (startS 11).pump.startAt + 125 ≤ (startS 11).fr.count ∧
    (startS 11).pump.domain48[(0 : Fin 4)] = false ∧ (startS 11).pump.bank[(0 : Fin 4)] = .good ∧
    ((frOff (startS 5)).pw.step = 5 ∧ (frOff (startS 5)).upd.recovery = false ∧ (frOff (startS 5)).clk.relocking = false) ∧
    ((startS 11).pumpWait 0 = true ∧ (startS 11).pump.domain48[(0 : Fin 4)] = false ∧
      (startS 11).pump.spareFor[sideOf 0] = none ∧ (startS 14).pumpWait 3 = true) ∧
    (let s := { startS 11 with pump := { runS.pump with spareFor := Vector.replicate 2 (some 1) } }
     s.pumpWait 0 = true ∧ (s.pump.spareFor[sideOf 0]).isSome = true ∧ s.live = true ∧ s.pump.bank[(0 : Fin 4)] = .good) := by
  decide +kernel

theorem witness_PowerFailWakeAndDormantEntryAct :
    (runS.live = true ∧ runS.pw.mode ≠ .off ∧ runS.pw.pfw = false ∧ runS.krg.wakeMask.getLsbD 0 = false) ∧
    (let s := withPw (frOff runS) fun p => { p with mode := .dormant, logic := .off, pfw := true }
     let s1 := s.updKrg fun k => { k with st := .dormant, wakeLeft := 5, wakeMask := 1 }
     s1.pw.mode = .dormant ∧ s1.pw.pfw = true ∧ s1.krg.st = .dormant ∧ s1.krg.wakeLeft ≠ 0 ∧ s1.krg.wakeMask.getLsbD 0 = true) ∧
    ((withPw runS fun p => { p with dormStep := 3 }).cv.mode ≠ .idle ∧
      (withPw { runS with cv := { runS.cv with mode := .idle } } fun p => { p with dormStep := 3 }).cv.mode = .idle) ∧
    (let s := withPw runS fun p => { p with dormStep := 3 }
     runS.fr.freeze = false ∧ { s with fr := { s.fr with freeze := true } }.fr.freeze = true) ∧
    (let s := { withPw (frOff runS) fun p => { p with mode := .dormant, logic := .off } with otp := { runS.otp with tw0Addr := some 0x21 } }
     s.otp.tw0Addr.isSome = true ∧ s.live = false ∧ s.krg.wakeMask.getLsbD 2 = false ∧
     (s.updKrg fun k => { k with wakeMask := 4 }).krg.wakeMask.getLsbD 2 = true ∧ runS.otp.tw0Addr = none ∧
     { runS with otp := { runS.otp with tw0Addr := some 0x21 } }.live = true ∧ runS.pw.dormStep = 0) ∧
    ([4, 5, 6].all fun k => (withPw runS fun p => { p with dormStep := k }).live) = true ∧ runS.pw.wakeLatch = none ∧
    (∀ m : Fin 64, (runS.ch[m]).cmpTrip = true → (runS.ch[m]).st = .tripped) ∧
    (withPw runS fun p => { p with dormStep := 6, wakeLatch := some 2 }).pw.wakeLatch = some 2 := by decide +kernel

/-! ### Frames and Channels -/

theorem witness_TicksRunTheSlotsAndOverrunsFreeze :
    (runS.live = true ∧ offS.live = false ∧ runS.fr.count % 250 = 0 ∧ runS.fr.count % 25 = 0 ∧ runS.fr.overNow = false ∧
      runS.fr.overRun < 63) ∧
    (let s := (runS.updFr fun f => { f with overRun := 63 })
     s.fr.overNow = false ∧ s.fr.overRun = 63 ∧ s.fr.ceFaultAt = none) ∧
    (runS.s5Held = [] ∧ runS.staged = [] ∧ runS.outs = [] ∧ runS.rest = [] ∧
      (∀ q : Fin 32, (runS.qs[q]).vis = [] ∧ (runS.qs[q]).waiting = []) ∧ (runS.period default).live = true) ∧
    (let v := runS.newVis 4 0 0 false
     let s := { runS.updQ 4 fun k => { k with vis := [{ v with frame := 999 }] } with rest := [] }
     (∀ p : Fin 32, (s.qs[p]).waiting = []) ∧ (s.qs[(4 : Fin 32)]).cls = .a ∧
     (s.qs[(4 : Fin 32)]).vis = [{ v with frame := 999 }] ∧ s.takeable 4 = true ∧ s.fenced 4 = false ∧
     ({ s with outs := [⟨taken runS 4 0x0701 okArgs, 0, .fence [(0, 0)] 900⟩] } : State).fenced 4 = true ∧
     (∀ p : Fin 32, p ≠ 4 → (s.qs[p]).cls = .a → (s.qs[p]).vis = [])) ∧
    (runS.cv.law = .idle ∧ { runS.cv with law := .buck }.law ≠ .idle) ∧
    (let s := { runS with fr := { runS.fr with count := 1001, overNow := true, ceHalted := true } }
     s.fr.count % 250 ≠ 0 ∧ s.fr.count % 25 ≠ 0 ∧ s.fr.overNow = true ∧ s.fr.ceHalted = true ∧ s.live = true) := by decide +kernel

theorem witness_RaisedCauseMovesItsChannel :
    runS.drives = true ∧ runS.members 3 = [3] ∧ runS.leader 3 = 3 ∧
    canMove ((chS 3 .on).ch[(3 : Fin 64)]).st .fetFault .gateFail = true ∧
    canMove (runS.ch[(3 : Fin 64)]).st .tripped .comparator = false ∧ protCause .gateFail = true ∧ protCause .capShed = false ∧
    pairS.hinge.st ≠ .handing ∧ ({ pairS with hinge := { pairS.hinge with st := .handing } } : State).drives = true := by decide +kernel

theorem witness_ChannelChecksRaiseTheirCauses :
    (let s := chS 3 .ramp
     (s.ch[(3 : Fin 64)]).t0 + frames01ms * (s.ch[(3 : Fin 64)]).tmb.tInrush ≤ s.fr.count ∧
     (s.updCh 3 fun c => { c with t0 := 0 }).live = true ∧ s.clk.relocking = false) ∧
    (let s := { chS 3 .ramp with fr := { runS.fr with count := 100000 } }
     (s.ch[(3 : Fin 64)]).t0 + frames01ms * s.lf 3 Fld.TRAMP ≤ s.fr.count) ∧
    (let s := (chS 3 .on).updCh 3 fun c => { c with gateDue := some 1000, minRun := 13, tmbOff := true }
     (s.ch[(3 : Fin 64)]).gateDue = some s.fr.count ∧ (s.ch[(3 : Fin 64)]).gateMin = false ∧
     13 ≤ (s.ch[(3 : Fin 64)]).minRun ∧ (s.ch[(3 : Fin 64)]).tmbOff = true ∧
     ((s.updCh 3 fun c => { c with gateBad := true }).ch[(3 : Fin 64)]).gateBad = true) ∧
    (let s := runS.updCh 3 fun c => { c with offAt := some 900 }
     900 + 50 ≤ s.fr.count ∧ (s.ch[(3 : Fin 64)]).gateLow = false ∧
     (let s1 := s.updCh 3 fun c => { c with gateLow := true }
      (s1.ch[(3 : Fin 64)]).gateLow = true ∧ (s1.ch[(3 : Fin 64)]).vP * 5 ≤ s1.vsup 3) ∧
     (let s1 := s.updCh 3 fun c => { c with gateLow := true, vP := 12 }
      s1.vsup 3 < (s1.ch[(3 : Fin 64)]).vP * 5 ∧ s1.lf 3 Fld.HOLDCAP = 0)) ∧
    { runS with clk := { runS.clk with relocking := true } }.clk.relocking = true ∧
    (let s := runS.updCh 3 fun c => { c with fetRun := 250 }
     250 ≤ (s.ch[(3 : Fin 64)]).fetRun ∧ (s.ch[(3 : Fin 64)]).offAt = none ∧ (s.ch[(3 : Fin 64)]).st ≠ .ramp) := by
  and_intros <;> decide +kernel

theorem witness_ComparatorTripsAtOnce :
    (let s := chS 3 .on
     s.live = true ∧ driven (s.ch[(3 : Fin 64)]).st = true ∧ (s.ch[(3 : Fin 64)]).latch = false ∧ s.drives = true ∧
     (s.ch[(3 : Fin 64)]).st ≠ .held ∧ s.cmpTrips 3 1000000 1000 = true ∧ s.cmpTrips 3 (-1) 1000 = false) ∧
    driven (runS.ch[(3 : Fin 64)]).st = false ∧
    (let s := withPw (frOff (chS 3 .held)) fun p => { p with mode := .dormant, logic := .off }
     s.pw.mode = .dormant ∧ s.live = false ∧ s.hinge.hen = false ∧ (s.ch[(3 : Fin 64)]).st = .held ∧ s.members 3 = [3] ∧
     (s.updCh 3 fun c => { c with cmpGain := 10 }).cmpTrips 3 1000000 1000 = true) := by
  decide +kernel

theorem witness_ChannelTimersArcBlocksAndProbesAct :
    (let s := (chS 3 .tripped).updCh 3 fun c => { c with retryAt := some 900, tmb := { c.tmb with starts := [990], rateMax := 1 } }
     (s.ch[(3 : Fin 64)]).retryAt = some 900 ∧ s.isFollower 3 = false ∧ (s.members 3).any s.rateFull = true ∧
     ((s.updCh 3 fun c => { c with tmb := { c.tmb with rateMax := 5 } }).members 3).any
       (s.updCh 3 fun c => { c with tmb := { c.tmb with rateMax := 5 } }).rateFull = false) ∧
    (let s := { chS 3 .on with fr := { runS.fr with count := 100000000 } }
     (s.ch[s.leader 3]).hot = false ∧ (s.ch[(3 : Fin 64)]).tstabFrom + frames01s * s.lf 3 Fld.TSTABLE ≤ s.fr.count) ∧
    (let s := { runS with fr := { runS.fr with drive := 100000000 } }.updCh 3 fun c => { c with sink := .active }
     (s.ch[(3 : Fin 64)]).sink ≠ .none ∧ (s.ch[(3 : Fin 64)]).sinkAt + 3 * frames10s ≤ s.fr.drive) ∧
    (let s := { runS with settings := storeSet ⟨0x52, 3, Fld.AMBSRC.2, 0⟩ 62 runS.settings, fr := { runS.fr with count := 3000000 } }
     s.lf 3 Fld.AMBSRC = 62 ∧ (s.ambientOf 3).2 = true ∧ (s.ch[(3 : Fin 64)]).ambFb = false ∧ s.isFollower 3 = false) ∧
    (let s := runS.updCh 3 fun c => { c with
       tmb := { c.tmb with permit := some 900 }
       creep := { c.creep with probe := some 900, pre := [(1000, 900, 10)], post := [(1000, 890, 10)], during := [10] } }
     let k := (s.ch[(3 : Fin 64)]).creep
     (s.ch[(3 : Fin 64)]).tmb.permit = some 900 ∧ k.probe = some 900 ∧ 900 + s.lf 3 Fld.PLEN + 2 ≤ s.fr.count ∧
     (s.probeRon 3 k.pre).isSome = true ∧ (s.probeRon 3 k.pre) ≠ some 0 ∧ (s.probeRon 3 k.post).isSome = true ∧
     movedTenth (s.probeMean 3) (meanQ (k.during.map (s.rawAmp 3))) = false ∧
     (∀ pre ∈ s.probeRon 3 k.pre, meanQ (k.during.map (s.rawAmp 3)) * ((s.lf 3 Fld.PVDS : ℚ) / 10) -
       s.probeMean 3 * pre * s.probeMean 3 ≠ 0) ∧ s.probeRon 3 [] = none ∧ movedTenth 1 2 = true) ∧
    runS.fr.count % 10 = 0 ∧ (runS.ch[(3 : Fin 64)]).arc.due = false ∧
    (let t := taken { runS with fr := { runS.fr with count := 100 } } 4 0x0101 okArgs
     (runS.qs[t.q]).cls = .a ∧ t.vis.frame + 75 ≤ runS.fr.count) := by
  and_intros <;> decide +kernel

/-- Phase 0 of the converter switches in buck, with a duty of a half. -/
def phS : State := { runS with cv := { runS.cv with ph := runS.cv.ph.set 0 { runS.cv.ph[0] with enAp := true, dutyAp := 1 / 2 } } }

theorem witness_SenseEventsAct :
    (let s := phS.updGrp 0 fun g => { g with inj := g.inj.set 0 (0x80000000#32) }
     injEn (s.grp[(0 : Fin 5)]).inj[(0 : Fin 8)] = true ∧ s.converts 0 = true ∧
     s.trigEdge (injTrig (s.grp[(0 : Fin 5)]).inj[(0 : Fin 8)]) 0 = true ∧
     s.trigEdge (injTrig (s.grp[(0 : Fin 5)]).inj[(0 : Fin 8)]) 1 = false ∧
     injEn (s.grp[(0 : Fin 5)]).inj[(1 : Fin 8)] = false ∧ (s.grp[(0 : Fin 5)]).injNew = []) ∧
    (let x : Group := { runS.grp[(0 : Fin 5)] with mask := 0xFFFFFFFF, seqMode := false, injReq := [(2, 40)] }
     x.injReq = [(2, 40)] ∧ (∀ i, i < 32 → planFree x.plan i = true → 4 * (40 : Int) ≤ 25 * (32 * 3 + i : Nat) →
       4 * ((40 : Int) + 200) < 25 * (32 * 3 + i : Nat)) ∧ 4 * ((40 : Int) + 200) < 25 * (32 * 3 + 32 : Nat)) ∧
    (let h : HkIn := { (default : HkIn) with check := #v[0, 0, 0, 0, 3072, 3072, 3072, 3072] }
     hkBadSlot h = none ∧ (hkBadSlot default).isSome = true ∧ 1 ≤ { runS.hk with checkRun := 1 }.checkRun ∧
     runS.hk.checkBad = false) ∧
    (let s := { runS with hk := { runS.hk with checkBad := true, hotRun := Vector.replicate 24 1 } }
     s.hk.checkBad = true ∧ (∀ i : Fin 24, (default : HkIn).ts[i] < 10560) ∧
     (10560 ≤ (Vector.replicate 24 11000 : Vector Int 24)[(0 : Fin 24)]) ∧ 1 ≤ s.hk.hotRun[(0 : Fin 24)] ∧
     s.th.latch = false) ∧
    ((capS 2).cap[(0 : Fin 16)]).st = 2 ∧ ((capS 2).cap[(0 : Fin 16)]).postLeft = 0 ∧ (runS.cap[(0 : Fin 16)]).st ≠ 2 := by
  and_intros <;> decide +kernel

/-! ### Converter, injection, zone -/

theorem witness_ConverterEventsAct :
    (let s := { runS with cv := { runS.cv with start := .running 1, regRun := 8, vinRun := 250 }, fr := { runS.fr with count := 30000 } }
     cvRunning s.cv.start = true ∧ 8 ≤ s.cv.regRun ∧ s.pw.step ≠ 16 ∧ s.zone.hu ≠ .ret ∧ 1 + 25000 ≤ s.fr.count ∧
     (withPw s fun p => { p with step := 16, admOpen := false }).pw.step = 16) ∧
    (let s := { runS with cv := { runS.cv with start := .waiting true, vinRun := 250, mode := .idle, countedAt := some 900, holdEnd := some 900
                                               counted := [1, 2, 3] } }
     s.cv.start = .waiting true ∧ 250 ≤ s.cv.vinRun ∧ s.cv.mode = .idle ∧ s.cv.modeNext = none ∧ s.cv.stop = none ∧ s.cv.lockout = false ∧
     s.cv.countedAt = some 900 ∧ 900 ≤ s.fr.count ∧ s.cv.holdEnd = some 900 ∧
     3 ≤ (s.cv.counted.filter fun x => s.fr.count < x + 15000000).length) ∧
    (runS.cv.counted.filter fun x => runS.fr.count < x + 15000000).length < 3 ∧ runS.cv.noPhase = false ∧
    (let s := runS.updAux 0 fun a => { a with countedAt := some 900, counted := [1, 2, 3], st := .fault }
     (s.aux[(0 : Fin 4)]).countedAt = some 900 ∧ (s.aux[(0 : Fin 4)]).st = .fault ∧
     3 ≤ ((s.aux[(0 : Fin 4)]).counted.filter fun x => s.fr.count < x + 15000000).length) ∧
    (let s := { runS with cv := { runS.cv with rotNs := 2048000 } }
     s.cv.mode ≠ .idle ∧ 1024 * (s.cvf Fld.TSW : ℚ) ≤ s.cv.rotNs) ∧
    (let s := { runS with cv := { runS.cv with profiles := [{ (default : Profile) with ch := 3 }] } }
     (s.cv.profiles.find? fun f => f.ch == 3) = some { (default : Profile) with ch := 3 } ∧
     (default : Profile).start + (default : Profile).npred + 25 ≤ s.fr.count) := by
  and_intros <;> decide +kernel

theorem witness_InjectionEventsAct :
    (let s := { runS with inj := { runS.inj with status := 1, armed := true } }
     s.inj.status = 1 ∧ s.inj.armed = true ∧ s.inj.ending = none ∧ s.inj.startAt ≤ s.fr.count) ∧
    (let s := { runS with inj := { runS.inj with status := 1, f := runS.inj.f.set 6 5 } }
     s.inj.armed = false ∧ s.inj.f[(2 : Fin 12)] = 0 ∧ s.inj.settleLeft = 0 ∧ s.inj.measLeft = 0 ∧
     s.inj.k < s.inj.f[(6 : Fin 12)]) ∧
    (let s := { runS with inj := { runS.inj with f := (runS.inj.f.set 6 0).set 2 1 } }
     s.inj.f[(6 : Fin 12)] ≤ s.inj.k ∧ s.inj.f[(2 : Fin 12)] ≠ 0) := by decide +kernel

theorem witness_HoldUpEventsAct :
    (let s := { runS with zone := { runS.zone with hu := .holdup, retRun := 1000000 } }
     s.drives = true ∧ s.zone.huNext = none ∧ s.zone.hu = .holdup ∧ s.zone.testEnd = none ∧ 250 * s.znf Fld.HURET ≤ s.zone.retRun ∧
     ({ runS with zone := { runS.zone with hu := .spent } }).zone.hu = .spent) ∧
    (let s := { runS with zone := { runS.zone with hu := .holdup, testEnd := some 900 } }
     s.zone.testEnd = some 900 ∧ 900 ≤ s.fr.count) ∧
    (let s := { runS with zone := { runS.zone with hu := .ret, retStep := 2 }, fr := { runS.fr with count := 30000 } }
     s.zone.hu = .ret ∧ s.zone.retSpent = false ∧ s.zone.retAt + 25000 ≤ s.fr.count ∧ s.zone.isoClosedAt + 25000 ≤ s.fr.count ∧
     s.zone.retStep = 2 ∧ cvRunning s.cv.start = false ∧ s.zone.huNext = none) ∧ offS.live = false := by decide +kernel

/-! ### Memory, records, Tumbler, Keyring -/

theorem witness_MemoryErrorsActByTable15 :
    isEccMem .supSram = true ∧ inMap 0x40000000 = true ∧ inMap 0xF0000000 = false ∧ runS.pw.logic = .running ∧
    (0x40000000#32).toNat = 0x40000000 + ((0 : Fin 32).val * 0x6000 + 0) ∧ 0 < (runS.qs[(0 : Fin 32)]).depth * 64 ∧
    (runS.qs[(0 : Fin 32)]).st = .run ∧ (runS.qs[(0 : Fin 32)]).isEvent = false ∧
    (let s := { runS with fr := { runS.fr with drive := 21600000000 } }
     s.mem.sramAt + 2000000 ≤ s.fr.drive ∧ s.mem.firnAt + 21600000000 ≤ s.fr.drive + s.mem.firnFor) ∧ runS.fr.drive < runS.mem.sramAt + 2000000 ∧
    runS.fr.drive + runS.mem.firnFor < runS.mem.firnAt + 21600000000 := by decide +kernel

/-- The places of Table 1.4 that hold the two snapshot slots and the two slots of the converter learned values. -/
theorem witness_firn_places : (∃ a : Word, firnHolds (.snapshot false) a = true) ∧ (∃ a : Word, firnHolds (.snapshot true) a = true) ∧
    (∃ a : Word, firnHolds (.cvLearned false) a = true) ∧ ∃ a : Word, firnHolds (.cvLearned true) a = true :=
  ⟨⟨0x60190000, by decide +kernel⟩, ⟨0x60198000, by decide +kernel⟩, ⟨0x60180100, by decide +kernel⟩, ⟨0x60180200, by decide +kernel⟩⟩

def rec0 : IceRec := { (default : IceRec) with code := 0x0101, source := 0xFFFF, payload := fitTo 16 [], flags := 4 * runS.srcClass 0xFFFF + 1 }

theorem witness_RecordsFoldFlushAndClear :
    (let s := { runS with ice := { runS.ice with buf := [rec0] } }
     s.ice.buf = [] ++ [rec0] ∧ rec0.flags = (if s.pw.pfw then 16 else 0) + 4 * s.srcClass 0xFFFF + 1 ∧ s.ice.lostPend = 0 ∧
     rec0.rep < 65535) ∧ 1024 ≤ (List.replicate 1024 rec0).length ∧
    (let s := { runS with ice := { runS.ice with flushing := true } }
     s.ice.flushing = true ∧ s.ice.clearing = none ∧ s.ice.flushCmds = []) ∧ runS.ice.flushing = false ∧ runS.pw.pfw = false := by
  decide +kernel

theorem witness_TumblerOnlyTightens :
    let s := runS.updCh 3 fun c => { c with tmb := { c.tmb with tcCeil := 150 } }
    s.live = true ∧ s.linkLost.contains (.limit 3) = false ∧ tmbIsZone .tcCeil = false ∧ { s with tmb := { s.tmb with locked := true } }.tmb.locked = true ∧ s.tmbAccepts .tcCeil 3 false 120 = true ∧
    s.tmbAccepts .tcCeil 3 false 151 = false ∧ tmbTighter .tcCeil false 150 (s.tmbCur .tcCeil 3 false) = false := by decide +kernel

def krgS (st : KrgState) : State := runS.updKrg fun k => { k with st := st, reg := 3, keys := k.keys.set 1 0x1234 }

theorem witness_SealHasTheResultOfTheFirstMatchingRow :
    let s := krgS .run
    s.krgCounts = true ∧ s.krgW < s.krgP ∧ 0 < s.krgW ∧ s.krg.reg &&& ~~~(s.krg.given ||| 0) ≠ 0 ∧
    (let s1 := s.updKrg fun k => { k with given := 3, bad := 4 }
     s1.krg.reg &&& ~~~(s1.krg.given ||| 0) = 0 ∧ s1.krg.bad ≠ 0 ∧ (s1.updKrg fun k => { k with bad := 0 }).krg.bad = 0) := by
  decide +kernel

theorem witness_KeyWritesFollowPseq :
    let s := krgS .run
    s.krgCounts = true ∧ s.krg.reg.getLsbD 1 = true ∧ 0x1234#16 = s.krg.keys[(1 : Fin 16)] ^^^ s.krg.pseq.setWidth 16 ∧
    s.krg.given.getLsbD 1 = false ∧ (s.updKrg fun k => { k with given := 2 }).krg.given.getLsbD 1 = true ∧
    s.krg.reg.getLsbD 5 = false ∧
    (let s1 := { s.updKrg fun k => { k with given := 2 } with fr := { s.fr with ceHalted := true } }
     s1.fr.ceHalted = true ∧ s1.krg.reg &&& ~~~(s1.krg.given ||| 1#16) = 0 ∧ s1.krg.bad = 0) := by decide +kernel

theorem witness_NothingButAPorReturnsKeyringToOff : (krgS .run).krg.st ≠ .off ∧ ∃ t, exec .keyringEnable (krgS .run) = .next t :=
  ⟨by decide +kernel, _, rfl⟩

theorem witness_KeyringEventsAct :
    ((krgS .boot).krgCounts = true ∧ (krgS .boot).krg.regLock = false ∧ (krgS .boot).krg.rstCnt < 3 ∧ 5 ≤ (krgS .boot).pw.step ∧
      (krgS .boot).krg.clkFail = false ∧ (krgS .boot).pw.mode = .run) ∧
    ({ krgS .off with otp := { runS.otp with kstart := some true } }.otp.kstart = some true ∧ (krgS .off).krg.st = .off) ∧
    3 ≤ ((krgS .boot).updKrg fun k => { k with rstCnt := 3 }).krg.rstCnt ∧ (krgS .run).krg.st = .run := by decide +kernel

/-! ### Host port, network, two-wire buses -/

theorem witness_BadDoorbellIsAViolationAndIgnored :
    (runS.live = true ∧ runS.upd.recovery = false) ∧ (runS.qs[(4 : Fin 32)]).depth ≤ (16#32).toNat % 256 ∧
    ((runS.qs[(0 : Fin 32)]).path ≠ .spi) ∧ (runS.qs[(29 : Fin 32)]).isEvent = true ∧
    (runS.qs[(4 : Fin 32)]).held < ((3#32).toNat % 256 + (runS.qs[(4 : Fin 32)]).depth - (runS.qs[(4 : Fin 32)]).cqHead) %
      (runS.qs[(4 : Fin 32)]).depth ∧ (runS.qs[(4 : Fin 32)]).path = .spi ∧ (runS.qs[(4 : Fin 32)]).owner = runS.srcOwner 0x400 ∧
    (runS.srcOwner 0x400).isSome = true ∧ (0#32).toNat % 256 = (runS.qs[(4 : Fin 32)]).cqHead := by decide +kernel

theorem witness_DoorbellsMoveTheirIndices :
    runS.spiOwns 4 = true ∧ (3#32).toNat % 256 < (runS.qs[(4 : Fin 32)]).depth ∧ (runS.qs[(4 : Fin 32)]).isEvent = false ∧
    (let s := runS.updQ 4 fun k => { k with cqTail := 3 }
     ((3#32).toNat % 256 + (s.qs[(4 : Fin 32)]).depth - (s.qs[(4 : Fin 32)]).cqHead) % (s.qs[(4 : Fin 32)]).depth ≤
       (s.qs[(4 : Fin 32)]).held) := by decide +kernel

theorem witness_HostPortRegistersAct :
    (let s := runS.updQ 4 fun k => { k with st := .disabled }
     s.spiOwns 4 = true ∧ (s.qs[(4 : Fin 32)]).st = .disabled) ∧
    (let s := runS.updQ 4 fun k => { k with st := .stopped }
     (s.qs[(4 : Fin 32)]).st = .stopped ∧ (s.qs[(4 : Fin 32)]).isEvent = false ∧ s.spiOwns 4 = true ∧
     (s.qs[(4 : Fin 32)]).ctlWord % 2 = 1) ∧ runS.spiOwns 0 = false ∧
    (248#32).toNat % 256 ≤ 248 ∧ 248 < (249#32).toNat % 256 ∧ runS.srcOwner 0x400 = some 0 ∧
    (let s := { runS with winBase := 24 }
     0x8000 ≤ (0x8000#16).toNat ∧ (0x8000#16).toNat % 4 = 0 ∧ s.winOk (s.winOff 0x8000) true = true) ∧ offS.pw.logic ≠ .running ∧
    runS.pw.logic = .running ∧ 4 ≤ runS.pw.step ∧ (startS 3).pw.step < 4 := by
  decide +kernel

def msgS : State := { runS with
  net := { runS.net with up1 := true, mka1 := 2, upS := true, mkaS := 2 }, otp := { runS.otp with nodeAddr := some 5 } }

/-- A message of this type from node 0 to node 5, with the header of Table 13.4. -/
def msgOf (typ queue mseq : Nat) (payload : List Byte) : NetMsg := { msg0 with
  link := .t1, secOk := true
  bytes := [0x10#8] ++ le 1 typ ++ le 2 5 ++ le 2 0 ++ le 1 queue ++ le 1 0 ++ le 4 mseq ++ le 2 payload.length ++ le 2 0 ++ payload }

theorem witness_ReceivedMessagesAct :
    msgS.live = true ∧ msgS.net.up .t1 = true ∧ msgS.net.mka .t1 = 2 ∧ msg0.secOk = false ∧ msgS.macsecOk msg0 = false ∧ msg0.laneFull = false ∧
    { msg0 with laneFull := true }.laneFull = true ∧ (msgOf 7 0 1 (List.replicate 65 0)).badLen = true ∧
    (let m := msgOf 7 0 1 [1, 2]
     m.laneFull = false ∧ msgS.macsecOk m = true ∧ isEuvos m = true ∧ isEuvos { m with etherType := 0x0800 } = false ∧
     isEuvos { m with encap := .udp 0 1, etherType := 0x86DD, dport := 1 } = false ∧
     (let s := { msgS with net := { msgS.net with rxSc := [⟨.t1, m.sci, 1⟩] } }
      s.net.rxSc.find? (fun x => x.link == m.link && x.sci == m.sci) = some ⟨.t1, m.sci, 1⟩ ∧ m.pn.toNat ≤ 1 ∧
      s.macsecOk { m with pn := 2 } = true) ∧ m.ipBad = false ∧ m.badHeader = false ∧ m.typeOk = true ∧ m.badLen = false ∧ msgS.badAddress m = false ∧
     ({ msgS with otp := { msgS.otp with nodeAddr := some 6 } }).badAddress m = true ∧ { m with ipBad := true }.ipBad = true ∧
     { m with bytes := [] }.badHeader = true) ∧ (msgOf 9 0 1 []).typeOk = false ∧ runS.net.up .t1 = false := by decide +kernel

theorem witness_CommandMessageEntersItsRing :
    let m := msgOf 1 0 9 (List.replicate 64 0)
    msgS.live = true ∧ msgS.net.up m.link = true ∧ m.laneFull = false ∧ msgS.macsecOk m = true ∧ isEuvos m = true ∧ m.ipBad = false ∧
    (msgS.qs[(0 : Fin 32)]).sqHead < (msgS.qs[(0 : Fin 32)]).depth ∧ (msgS.qs[(0 : Fin 32)]).sqTail < (msgS.qs[(0 : Fin 32)]).depth ∧
    memWf msgS.qmem = true ∧ (msgS.qs[(0 : Fin 32)]).sqTail < 256 ∧
    m.badHeader = false ∧ m.typ = 1 ∧ m.badLen = false ∧ msgS.badAddress m = false ∧ m.queue = (0 : Fin 32).val ∧
    msgS.srcOwner m.src = some 0 ∧ (msgS.qs[(0 : Fin 32)]).isEvent = false ∧ (msgS.qs[(0 : Fin 32)]).path = .network ∧
    (msgS.qs[(0 : Fin 32)]).owner = some 0 ∧ (msgS.qs[(0 : Fin 32)]).st = .run ∧ (msgS.qs[(0 : Fin 32)]).disabling = false ∧
    ((msgS.qs[(0 : Fin 32)]).recent.find? fun r => r.src == m.src && r.mseq.toNat == m.mseq) = none ∧
    (msgS.qs[(0 : Fin 32)]).untaken + 1 < (msgS.qs[(0 : Fin 32)]).depth ∧
    (fitArea (msgS.qs[(0 : Fin 32)]).areas m.areaUnits).isSome = true := by decide +kernel

theorem witness_EchoAndArbiterMessagesAct :
    let s := { msgS with hinge := { msgS.hinge with hen := true, euvos := true, st := .standby, permitted := true } }
    let m := msgOf 6 0 9 (le 4 1 ++ le 1 3 ++ List.replicate 11 0)
    s.live = true ∧ s.net.up m.link = true ∧ m.laneFull = false ∧ s.macsecOk m = true ∧ isEuvos m = true ∧ m.ipBad = false ∧
    m.badHeader = false ∧ m.badLen = false ∧ s.badAddress m = false ∧ m.typ = 6 ∧ m.src = s.hgf Fld.ARBNODE ∧
    m.payload.length = 16 ∧ getLe m.payload 4 1 = 3 ∧ s.hinge.epoch.toNat < getLe m.payload 0 4 ∧
    getLe (List.replicate 16 0#8) 0 4 ≤ s.hinge.epoch.toNat := by decide +kernel

theorem witness_LinkEventsAct :
    (msgS.live = true ∧ msgS.net.carries .t1 = true ∧ msgS.net.up .t1 = true ∧ runS.net.first .t1s = none) ∧
    (let s := { runS with otp := { runS.otp with nodeAddr := some 5, cak1 := some [] } }
     s.net.up .t1 = false ∧ s.linkHeld .t1 = false) ∧
    (let m : TxMsg := { (default : TxMsg) with link := .t1s, bytes := List.replicate 16 0 }
     let s := { msgS with net := { msgS.net with txA := [m] } }
     s.net.carries .t1s = true ∧ s.net.first .t1s = some m ∧ m.keepSeq = false ∧ 12 ≤ m.bytes.length) := by decide +kernel

def twS : State := { runS with otp := { runS.otp with tw1Addr := some 0x20, tw0Addr := some 0x21 } }

theorem witness_TwoWireTransfersAct :
    twS.otp.tw1Addr = some 0x20 ∧ twS.otp.tw0Addr = some 0x21 ∧ twS.live = true ∧ twS.pw.dormStep = 0 ∧ (frOff twS).live = false ∧
    (some 0#8 : Option Byte) ≠ some (crc8Smb (le 1 (0x20 * 2) ++ [3#8] ++ le 1 64 ++ List.replicate 64 0)) ∧ twS.tw.resp = [] := by
  decide +kernel

theorem witness_TwoWireErrorsAndNotifyAct :
    (twS.twAddr .tw0).isSome = true ∧ twS.twSmbus .tw1 = true ∧ twS.notifyOn = true ∧ twS.tw.losses = 0 ∧
    (let s := { twS with tw := { twS.tw with notify := true, losses := 7 } }
     s.tw.notify = true ∧ s.tw.losses = 7 ∧ s.tw.losses ≠ 0) := by decide +kernel

/-! ### Hinge, PD ports -/

def standS : State := { runS with hinge := { runS.hinge with
  hen := true, st := .standby, permitted := true, partnerDrove := true, missRun := 25, noPulseRun := 2, linkUp := true
  mirror := { runS.hinge.mirror with complete := true }, step17 := some 1 } }

theorem witness_HingeEventsMoveThePair :
    (runS.pw.mode ≠ .shutdown ∧ runS.pw.mode ≠ .off ∧ runS.hinge.hen = false) ∧
    (standS.live = true ∧ standS.hinge.st = .standby ∧ standS.hinge.permitted = true ∧ standS.hinge.partnerDrove = true ∧
      25 ≤ standS.hinge.missRun ∧ 2 ≤ standS.hinge.noPulseRun ∧ standS.hinge.pulseNow = false ∧ standS.hinge.holdNow = false ∧
      standS.hinge.gotBeat = false ∧ standS.hinge.mirror.complete = true ∧ standS.hinge.pulseEver = false ∧
      1 + (if standS.primary then 0 else 250) ≤ standS.fr.count ∧ standS.drives = false) ∧
    (let s := { standS with hinge := { standS.hinge with st := .handing, driving := true } }
     s.hinge.st = .handing ∧ s.hinge.driving = true) ∧
    (let s := { standS with hinge := { standS.hinge with handEnd := some 900 } }
     s.hinge.handEnd = some 900 ∧ 900 ≤ s.fr.count) := by decide +kernel

theorem witness_LinkFramesAct :
    (standS.live = true ∧ standS.hinge.hen = true ∧ frame0.crcOk = true ∧ standS.hinge.linkUp = true ∧
      frame0.flags.getLsbD 1 = false ∧ frame0.state ≠ 1 ∧ { frame0 with crcOk := false }.crcOk = false) ∧
    (standS.drives = false ∧ standS.hinge.accSeq.toNat < (1#32).toNat ∧ standS.hinge.mirror.seq = none) ∧
    (let s := { standS with hinge := { standS.hinge with st := .handing, driving := true } }
     s.hinge.st = .handing ∧ s.drives = true) := by decide +kernel

theorem witness_PdAttachDetachAndMoistureAct :
    ((pdS .unattached).live = true ∧ ((pdS .unattached).pd[(0 : Fin 2)]).st = .unattached) ∧
    (((pdS .transition).pd[(0 : Fin 2)]).rdGone = false ∧ pdAttached ((pdS .contract).pd[(0 : Fin 2)]).st = true) ∧
    (let s := pdS .transition |>.updPd 0 fun k => { k with rdGone := true, vconn := true }
     (s.pd[(0 : Fin 2)]).rdGone = true ∧ (s.pd[(0 : Fin 2)]).vconn = true) ∧
    ((pdS .moist).pdf 0 Fld.MOISTEN = 1 ∧
     ((pdS .moist).pd[(0 : Fin 2)]).pins.filter (fun i => (pdS .moist).pinWet 0 (Vector.replicate 4 0) i) ≠ [] ∧
     ((pdS .moist).pd[(0 : Fin 2)]).pins.filter (fun i => (pdS .moist).pinWet 0 (Vector.replicate 4 60000) i) = []) ∧
    (let s := (pdS .moist).updPd 0 fun k => { k with dryRun := 2, wetRun := 599 }
     2 ≤ (s.pd[(0 : Fin 2)]).dryRun ∧ (s.pd[(0 : Fin 2)]).wetRun = 599) ∧ ((pdS .moist).pd[(0 : Fin 2)]).dryRun < 2 := by
  decide +kernel

theorem witness_PdContractsAct :
    (let s := (pdS .contract).updPd 0 fun k => { k with pdos := [{ (default : Pdo) with volt := 250, cur := 300 }] }
     s.live = true ∧ (s.pd[(0 : Fin 2)]).st = .contract ∧ (s.pd[(0 : Fin 2)]).nextObj = 0 ∧ s.pdNamed 0 ⟨2, 1, 0⟩ = none ∧
     (s.pdNamed 0 ⟨1, 300, 0⟩).isSome = true ∧ s.pdMustWait 0 0 = false ∧
     (s.updPd 1 fun k => { k with st := .transition }).pdMustWait 0 1 = true ∧ (s.pd[(0 : Fin 2)]).waits < 7) ∧
    (let s := (pdS .transition).updPd 0 fun k => { k with nextObj := 1, srcWait := true }
     (s.pd[(0 : Fin 2)]).nextObj ≠ 0 ∧ (s.pd[(0 : Fin 2)]).srcWait = true ∧ (s.pd[(0 : Fin 2)]).rdGone = false) ∧
    ((pdS .attached).pd[(0 : Fin 2)]).st = .attached ∧
    (let s := (pdS .contract).updPd 0 fun k => { k with ccPeriods := 250 }
     (s.pd[(0 : Fin 2)]).st = .contract ∧ 250 ≤ (s.pd[(0 : Fin 2)]).ccPeriods) := by
  and_intros <;> decide +kernel

end Sys2Proof.Tests
end

section
/-! PROOFS. How a command of the host is executed at once, how a check turns it away, and that a command turned away leaves
the machine as it was. -/

namespace Sys2Proof.Machine

open Sys2Proof

/-! ### The first status that applies -/

/-- R406: a 0x22 is the first status where one applies and none of the statuses before it does. -/
theorem firstStatus_eq_badParam {cs : List (Nat × Bool)} (hbefore : ∀ p ∈ cs, p.1 ∈ [0x20, 0x41, 0x21] → p.2 = false)
    (hbad : (0x22, true) ∈ cs) : firstStatus cs = some 0x22 := by
  have hnone (c : Nat) (hc : c ∈ [0x20, 0x41, 0x21]) : (cs.any fun p => p.1 == c && p.2) = false := by
    rw [List.any_eq_false]
    intro p hp happlies
    obtain ⟨hpc, hp2⟩ : p.1 = c ∧ p.2 = true := by simpa using happlies
    exact absurd hp2 (by simp [hbefore p hp (hpc ▸ hc)])
  have hsome : (cs.any fun p => p.1 == 0x22 && p.2) = true := List.any_eq_true.mpr ⟨_, hbad, rfl⟩
  simp [firstStatus, statusOrder, hnone 0x20, hnone 0x41, hnone 0x21, hsome]

/-- A check that does not fail has no part in the first status. -/
theorem firstStatus_skip_passed (c : Nat) (l m : List (Nat × Bool)) :
    firstStatus (l ++ (c, false) :: m) = firstStatus (l ++ m) := by
  simp [firstStatus]

/-! ### Commands that a check turns away -/

/-- The statuses without a violation record and before the credential is looked at (R406). -/
def plainStatus : List Nat := [0x41, 0x21, 0x22, 0x40]

/-- Command f meets the checks of every command and its own ones, chk: where the first status is a plain one, it completes with that
status, and this is all that it does. -/
def TurnsAway (f : Taken → State → State) (chk : Taken → State → List (Nat × Bool)) : Prop :=
  ∀ (t : Taken) (s : State) (r : OpRow) (x : Nat), opRow t.op.toNat = some r →
    firstStatus (baseChecks r t s ++ chk t s) = some x → x ∈ plainStatus → ∃ res, f t s = s.refuse t x res

theorem plainStatus_ne_violation {x : Nat} (hx : x ∈ plainStatus) : (x == 0x20) = false := by
  revert x; decide

theorem plainStatus_early {x : Nat} (hx : x ∈ plainStatus) :
    (x == 0x20 || x == 0x41 || x == 0x21 || x == 0x22 || x == 0x40) = true := by
  revert x; decide

theorem State.guarded_eq_refuse {s : State} {t : Taken} {extra : List (Nat × Bool)} {r : OpRow} {x : Nat}
    (hr : opRow t.op.toNat = some r) (hst : firstStatus (baseChecks r t s ++ extra) = some x) (hx : x ∈ plainStatus)
    (eff : State → State) : s.guarded t extra eff = s.refuse t x := by
  simp [State.guarded, hr, hst, plainStatus_ne_violation hx]

/-- No credential is counted for a command that a plain status turns away (R444). -/
theorem State.guardedCred_eq_refuse {s : State} {t : Taken} {need : Bool} {extra : List (Nat × Bool)} {r : OpRow} {x : Nat}
    (hr : opRow t.op.toNat = some r)
    (hst : firstStatus (baseChecks r t s ++ (0x10, need && !s.credOk t) :: extra) = some x) (hx : x ∈ plainStatus)
    (eff : State → State) : s.guardedCred t need extra eff = s.refuse t x := by
  have hguard := State.guarded_eq_refuse hr hst hx eff
  cases hcount : need && s.credOk t with
  | false => simp [State.guardedCred, hcount, hguard]
  | true =>
    have hpassed : (need && !s.credOk t) = false := by simp_all
    rw [hpassed, firstStatus_skip_passed] at hst
    simp [State.guardedCred, hr, hst, plainStatus_early hx, hguard]

theorem State.cfgThen_eq_refuse {s : State} {t : Taken} {c : CfgSpec} {r : OpRow} {x : Nat}
    (hr : opRow t.op.toNat = some r) (hst : firstStatus (baseChecks r t s ++ s.cfgChecks t c) = some x)
    (hx : x ∈ plainStatus) (eff : State → State) : ∃ res, s.cfgThen t c eff = s.refuse t x res := by
  simp only [State.cfgThen, hr, hst, plainStatus_early hx, Bool.not_true, Bool.and_false, Bool.false_eq_true, if_false]
  simp only [plainStatus_ne_violation hx, Bool.false_eq_true, if_false]
  split
  · exact ⟨_, rfl⟩
  · exact ⟨[], rfl⟩

theorem turnsAway_of_guarded {f : Taken → State → State} {chk : Taken → State → List (Nat × Bool)}
    (eff : Taken → State → State → State) (hf : ∀ t s, f t s = s.guarded t (chk t s) (eff t s)) : TurnsAway f chk :=
  fun t s _ _ hr hst hx => ⟨[], (hf t s).trans (State.guarded_eq_refuse hr hst hx _)⟩

theorem turnsAway_of_guardedCred {f : Taken → State → State} {chk : Taken → State → List (Nat × Bool)}
    (need : Taken → State → Bool) (eff : Taken → State → State → State)
    (hf : ∀ t s, f t s = s.guardedCred t (need t s) (chk t s) (eff t s)) :
    TurnsAway f fun t s => (0x10, need t s && !s.credOk t) :: chk t s :=
  fun t s _ _ hr hst hx => ⟨[], (hf t s).trans (State.guardedCred_eq_refuse hr hst hx _)⟩

theorem turnsAway_of_cfg {f : Taken → State → State} (spec : Taken → State → CfgSpec)
    (hf : ∀ t s, f t s = s.cfg t (spec t s)) : TurnsAway f fun t s => s.cfgChecks t (spec t s) :=
  fun t s _ _ hr hst hx => (State.cfgThen_eq_refuse hr hst hx _).imp fun _ h => (hf t s).trans h

theorem turnsAway_of_cfgThen {f : Taken → State → State} (spec : Taken → State → CfgSpec)
    (eff : Taken → State → State → State) (hf : ∀ t s, f t s = s.cfgThen t (spec t s) (eff t s)) :
    TurnsAway f fun t s => s.cfgChecks t (spec t s) :=
  fun t s _ _ hr hst hx => (State.cfgThen_eq_refuse hr hst hx (eff t s)).imp fun _ h => (hf t s).trans h

/-! ### Updates of one Queue -/

theorem State.updQ_updQ (s : State) (q : Fin 32) (f g : Queue → Queue) :
    (s.updQ q f).updQ q g = s.updQ q fun k => g (f k) := by
  simp [State.updQ]

end Sys2Proof.Machine

namespace Sys2Proof.Stated

open Sys2Proof Sys2Proof.Machine

/-! ### Completions leave the commands that have not finished alone -/

theorem SameOpen.of_outs {s t : State} (h : t.outs = s.outs) : SameOpen s t := by rw [SameOpen, h]

/-- Taking finished commands out of the list leaves the others. -/
theorem dropOuts_sameOpen (s : State) (o : Out) (hdone : o.wait.isDone = true) : SameOpen s (s.dropOuts (· == o)) := by
  rw [SameOpen, State.dropOuts_outs, List.filter_filter]
  refine List.filter_congr fun p _ => ?_
  by_cases hp : p = o <;> simp [hp, hdone]

theorem flushOne_sameOpen (s : State) (q : Fin 32) : SameOpen s (s.flushOne q) := by
  unfold State.flushOne
  split
  · exact (SameOpen.of_outs (State.writeOut_told ..).outs).trans (dropOuts_sameOpen s _ rfl)
  · rfl

theorem overL_sameOpen {α : Type} (l : List α) (f : α → State → State) (hf : ∀ x u, SameOpen u (f x u)) (s : State) :
    SameOpen s (overL l f s) := by
  induction l generalizing s with
  | nil => rfl
  | cons x l ih => exact (ih (f x s)).trans (hf x s)

/-- R392: a completion is written, or waits as finished; entries that it lets go are those of finished commands. -/
theorem close_sameOpen (s : State) (t : Taken) (status : Nat) (frame : Option Nat) (result data : List Byte)
    (evt told : Bool) : SameOpen s (s.close t status frame result data evt told) := by
  unfold State.close
  split
  · simp [SameOpen, Wait.isDone]
  · exact (overL_sameOpen _ _ (fun _ u => flushOne_sameOpen u t.q) _).trans (SameOpen.of_outs (State.writeOut_told ..).outs)

/-- A command turned away leaves the machine as it was. -/
theorem refuse_sameMachine (s : State) (t : Taken) (status : Nat) (result : List Byte) :
    SameMachine s (s.refuse t status result) := by
  have hopen : SameOpen s (s.refuse t status result) := close_sameOpen ..
  simp [SameMachine, hopen]

/-! ### A command executed at once -/

/-- Every row of the table takes its descriptor and executes a command that comes after its checks. -/
theorem exec_rowCmd_turnsAway {c : Instr} {op : Nat} {q : Fin 32} {d : CmdArgs} (hrow : rowOf c = some (op, q, d)) :
    ∃ f, (∀ s, exec c s = .next (s.rowCmd f op q d)) ∧ TurnsAway f (ownChecks c) := by
  cases c with
  | chCfg | cvCfg | auxCfg | lawCfg | capSet | huCfg | stagCfg | batCfg | hingeCfg | pdCfg =>
    cases hrow
    exact ⟨_, fun _ => rfl, turnsAway_of_cfg _ fun _ _ => rfl⟩
  | injStart =>
    cases hrow
    exact ⟨_, fun _ => rfl, turnsAway_of_cfgThen cfgInjStart _ fun _ _ => by dsimp only [cmdInjStart]⟩
  | chOff =>
    cases hrow
    exact ⟨_, fun _ => rfl, turnsAway_of_guardedCred _ _ fun _ _ => by dsimp only [cmdChOff]⟩
  | ownerRes =>
    cases hrow
    exact ⟨_, fun _ => rfl, turnsAway_of_guardedCred _ _ fun _ _ => by dsimp only [cmdOwnerRes]⟩
  | cvSet | zoneRead | huTest | batRead | snsInj | snsRead | capArm | capTrig | capRelease | iceFlush | reset | dormant | wakeCfg
  | qCfg | qCtlDisable | qCtlEnable | qCtlRestart | vioClear | idRead | hingeRead | pdRead | updEnd | updRead | injStop | injRead
  | ceStat =>
    cases hrow
    exact ⟨_, fun _ => rfl, turnsAway_of_guarded _ fun _ _ => rfl⟩
  | chOn | chRead | chClear | cvRead | shedOrder | snsMask | snsGain | snsFilter | snsZone | capCfg | capRead | capNetStart
  | capNetStop | iceRead | iceClear | fence | ownerMap | hingeHandover | hingeResync | hingeCounterClear | pdReadvertise
  | pdHardReset | pdMoistureTestNow | pdClearFault | pdClearCorrosion | updBegin | updData | updActivate =>
    cases hrow
    exact ⟨_, fun _ => rfl, turnsAway_of_guarded _ fun _ _ => by
      dsimp only [ownChecks, cmdChOn, cmdChRead, cmdChClear, cmdCvRead, cmdShedOrder, cmdSnsMask, cmdSnsGain, cmdSnsFilter,
        cmdSnsZone, cmdCapCfg, cmdCapRead, cmdCapNet, cmdIceRead, cmdIceClear, cmdFence, cmdOwnerMap, cmdHingeCmd, cmdPdCtl,
        cmdUpdBegin, cmdUpdData, cmdUpdActivate]⟩
  | _ => cases hrow

@[simp] theorem taken_q (s : State) (q : Fin 32) (op : Nat) (d : CmdArgs) : (taken s q op d).q = q := rfl

/-- The state of execution is that of the taking of the descriptor. -/
theorem took_eq_entered (s : State) (q : Fin 32) (op : Nat) (d : CmdArgs) :
    (s.updQ q fun k => { k with nIn := k.nIn + 1 }).took (taken s q op d) = entered s q op d := by
  simp only [State.took, entered, taken_q, State.updQ_updQ]

@[simp] theorem entered_outs (s : State) (q : Fin 32) (op : Nat) (d : CmdArgs) : (entered s q op d).outs = s.outs := by
  unfold entered
  dsimp only
  split <;> rfl

theorem entered_fenced (s : State) (q : Fin 32) (op : Nat) (d : CmdArgs) (p : Fin 32) :
    (entered s q op d).fenced p = s.fenced p := by
  rw [State.fenced, entered_outs, State.fenced]

theorem entered_waiting (s : State) (q : Fin 32) (op : Nat) (d : CmdArgs) :
    ((entered s q op d).qs[q]).waiting = (s.qs[q]).waiting := by
  unfold entered
  dsimp only
  split <;> simp

/-- A command that finds its Queue ready is executed on the state that entered names, with the descriptor that taken names. -/
theorem rowCmd_atOnce {s : State} {q : Fin 32} (hready : AtOnce s q) (f : Taken → State → State) (op : Nat) (d : CmdArgs) :
    s.rowCmd f op q d = f (taken s q op d) (entered s q op d) := by
  obtain ⟨htake, hfence, hwait⟩ := hready
  have hbegin : s.rowCmd f op q d = (entered s q op d).begin (taken s q op d) f := by
    rw [← took_eq_entered, State.rowCmd, if_pos htake]
    rfl
  have hheld : ((entered s q op d).fenced q || !((entered s q op d).qs[q]).waiting.isEmpty) = false := by
    rw [entered_fenced, hfence, entered_waiting, hwait]
    rfl
  rw [hbegin]
  exact if_neg (Bool.eq_false_iff.mp hheld)

/-- The opcodes of the table fit the descriptor's field. -/
theorem opRow_ofNat {op : Nat} {r : OpRow} (hr : opRow op = some r) : opRow (BitVec.ofNat 16 op).toNat = some r := by
  have hfits : ∀ r ∈ opTable, r.op < 2 ^ 16 := by decide
  have hop : r.op = op := by simpa using List.find?_some hr
  rw [BitVec.toNat_ofNat, Nat.mod_eq_of_lt (hop ▸ hfits r (List.mem_of_find?_eq_some hr)), hr]

/-- R406, R433: a command that a plain status turns away completes with it, and nothing else of the machine changes. -/
theorem exec_turnedAway {c : Instr} {op : Nat} {q : Fin 32} {d : CmdArgs} {r : OpRow} {x : Nat} {s : State}
    (hrow : rowOf c = some (op, q, d)) (hready : AtOnce s q) (hr : opRow op = some r)
    (hst : firstStatus (allChecks c r s q op d) = some x) (hx : x ∈ plainStatus) :
    ∃ t res, exec c s = .next t ∧ t = (entered s q op d).refuse (taken s q op d) x res ∧
      SameMachine (entered s q op d) t := by
  obtain ⟨f, hexec, haway⟩ := exec_rowCmd_turnsAway hrow
  obtain ⟨res, hrefuse⟩ := haway (taken s q op d) (entered s q op d) r x (opRow_ofNat hr) hst hx
  refine ⟨_, res, ?_, rfl, refuse_sameMachine ..⟩
  rw [hexec, rowCmd_atOnce hready, hrefuse]

/-! ### A descriptor that breaks its form -/

/-- R7, R388: the faults of a descriptor's form; the PARAM bytes of a configuration command have rules of their own (R436). -/
def BadForm (r : OpRow) (t : Taken) : Prop :=
  t.d.rsv ≠ 0#16 ∨ (t.d.flags >>> 2) ≠ 0#16 ∨ t.d.doff.toNat * 16 + t.d.dlen.toNat > 8192 ∨
    (t.hasArea = false ∧ (t.d.doff ≠ 0#16 ∨ t.d.dlen ≠ 0#16)) ∨ (t.hasCred = true ∧ t.hasArea = false) ∨
    (r.cfg = false ∧ paramClear r.used t = false)

theorem badParam_mem_baseChecks {r : OpRow} {t : Taken} (hbad : BadForm r t) (s : State) : (0x22, true) ∈ baseChecks r t s := by
  rcases hbad with hrsv | hflags | harea | ⟨hdata, hplace | hlen⟩ | ⟨hcred, hdata⟩ | ⟨hcfg, hparam⟩
  · simp [baseChecks, hrsv]
  · simp [baseChecks, hflags]
  · simp [baseChecks, harea]
  · simp [baseChecks, hdata, hplace]
  · simp [baseChecks, hdata, hlen]
  · simp [baseChecks, hcred, hdata]
  · simp [baseChecks, hcfg, hparam]

/-- Settles O10: the fault of the descriptor makes 0x22 the first status, and a plain status turns the command away. -/
theorem badDescriptorCompletesWithBadParam : Obligations.BadDescriptorCompletesWithBadParam := by
  intro c op q d r s hrow hready hr hbefore hbad
  have hchecks : (0x22, true) ∈ allChecks c r s q op d :=
    List.mem_append_left _ (badParam_mem_baseChecks (t := taken s q op d) hbad _)
  exact exec_turnedAway hrow hready hr (firstStatus_eq_badParam hbefore hchecks) (by decide)

end Sys2Proof.Stated
end

section
/-! PROOFS. CH_OFF of a driven Class A Channel without a credential is refused (R28). -/

namespace Sys2Proof.Machine

open Sys2Proof

/-- R406: a status that applies is the first one where none of those before it in the order does. -/
theorem firstStatus_eq_of_split {cs : List (Nat × Bool)} {pre post : List Nat} {x : Nat}
    (horder : statusOrder = pre ++ x :: post) (hbefore : ∀ p ∈ cs, p.1 ∈ pre → p.2 = false) (happlies : (x, true) ∈ cs) :
    firstStatus cs = some x := by
  have hnone (c : Nat) (hc : c ∈ pre) : (cs.any fun p => p.1 == c && p.2) = false := by
    rw [List.any_eq_false]
    intro p hp hboth
    obtain ⟨hpc, hp2⟩ : p.1 = c ∧ p.2 = true := by simpa using hboth
    exact absurd hp2 (by simp [hbefore p hp (hpc ▸ hc)])
  have hsome : (cs.any fun p => p.1 == x && p.2) = true := List.any_eq_true.mpr ⟨_, happlies, by simp⟩
  rw [firstStatus, horder, List.find?_append, List.find?_eq_none.mpr fun c hc => by simp [hnone c hc]]
  simp [hsome]

/-- R28: a command that needs a credential, has none that verifies and passes the checks before that one completes with 0x10. -/
theorem State.guardedCred_eq_refuse_noCred {s : State} {t : Taken} {need : Bool} {extra : List (Nat × Bool)} {r : OpRow}
    (hr : opRow t.op.toNat = some r) (hneed : need = true) (hcred : s.credOk t = false)
    (hbefore : ∀ p ∈ baseChecks r t s ++ (0x10, true) :: extra, p.1 ∈ [0x20, 0x41, 0x21, 0x22, 0x40] → p.2 = false)
    (eff : State → State) : s.guardedCred t need extra eff = s.refuse t 0x10 := by
  have hfirst : firstStatus (baseChecks r t s ++ (0x10, true) :: extra) = some 0x10 :=
    firstStatus_eq_of_split (post := [0x12, 0x11]) rfl hbefore (by simp)
  simp [State.guardedCred, State.guarded, hneed, hcred, hr, hfirst]

end Sys2Proof.Machine

namespace Sys2Proof.Stated

open Sys2Proof Sys2Proof.Machine

@[simp] theorem entered_ch (s : State) (q : Fin 32) (op : Nat) (d : CmdArgs) : (entered s q op d).ch = s.ch := by
  unfold entered
  dsimp only
  split <;> rfl

/-- The Channel that a TARGET of Table 12.1 names. -/
theorem chIx_taken {s : State} {q : Fin 32} {op : Nat} {d : CmdArgs} {n : Fin 64} (htarget : d.target.toNat = n.val) :
    chIx (taken s q op d) = n :=
  Fin.ext ((congrArg (· % 64) htarget).trans (Nat.mod_eq_of_lt n.isLt))

/-- Settles O11: 0x10 is the first status, and a command turned away leaves Channels and open commands as they were. -/
theorem classAOffWithoutCredentialIsRefused : Obligations.ClassAOffWithoutCredentialIsRefused := by
  intro q d s n hready htarget hclassA hdriven ⟨r, hr, hbefore⟩ hcred
  have hneed : (((entered s q 0x0102 d).ch[chIx (taken s q 0x0102 d)]).tmb.classA &&
      driven ((entered s q 0x0102 d).ch[chIx (taken s q 0x0102 d)]).st && targetOk .channel (taken s q 0x0102 d)) = true := by
    have hplace : (taken s q 0x0102 d).target < 64 := lt_of_eq_of_lt htarget n.isLt
    simp [chIx_taken htarget, hclassA, hdriven, targetOk, hplace, -Fin.getElem_fin]
  simp only [allChecks, ownChecks, hneed, hcred, Bool.not_false, Bool.and_true] at hbefore
  have hexec : exec (.chOff q d) s = .next ((entered s q 0x0102 d).complete (taken s q 0x0102 d) 0x10 none) := by
    show Host.Outcome.next (s.rowCmd cmdChOff 0x0102 q d) = _
    rw [rowCmd_atOnce hready, cmdChOff, State.guardedCred_eq_refuse_noCred (opRow_ofNat hr) hneed hcred hbefore]
    rfl
  refine ⟨hexec, fun t ht => ?_⟩
  obtain rfl : _ = t := Host.Outcome.next.inj (hexec.symm.trans ht)
  exact ⟨(State.complete_ch ..).trans (entered_ch ..), (close_sameOpen ..).trans (SameOpen.of_outs (entered_outs ..))⟩

end Sys2Proof.Stated
end

section
/-! PROOFS. A Tumbler field takes only a tighter value after lock (R538). -/

namespace Sys2Proof.Machine

open Sys2Proof

/-- The limits in force stand in the Channels and in the zone's fields of Tumbler. -/
theorem State.tmbCur_congr {s t : State} (hch : t.ch = s.ch) (hzone : t.tmb.zone = s.tmb.zone) : t.tmbCur = s.tmbCur := by
  funext f n hi
  simp only [State.tmbCur, hch, hzone]

@[simp] theorem State.iceRecord_tmbCur (s : State) (c o v : Nat) (p : List Byte) :
    (s.iceRecord c o v p).tmbCur = s.tmbCur :=
  State.tmbCur_congr (by simp) (by simp)

@[simp] theorem State.tmbClamp_tmbCur (s : State) (n : Fin 64) (field req : Nat) :
    (s.tmbClamp n field req).tmbCur = s.tmbCur :=
  State.tmbCur_congr (by simp [State.tmbClamp]) (by simp [State.tmbClamp])

theorem when_tmbCur {f : State → State} (hf : ∀ s, (f s).tmbCur = s.tmbCur) (b : Bool) (s : State) :
    (when b f s).tmbCur = s.tmbCur := by
  cases b
  · rfl
  · exact hf s

@[simp] theorem State.tmbCeilings_tmbCur (s : State) (n : Fin 64) (tc ti : Bool) :
    (s.tmbCeilings n tc ti).tmbCur = s.tmbCur := by
  unfold State.tmbCeilings
  split
  · rfl
  · exact (when_tmbCur (fun u => u.tmbClamp_tmbCur ..) _ _).trans (when_tmbCur (fun u => u.tmbClamp_tmbCur ..) _ _)

/-- A value that is put in force is the one in force, for every field but CLASSA, which has no write. -/
theorem State.tmbPut_tmbCur_same (s : State) {f : TmbField} (n : Fin 64) (hi : Bool) (v : Nat) (hf : f ≠ .classA) :
    (s.tmbPut f n hi v).tmbCur f n hi = v := by
  cases f with
  | classA => exact absurd rfl hf
  | buckWin | boostWin => cases hi <;> rfl
  | slewCap | nphMax | hCap => rfl
  | maxCode | tInrush | soaCeil | tcCeil | tiCeil | retryMin | rateMax =>
    simp only [State.tmbPut, State.tmbCur, State.updCh_same]

/-- An accepted value is tighter than the one in force, and its field is not CLASSA. -/
theorem State.tighter_of_tmbAccepts {s : State} {f : TmbField} {n : Fin 64} {hi : Bool} {v : Nat}
    (h : s.tmbAccepts f n hi v = true) : f ≠ .classA ∧ tmbTighter f hi v (s.tmbCur f n hi) = true := by
  simp only [State.tmbAccepts, Bool.and_eq_true, bne_iff_ne] at h
  obtain ⟨⟨⟨hf, -⟩, htight⟩, -⟩ := h
  exact ⟨hf, htight⟩

variable {s : State} {f : TmbField} {n : Fin 64} {hi : Bool} {v : Nat}

/-- A write of the internal port reaches Tumbler: Frames run, Tumbler is locked, and the word of a Channel's limit is not lost. -/
def State.TightenReaches (s : State) (f : TmbField) (n : Fin 64) : Prop :=
  s.live = true ∧ s.tmb.locked = true ∧ (tmbIsZone f = true ∨ s.linkLost.contains (.limit n) = false)

/-- The condition of execTumblerTighten for a Channel of the chip. -/
theorem State.TightenReaches.guard (h : s.TightenReaches f n) :
    ((tmbIsZone f || decide ((n : Nat) < 64)) && s.live && s.tmb.locked &&
      (tmbIsZone f || !s.linkLost.contains (.limit (finOf 64 n (by decide))))) = true := by
  obtain ⟨hlive, hlocked, hword⟩ := h
  have hn : finOf 64 n (by decide) = n := Fin.ext (Nat.mod_eq_of_lt n.isLt)
  rw [hn]
  rcases hword with hzone | hkept
  · simp [hlive, hlocked, hzone]
  · simp [hlive, hlocked, hkept, -List.contains_eq_mem]

/-- An accepted value is in force from the write on. -/
theorem exec_tumblerTighten_accepted (hreach : s.TightenReaches f n) (hacc : s.tmbAccepts f n (hi && tmbIsWin f) v = true) :
    ∃ t, exec (.tumblerTighten f n hi v) s = .next t ∧ t.tmbCur f n (hi && tmbIsWin f) = v := by
  refine ⟨_, congrArg Host.Outcome.next (if_pos hreach.guard), ?_⟩
  simp only [n.isLt, dite_true, hacc, if_true]
  rw [State.tmbCeilings_tmbCur, State.iceRecord_tmbCur]
  exact s.tmbPut_tmbCur_same n _ v (State.tighter_of_tmbAccepts hacc).1

/-- A refused write leaves a record alone. -/
theorem exec_tumblerTighten_refused (hreach : s.TightenReaches f n) (href : s.tmbAccepts f n (hi && tmbIsWin f) v = false) :
    ∃ t, exec (.tumblerTighten f n hi v) s = .next t ∧ t.tmb = s.tmb ∧ t.ch = s.ch := by
  refine ⟨_, congrArg Host.Outcome.next (if_pos hreach.guard), ?_⟩
  simp only [n.isLt, dite_true, href, Bool.false_eq_true, if_false]
  exact ⟨State.iceRecord_tmb .., State.iceRecord_ch ..⟩

end Sys2Proof.Machine

namespace Sys2Proof.Stated

open Sys2Proof Sys2Proof.Machine

/-- Settles O43: an accepted value is tighter and put in force, and a refused write leaves a record alone. -/
theorem tumblerOnlyTightens : Obligations.TumblerOnlyTightens := by
  intro s f n hi v hlive hlocked hword
  have hreach : s.TightenReaches f n := ⟨hlive, hlocked, hword⟩
  cases hacc : s.tmbAccepts f n (hi && tmbIsWin f) v with
  | true =>
    obtain ⟨t, hexec, hcur⟩ := exec_tumblerTighten_accepted hreach hacc
    have htight := (State.tighter_of_tmbAccepts hacc).2
    exact ⟨t, hexec, fun _ => ⟨hcur, htight⟩, fun h => (nomatch hacc.symm.trans h),
      fun h => (nomatch htight.symm.trans h)⟩
  | false =>
    obtain ⟨t, hexec, htmb, hch⟩ := exec_tumblerTighten_refused hreach hacc
    exact ⟨t, hexec, fun h => (nomatch hacc.symm.trans h), fun _ => ⟨htmb, hch⟩,
      fun _ => by rw [State.tmbCur_congr hch (by rw [htmb])]⟩

end Sys2Proof.Stated
end

section
/-! PROOFS. Clock monitors: the switch to the RC oscillator, the links that go down with it, and the relock (R54-R57, R60). -/

namespace Sys2Proof.Machine

open Sys2Proof

/-- What each round keeps of the state before it, in a relation that composes, all of them keep. -/
theorem overL_rel {α : Type} {R : State → State → Prop} (hrefl : ∀ s, R s s) (htrans : ∀ {s t u}, R s t → R t u → R s u)
    (l : List α) (f : α → State → State) (hf : ∀ x u, R u (f x u)) (s : State) : R s (overL l f s) := by
  induction l generalizing s with
  | nil => exact hrefl s
  | cons x l ih => exact htrans (hf x s) (ih (f x s))

/-! ### A link that goes down -/

/-- Nothing but the transmit side and the records changes, and each link keeps its state. -/
def LinksKept (s t : State) : Prop := ∃ n i, t = { s with net := n, ice := i } ∧ n.up = s.net.up

theorem LinksKept.refl (s : State) : LinksKept s s := ⟨s.net, s.ice, rfl, rfl⟩

theorem LinksKept.trans {s t u : State} (h : LinksKept s t) (k : LinksKept t u) : LinksKept s u := by
  obtain ⟨n, i, rfl, hn⟩ := h
  obtain ⟨m, j, rfl, hm⟩ := k
  exact ⟨m, j, rfl, hm.trans hn⟩

theorem Net.up_congr {n m : Net} (h1 : n.up1 = m.up1) (hS : n.upS = m.upS) : n.up = m.up := by
  funext l
  cases l
  · exact h1
  · exact hS

theorem State.updNet_linksKept (s : State) {f : Net → Net} (h1 : (f s.net).up1 = s.net.up1) (hS : (f s.net).upS = s.net.upS) :
    LinksKept s (s.updNet f) :=
  ⟨f s.net, s.ice, rfl, Net.up_congr h1 hS⟩

theorem State.iceRecord_linksKept (s : State) (c o v : Nat) (p : List Byte) : LinksKept s (s.iceRecord c o v p) := by
  obtain ⟨i, hi⟩ := s.iceRecord_ex c o v p
  exact ⟨s.net, i, hi, rfl⟩

theorem State.sendNd_linksKept (s : State) (l : Link) (solicit : Bool) (target dst : BitVec 128) :
    LinksKept s (s.sendNd l solicit target dst) :=
  ⟨_, s.ice, rfl, Net.up_congr rfl rfl⟩

theorem State.resolveNodes_linksKept (s : State) (l o : Link) : LinksKept s (s.resolveNodes l o) :=
  overL_rel LinksKept.refl LinksKept.trans _ _ (fun e u => by
    split
    · exact u.sendNd_linksKept ..
    · exact LinksKept.refl u) s

/-- What a lost link carried moves; no link goes up or down with it. -/
theorem State.linkMove_linksKept (s : State) (l : Link) : LinksKept s (s.linkMove l) := by
  unfold State.linkMove
  extract_lets o mv s1
  have hmoved : LinksKept s s1 := by
    unfold s1
    split
    · exact ((s.resolveNodes_linksKept ..).trans (State.updNet_linksKept _ rfl rfl)).trans (State.iceRecord_linksKept ..)
    · exact LinksKept.refl s
  split
  · exact hmoved.trans (State.updNet_linksKept _ rfl rfl)
  · exact hmoved

/-- R56: where Frames run, a link that is taken down is down, and the other one stays as it was. -/
theorem State.linkTo_down {s : State} (l : Link) (hlive : s.live = true) :
    ∃ n i, s.linkTo l false = { s with net := n, ice := i } ∧ n.up l = false ∧ n.up (otherLink l) = s.net.up (otherLink l) := by
  cases hup : s.net.up l with
  | false => exact ⟨s.net, s.ice, by simp [State.linkTo, hup], hup, rfl⟩
  | true =>
    have hstep (m : Net) (hl : m.up l = false) (ho : m.up (otherLink l) = s.net.up (otherLink l))
        (h : s.linkTo l false = ((s.updNet fun _ => m).iceRecord 0x0724 rDevice 1 (le 1 (linkIx l) ++ le 1 (bit false))).linkMove l) :
        ∃ n i, s.linkTo l false = { s with net := n, ice := i } ∧ n.up l = false ∧
          n.up (otherLink l) = s.net.up (otherLink l) := by
      obtain ⟨n, i, hn, hkept⟩ := (State.iceRecord_linksKept (s.updNet fun _ => m) ..).trans (State.linkMove_linksKept _ l)
      exact ⟨n, i, h.trans hn, (congrFun hkept l).trans hl, (congrFun hkept _).trans ho⟩
    cases l with
    | t1 => exact hstep (Net.setMka { s.net with up1 := false } .t1 0) rfl rfl (by simp [State.linkTo, hlive, hup]; rfl)
    | t1s => exact hstep (Net.setMka { s.net with upS := false } .t1s 0) rfl rfl (by simp [State.linkTo, hlive, hup]; rfl)

/-- R56: both links go down, and nothing but the transmit side and the records changes. -/
theorem State.linksDown {s : State} (hlive : s.live = true) :
    ∃ n i, (s.linkTo .t1 false).linkTo .t1s false = { s with net := n, ice := i } ∧ n.up1 = false ∧ n.upS = false := by
  obtain ⟨n, i, hfirst, h1, -⟩ := State.linkTo_down .t1 hlive
  obtain ⟨m, j, hsecond, hS, hother⟩ := State.linkTo_down (s := { s with net := n, ice := i }) .t1s hlive
  exact ⟨m, j, by rw [hfirst, hsecond], hother.trans h1, hS⟩

/-! ### Events kept for the start -/

theorem State.keepEvent_ex (s : State) (c o : Nat) (p : List Byte) : ∃ i, s.keepEvent c o p = { s with ice := i } := by
  unfold State.keepEvent
  split
  · exact ⟨_, rfl⟩
  · exact ⟨_, rfl⟩

section
variable (s : State) (c o : Nat) (p : List Byte)
@[simp] theorem State.keepEvent_pw : (s.keepEvent c o p).pw = s.pw := by obtain ⟨i, h⟩ := s.keepEvent_ex c o p; rw [h]
@[simp] theorem State.keepEvent_clk : (s.keepEvent c o p).clk = s.clk := by obtain ⟨i, h⟩ := s.keepEvent_ex c o p; rw [h]
@[simp] theorem State.keepEvent_fr : (s.keepEvent c o p).fr = s.fr := by obtain ⟨i, h⟩ := s.keepEvent_ex c o p; rw [h]
@[simp] theorem State.keepEvent_ch : (s.keepEvent c o p).ch = s.ch := by obtain ⟨i, h⟩ := s.keepEvent_ex c o p; rw [h]
@[simp] theorem State.keepEvent_hpt : (s.keepEvent c o p).hpt = s.hpt := by obtain ⟨i, h⟩ := s.keepEvent_ex c o p; rw [h]
end

/-- R526: an event outside the limited kinds is kept for the start. -/
theorem State.keepEvent_unlimited (s : State) {c : Nat} (o : Nat) (p : List Byte) (hc : keptLimited c = false) :
    s.keepEvent c o p = { s with ice := { s.ice with kept := s.ice.kept ++ [(c, o, p)] } } := by
  simp [State.keepEvent, hc]

@[simp] theorem State.wmHold_st (s : State) (n : Fin 64) : (s.wmHold n).st = (s.ch[n]).st := by
  unfold State.wmHold
  dsimp only
  split <;> rfl

/-! ### The clock events -/

/-- The chip on the RC oscillator before its links go down: the references and generators have moved, the actuators freeze, and
the fault is recorded (R54, R55, R173, R194). -/
def State.onRc (s : State) : State :=
  (((((s.mapCh fun n _ => s.wmHold n).gensToRc.updClk fun c => { c with rc := true, relocking := true }).updFr
    fun f => { f with freeze := true }).setFault 2).iceRecord 0x0D01 rDevice 2 (le 1 0 ++ le 1 0)).iceRecord 0x0C01 rDevice 0
    (le 1 4 ++ le 1 0 ++ le 1 0)

theorem State.onRc_pw (s : State) : s.onRc.pw = s.pw := by simp [State.onRc, State.gensToRc]

theorem State.onRc_clk (s : State) : s.onRc.clk = { s.clk with rc := true, relocking := true } := by
  simp [State.onRc, State.gensToRc]

theorem State.onRc_fr (s : State) : s.onRc.fr = { s.fr with freeze := true } := by simp [State.onRc, State.gensToRc]

theorem State.onRc_hpt (s : State) : s.onRc.hpt.getLsbD 2 = true := by simp [State.onRc]

theorem State.onRc_st (s : State) (n : Fin 64) : (s.onRc.ch[n]).st = (s.ch[n]).st := by simp [State.onRc, State.gensToRc]

theorem State.onRc_live (s : State) : s.onRc.live = s.live := by rw [State.live, s.onRc_pw, s.onRc_fr, State.live]

theorem State.running_of_live {s : State} (hlive : s.live = true) : s.pw.logic = .running := by
  simp only [State.live, Bool.and_eq_true, beq_iff_eq] at hlive
  exact hlive.1

/-- R55, R56: while Frames run a crystal fault also takes the links down. -/
theorem exec_crystalFault_live {s : State} (hlive : s.live = true) (hrc : s.clk.rc = false) :
    exec .crystalFault s = .next ((s.onRc.linkTo .t1 false).linkTo .t1s false) := by
  simp only [exec, execCrystalFault, State.running_of_live hlive, hrc, hlive, bne_self_eq_false, Bool.or_self, Bool.not_true,
    Bool.false_eq_true, if_false, State.onRc]

/-- R54: before step 6 a crystal fault moves the references, and relocks PLLs that have locked; its records wait for the start. -/
theorem exec_crystalFault_start {s : State} (hrun : s.pw.logic = .running) (hlive : s.live = false) (hrc : s.clk.rc = false) :
    exec .crystalFault s = .next
      ((((s.updClk fun c => { c with rc := true, relocking := decide (4 ≤ s.pw.step) }).setFault 2).keepEvent 0x0D01 rDevice
        (le 1 0 ++ le 1 0)).keepEvent 0x0C01 rDevice (le 1 4 ++ le 1 0 ++ le 1 0)) := by
  simp [exec, execCrystalFault, hrun, hlive, hrc]

/-- R60: at the end of step 4 the block goes on with the RC oscillator, a spare whose record is kept for the start (R39). -/
theorem exec_crystalStartTimeout {s : State} (hrun : s.pw.logic = .running) (hstep : s.pw.step = 3) :
    exec .crystalStartTimeout s = .next { s with
      clk := { s.clk with rc := true }
      ice := { s.ice with kept := s.ice.kept ++ [(0x0C01, rDevice, [4, 0, 0])] } } := by
  simp only [exec, execCrystalStartTimeout, hrun, hstep, beq_self_eq_true, Bool.and_self, if_true,
    State.keepEvent_unlimited _ _ _ (show keptLimited 0x0C01 = false from rfl)]
  rfl

end Sys2Proof.Machine

namespace Sys2Proof.Stated

open Sys2Proof Sys2Proof.Machine

/-- Settles O28: each event by its own equation; the links of a running chip go down after its references have moved. -/
theorem clockMonitorsAct : Obligations.ClockMonitorsAct := by
  refine ⟨fun s hlive hrc => ?_, fun s hrun hlive hrc => ?_, fun s hrelock hok => ?_, fun s hrun hok => ?_,
    fun s hrun hstep => ?_⟩
  · obtain ⟨n, i, hdown, h1, hS⟩ := State.linksDown (s.onRc_live.trans hlive)
    refine ⟨_, (exec_crystalFault_live hlive hrc).trans (congrArg _ hdown), ?_, ?_, ?_, ?_, s.onRc_hpt, h1, hS, s.onRc_st⟩
    · simp [s.onRc_clk]
    · simp [s.onRc_clk]
    · simp [s.onRc_fr]
    · simp [s.onRc_fr]
  · refine ⟨_, exec_crystalFault_start hrun hlive hrc, ?_, ?_, ?_, ?_⟩
    · simp
    · simp
    · simp
    · simp
  · simp [exec, execPllRelock, hrelock, hok, State.updClk]
  · cases hlive : s.live with
    | true => exact ⟨_, by simp [exec, execRcOscillatorFault, hrun, hok, hlive]; rfl, by simp⟩
    | false => exact ⟨_, by simp [exec, execRcOscillatorFault, hrun, hok, hlive]; rfl, by simp⟩
  · exact ⟨_, exec_crystalStartTimeout hrun hstep, rfl, rfl, rfl, fun _ => ⟨rfl, rfl⟩⟩

end Sys2Proof.Stated
end

section
/-! PROOFS. A double-bit error in a Queue's ring need not leave the Queue STOPPED (Table 1.5, Table 11.8). -/

namespace Sys2Proof.Stated

open Sys2Proof Sys2Proof.Machine

/-- A FENCE of Queue 0. -/
def selfFence : Taken := { (default : Taken) with q := 0, op := 0x0701 }

/-- Queue 0 is in RUN, one running command keeps back its DISABLED state, and this command is a FENCE that waits for itself. No run
reaches the state, as a FENCE leaves its own Queue out of its scope (R415); the statement ranges over every state. -/
def selfFencedState : State :=
  { (State.reset.updQ 0 fun k => { k with st := .run, disabling := true, nTaken := 1 }) with
    pw := { State.reset.pw with logic := .running }
    outs := [⟨selfFence, 0, .fence [(0, 0)] 0⟩] }

/-- The state in which a step leaves Queue 0. -/
def queue0After : Host.Outcome State Fault Refusal → Option QState
  | .next t => some (t.qs[(0 : Fin 32)]).st
  | _ => none

/-- The stop of the Queue ends the FENCE with 0x31 (R419), and with the last command gone the Queue becomes DISABLED. -/
theorem eccDouble_disables_selfFenced :
    queue0After (exec (.eccDouble .queueMem 0x40000000 .other) selfFencedState) = some .disabled := by
  decide +kernel

/-- Refutes O40: a double-bit error at the start of the ring of Queue 0 leaves the Queue DISABLED where its only running command is a
FENCE that waits for itself and keeps back a disable. -/
theorem not_memoryErrorsActByTable15 : ¬ Obligations.MemoryErrorsActByTable15 := by
  rintro ⟨-, -, -, -, -, -, -, hstops, -⟩
  obtain ⟨t, hexec, hst⟩ := hstops selfFencedState 0x40000000 .other 0 0 (by decide +kernel) (by decide +kernel)
    (by decide +kernel) (by decide +kernel) (by decide +kernel) (by decide +kernel)
  have hdisabled := eccDouble_disables_selfFenced
  rw [hexec, queue0After, hst] at hdisabled
  exact absurd hdisabled (by decide)

end Sys2Proof.Stated
end

section
/-! PROOFS. The comparator takes the gates of a set low at once; a HELD Channel trips and wakes the block (R178, R187, R191). -/

namespace Sys2Proof.Machine

open Sys2Proof

/-! ### The same update of several Channels -/

section
variable (g : State → Chan → Chan)

theorem overL_updCh_ex (l : List (Fin 64)) (s : State) : ∃ v, overL l (fun m u => u.updCh m (g u)) s = { s with ch := v } :=
  overL_rel (R := fun s t => ∃ v, t = { s with ch := v }) (fun s => ⟨s.ch, rfl⟩)
    (fun ⟨_, h⟩ ⟨w, k⟩ => ⟨w, by rw [k, h]⟩) l _ (fun _ _ => ⟨_, rfl⟩) s

theorem overL_updCh_notMem {l : List (Fin 64)} {m : Fin 64} (hm : m ∉ l) (s : State) :
    (overL l (fun m u => u.updCh m (g u)) s).ch[m] = s.ch[m] := by
  induction l generalizing s with
  | nil => rfl
  | cons x l ih =>
    obtain ⟨hx, hl⟩ := not_or.mp (List.mem_cons.not.mp hm)
    exact (ih hl _).trans (State.updCh_other _ _ _ _ hx)

/-- What an update gives a Channel, in every state, each of the updated ones has at the end. -/
theorem overL_updCh_mem {P : Chan → Prop} (hP : ∀ u c, P (g u c)) {l : List (Fin 64)} {m : Fin 64} (hm : m ∈ l) (s : State) :
    P ((overL l (fun m u => u.updCh m (g u)) s).ch[m]) := by
  induction l generalizing s with
  | nil => exact absurd hm List.not_mem_nil
  | cons x l ih =>
    by_cases hl : m ∈ l
    · exact ih hl _
    · obtain rfl : m = x := (List.mem_cons.mp hm).resolve_right hl
      show P ((overL l _ (s.updCh m (g s))).ch[m])
      rw [overL_updCh_notMem g hl, State.updCh_same]
      exact hP s _

end

/-- A Channel is a member of its set. -/
theorem State.self_mem_members (s : State) (n : Fin 64) : n ∈ s.members n := by
  have hplace : (s.leaderOf n).1.val ≤ n.val ∧ n.val < (s.leaderOf n).1.val + (s.leaderOf n).2 := by
    unfold State.leaderOf
    dsimp only
    split
    · dsimp only; omega
    · split
      · dsimp only; omega
      · dsimp only; omega
  simp [State.members, allCh, hplace, -Fin.val_fin_le]

/-! ### The latch of a comparator trip -/

theorem State.compLatch_ex (s : State) (n : Fin 64) : ∃ v, s.compLatch n = { s with ch := v } := by
  obtain ⟨v, hv⟩ := overL_updCh_ex (fun u c => { c.probeOff u.fr.count with latch := true, gate := .low, gateNext := .low })
    (s.members n) s
  exact ⟨_, by rw [State.compLatch, hv]; rfl⟩

/-- The Channel that tripped is marked for S1. -/
theorem State.compLatch_cmpTrip (s : State) (n : Fin 64) : ((s.compLatch n).ch[n]).cmpTrip = true := by
  rw [State.compLatch, State.updCh_same]

/-- Every gate of the set is low and latched. -/
theorem State.compLatch_member (s : State) {n m : Fin 64} (hm : m ∈ s.members n) :
    ((s.compLatch n).ch[m]).gate = .low ∧ ((s.compLatch n).ch[m]).gateNext = .low ∧ ((s.compLatch n).ch[m]).latch = true := by
  have hlow := overL_updCh_mem (fun u c => { c.probeOff u.fr.count with latch := true, gate := .low, gateNext := .low })
    (P := fun c => c.gate = .low ∧ c.gateNext = .low ∧ c.latch = true) (fun _ _ => ⟨rfl, rfl, rfl⟩) hm s
  rw [State.compLatch]
  by_cases hmn : m = n
  · subst hmn
    rw [State.updCh_same]
    exact hlow
  · rw [State.updCh_other _ _ _ _ hmn]
    exact hlow

/-- A Channel outside the set is left alone. -/
theorem State.compLatch_other (s : State) {n m : Fin 64} (hm : m ∉ s.members n) : (s.compLatch n).ch[m] = s.ch[m] := by
  have hmn : m ≠ n := fun h => hm (h ▸ s.self_mem_members n)
  rw [State.compLatch, State.updCh_other _ _ _ _ hmn]
  exact overL_updCh_notMem _ hm s

/-! ### Discharge sinks -/

/-- Nothing but the discharge sinks of Channels changes. -/
def SinksOnly (s t : State) : Prop := (∃ v, t = { s with ch := v }) ∧ ∀ n : Fin 64, ∃ k, t.ch[n] = { s.ch[n] with sink := k }

theorem SinksOnly.refl (s : State) : SinksOnly s s := ⟨⟨s.ch, rfl⟩, fun n => ⟨(s.ch[n]).sink, rfl⟩⟩

theorem SinksOnly.trans {s t u : State} (h : SinksOnly s t) (k : SinksOnly t u) : SinksOnly s u := by
  obtain ⟨⟨v, hv⟩, hsink⟩ := h
  obtain ⟨⟨w, hw⟩, ksink⟩ := k
  refine ⟨⟨w, by rw [hw, hv]⟩, fun n => ?_⟩
  obtain ⟨a, ha⟩ := hsink n
  obtain ⟨b, hb⟩ := ksink n
  exact ⟨b, hb.trans (by rw [ha])⟩

theorem State.sinkOn_sinksOnly (s : State) (n : Fin 64) : SinksOnly s (s.updCh n fun c => { c with sink := .active }) := by
  refine ⟨⟨_, rfl⟩, fun m => ?_⟩
  by_cases hm : m = n
  · subst hm
    exact ⟨.active, s.updCh_same m _⟩
  · exact ⟨(s.ch[m]).sink, s.updCh_other n m _ hm⟩

/-- R165: placing the active sink of each Bank changes sinks alone. -/
theorem State.placeSinks_sinksOnly (s : State) : SinksOnly s s.placeSinks :=
  overL_rel SinksOnly.refl SinksOnly.trans _ _ (fun b u => by
    dsimp only
    split
    · exact SinksOnly.refl u
    · split
      · exact SinksOnly.refl u
      · exact u.sinkOn_sinksOnly _) s

/-! ### The trip of a HELD Channel while the logic die is off -/

@[simp] theorem Chan.probeOff_st (c : Chan) (now : Nat) : (c.probeOff now).st = c.st := by
  unfold Chan.probeOff
  split <;> rfl

/-- A driven Channel that changes to a state without drive has its gate low. -/
theorem Chan.change_gate_low {c : Chan} {dst : ChState} (hdriven : driven c.st = true) (hdst : driven dst = false)
    (now drive disch : Nat) (cause : Cause) (mask detail : Nat) (tag : Word) :
    (c.change now drive disch dst cause mask detail tag).gate = .low := by
  simp [Chan.change, hdriven, hdst]

/-- A set of one Channel makes its transition on the drive die. -/
theorem State.compHeld_single {s : State} {n : Fin 64} (hset : s.members n = [n]) (hdriven : driven (s.ch[n]).st = true) :
    ((s.compHeld n).ch[n]).st = .tripped ∧ ((s.compHeld n).ch[n]).cause = .comparator ∧ ((s.compHeld n).ch[n]).gate = .low := by
  simp only [State.compHeld, hset, overL, List.foldl_cons, List.foldl_nil, beq_self_eq_true, Bool.true_or, if_true,
    State.keepEvent_ch, State.updCh_same]
  exact ⟨rfl, rfl, Chan.change_gate_low hdriven rfl ..⟩

@[simp] theorem State.compHeld_pw (s : State) (n : Fin 64) : (s.compHeld n).pw = s.pw :=
  overL_rel (R := fun s t => t.pw = s.pw) (fun _ => rfl) (fun h k => k.trans h) _ _ (fun _ _ => by simp) s

@[simp] theorem State.placeSinks_pw (s : State) : s.placeSinks.pw = s.pw := by
  obtain ⟨⟨v, hv⟩, -⟩ := s.placeSinks_sinksOnly
  rw [hv]

/-- R84: in Dormant a wake source starts the block, and the Channels stay as they are. -/
theorem State.wakeFire_dormant {s : State} (hdormant : s.pw.mode = .dormant) (src : Nat) :
    (s.wakeFire src).pw.mode = .start ∧ (s.wakeFire src).pw.wakeSrc = src ∧ (s.wakeFire src).ch = s.ch := by
  simp [State.wakeFire, State.wakeNow, hdormant]

/-! ### The event -/

section
variable {s : State} {n : Fin 64} {uv : Int} {ns : Nat}

/-- R178, R191: while Frames run the drive die latches the trip, and S1 takes it from there. -/
theorem exec_comparatorTrip_live (hlive : s.live = true) (hoff : s.pw.mode ≠ .off) (hshut : s.pw.mode ≠ .shutdown)
    (hdriven : driven (s.ch[n]).st = true) (hlatch : (s.ch[n]).latch = false) (hdrives : s.drives = true)
    (hheld : (s.ch[n]).st ≠ .held) (htrips : s.cmpTrips n uv ns = true) :
    exec (.comparatorTrip ⟨n, uv, ns⟩) s = .next (s.compLatch n) := by
  simp [exec, execComparatorTrip, hlive, hoff, hshut, hdriven, hlatch, hdrives, hheld, htrips, -Fin.getElem_fin]

/-- A Channel that is not driven, whose latch is set or whose comparator does not trip is left alone. -/
theorem exec_comparatorTrip_none
    (h : driven (s.ch[n]).st = false ∨ (s.ch[n]).latch = true ∨ s.cmpTrips n uv ns = false) :
    exec (.comparatorTrip ⟨n, uv, ns⟩) s = .next s := by
  refine congrArg Host.Outcome.next (if_pos ?_)
  rcases h with h | h | h
  · simp [h, -Fin.getElem_fin]
  · simp [h, -Fin.getElem_fin]
  · simp [h]

/-- R84, R191: in Dormant the drive die makes the transition of the set, and the block wakes. -/
theorem exec_comparatorTrip_dormant (hdormant : s.pw.mode = .dormant) (hlive : s.live = false) (hsolo : s.hinge.hen = false)
    (hdriven : driven (s.ch[n]).st = true) (hlatch : (s.ch[n]).latch = false) (htrips : s.cmpTrips n uv ns = true) :
    exec (.comparatorTrip ⟨n, uv, ns⟩) s = .next ((s.compHeld n).placeSinks.wakeFire 5) := by
  simp [exec, execComparatorTrip, hdormant, hlive, hsolo, hdriven, hlatch, htrips, -Fin.getElem_fin]

end

end Sys2Proof.Machine

namespace Sys2Proof.Stated

open Sys2Proof Sys2Proof.Machine

/-- Settles O34: a trip while Frames run is the latch of its set; one of a HELD Channel in Dormant is its transition and a wake. -/
theorem comparatorTripsAtOnce : Obligations.ComparatorTripsAtOnce := by
  refine ⟨fun s n uv ns hlive hoff hshut hdriven hlatch hdrives hheld htrips => ?_, fun s n uv ns => exec_comparatorTrip_none,
    fun s n uv ns => ?_, fun s n uv ns htrips hdormant hlive hsolo hheld hlatch hset => ?_⟩
  · obtain ⟨v, hv⟩ := s.compLatch_ex n
    exact ⟨_, exec_comparatorTrip_live hlive hoff hshut hdriven hlatch hdrives hheld htrips, s.compLatch_cmpTrip n,
      fun m hm => s.compLatch_member hm, fun m hm => s.compLatch_other hm, by rw [hv], by rw [hv]⟩
  · simp [State.cmpTrips, and_assoc]
  · have hdriven : driven (s.ch[n]).st = true := by rw [hheld]; rfl
    obtain ⟨hst, hcause, hgate⟩ := State.compHeld_single hset hdriven
    obtain ⟨-, hsink⟩ := (s.compHeld n).placeSinks_sinksOnly
    obtain ⟨k, hk⟩ := hsink n
    have hmode : (s.compHeld n).placeSinks.pw.mode = .dormant := by simp [hdormant]
    obtain ⟨hstart, hsrc, hch⟩ := State.wakeFire_dormant hmode 5
    refine ⟨_, exec_comparatorTrip_dormant hdormant hlive hsolo hdriven hlatch htrips, ?_, ?_, ?_, hstart, hsrc⟩
    · rw [hch, hk, hst]
    · rw [hch, hk, hcause]
    · rw [hch, hk, hgate]

end Sys2Proof.Stated
end

section
/-! PROOFS. The start from PLL lock to RUN, and the charge pumps (R59, R62-R64, R597, Table 2.6). -/

namespace Sys2Proof.Machine

open Sys2Proof

/-! ### Events leave the states of the Queues alone -/

/-- Each Queue is in the same state of Table 11.8. -/
structure QueueStatesKept (s t : State) : Prop where
  st : ∀ q : Fin 32, (t.qs[q]).st = (s.qs[q]).st

theorem QueueStatesKept.refl (s : State) : QueueStatesKept s s := ⟨fun _ => rfl⟩

theorem QueueStatesKept.trans {s t u : State} (h : QueueStatesKept s t) (k : QueueStatesKept t u) : QueueStatesKept s u :=
  ⟨fun q => (k.st q).trans (h.st q)⟩

theorem QueueStatesKept.of_qs {s t : State} (h : t.qs = s.qs) : QueueStatesKept s t := ⟨fun q => by rw [h]⟩

theorem State.updQ_queueStatesKept (s : State) (p : Fin 32) {f : Queue → Queue} (hf : ∀ k, (f k).st = k.st) :
    QueueStatesKept s (s.updQ p f) := by
  constructor
  intro q
  by_cases hq : q = p
  · subst hq
    rw [State.updQ_same, hf]
  · rw [State.updQ_other _ _ _ _ hq]

theorem State.ringWrite_queueStatesKept (s : State) (q : Fin 32) (bs : List Byte) : QueueStatesKept s (s.ringWrite q bs) := by
  have hmoved := s.updQ_queueStatesKept q (f := fun k =>
    { k with
      cqTail := if (s.qs[q]).cqTail + 1 ≥ (s.qs[q]).depth then 0 else k.cqTail + 1
      phase := if (s.qs[q]).cqTail + 1 ≥ (s.qs[q]).depth then !k.phase else k.phase }) fun _ => rfl
  exact hmoved.trans (QueueStatesKept.of_qs rfl)

theorem State.sendMsg_queueStatesKept (s : State) (lane : Cls) (typ dst queue cls : Nat) (pl : List Byte)
    (fr : Option (Fin 32 × Option Nat)) (e : Bool) (m : Option Nat) (k : Option (Nat × Option Word)) :
    QueueStatesKept s (s.sendMsg lane typ dst queue cls pl fr e m k) :=
  overL_rel QueueStatesKept.refl QueueStatesKept.trans _ _ (fun _ _ => QueueStatesKept.of_qs (by rfl)) s

theorem State.twAdd_queueStatesKept (s : State) (e : TwEnt) (b : Bool) : QueueStatesKept s (s.twAdd e b) := ⟨fun _ => rfl⟩

theorem State.eventPut_queueStatesKept (s : State) (q : Fin 32) (e : Event) : QueueStatesKept s (s.eventPut q e) := by
  have hwritten : QueueStatesKept s ((s.ringWrite q (eventBytes (s.qs[q]).eseq (s.qs[q]).phase e)).updQ q fun k =>
      { k with eseq := (k.eseq + 1) % 2 ^ 32 }) :=
    (s.ringWrite_queueStatesKept q _).trans (State.updQ_queueStatesKept _ q fun _ => by rfl)
  unfold State.eventPut
  dsimp only
  split
  · exact hwritten.trans (State.sendMsg_queueStatesKept ..)
  · exact hwritten.trans (State.twAdd_queueStatesKept ..)
  · exact hwritten

theorem State.eventTo_queueStatesKept (s : State) (e : Event) (q : Fin 32) : QueueStatesKept s (s.eventTo e q) := by
  unfold State.eventTo
  dsimp only
  split
  · exact s.eventPut_queueStatesKept q e
  · split
    · exact s.updQ_queueStatesKept q fun _ => rfl
    · split
      · exact s.updQ_queueStatesKept q fun _ => rfl
      · exact s.updQ_queueStatesKept q fun _ => rfl

theorem State.postOnly_queueStatesKept (s : State) (c o : Nat) (p : List Byte) : QueueStatesKept s (s.postOnly c o p) := by
  unfold State.postOnly
  dsimp only
  split
  · exact QueueStatesKept.of_qs rfl
  · exact overL_rel QueueStatesKept.refl QueueStatesKept.trans _ _ (fun q u => u.eventTo_queueStatesKept _ q) s

theorem State.postRec_queueStatesKept (s : State) (c o : Nat) (p : List Byte) : QueueStatesKept s (s.postRec c o p) :=
  (QueueStatesKept.of_qs (State.iceRecord_qs ..)).trans (State.postOnly_queueStatesKept ..)

/-! ### Slots of the update state -/

@[simp] theorem Upd.setSlot_slot (u : Upd) (b : Bool) (x : Slot) : (u.setSlot b x).slot b = x := by
  cases b <;> rfl

@[simp] theorem Upd.putRec_slot (u : Upd) (b : Bool) : u.putRec.slot b = u.slot b := by
  unfold Upd.putRec
  dsimp only
  split <;> rfl

/-- An event of the update group is posted or kept for the start: no more of the update state changes. -/
theorem State.updEvent_upd (s : State) (c : Nat) (p : List Byte) :
    ∃ l, (s.updEvent c p).upd = { s.upd with postAtStart := l } := by
  unfold State.updEvent
  split
  · exact ⟨s.upd.postAtStart, State.postRec_upd ..⟩
  · exact ⟨_, rfl⟩

/-- The power state and the Channels are the same. -/
structure DieKept (s t : State) : Prop where
  pw : t.pw = s.pw
  ch : t.ch = s.ch

theorem DieKept.refl (s : State) : DieKept s s := ⟨rfl, rfl⟩

theorem DieKept.trans {s t u : State} (h : DieKept s t) (k : DieKept t u) : DieKept s u :=
  ⟨k.pw.trans h.pw, k.ch.trans h.ch⟩

theorem State.updUpd_dieKept (s : State) (f : Upd → Upd) : DieKept s (s.updUpd f) := ⟨rfl, rfl⟩

theorem State.updEvent_dieKept (s : State) (c : Nat) (p : List Byte) : DieKept s (s.updEvent c p) := by
  unfold State.updEvent
  split
  · exact ⟨State.postRec_pw .., State.postRec_ch ..⟩
  · exact s.updUpd_dieKept _

theorem State.slotTo_dieKept (s : State) (b : Bool) (st : SlotState) (r : Nat) : DieKept s (s.slotTo b st r) :=
  (s.updUpd_dieKept _).trans (State.updEvent_dieKept ..)

theorem State.slotTo_st (s : State) (b : Bool) (st : SlotState) (r : Nat) : ((s.slotTo b st r).upd.slot b).st = st := by
  obtain ⟨l, hl⟩ := State.updEvent_upd (s.updUpd fun u =>
    if s.pw.pfw then u.setSlot b { s.upd.slot b with st := st, reason := r }
    else (u.setSlot b { s.upd.slot b with st := st, reason := r }).putRec) 0x0A01
    (slotPayload b { s.upd.slot b with st := st, reason := r })
  have hslot (u : Upd) : ({ u with postAtStart := l } : Upd).slot b = u.slot b := by cases b <;> rfl
  rw [State.slotTo, hl, hslot, State.updUpd_upd]
  split
  · simp
  · simp

/-! ### The boot ROM (R597) -/

theorem State.slotsAtBoot_dieKept (s : State) : DieKept s s.slotsAtBoot :=
  overL_rel DieKept.refl DieKept.trans _ _ (fun b u => by
    dsimp only
    split
    · exact (u.updUpd_dieKept _).trans (State.slotTo_dieKept ..)
    · exact State.slotTo_dieKept ..
    · split
      · exact State.slotTo_dieKept ..
      · exact DieKept.refl u
    · split
      · exact State.slotTo_dieKept ..
      · exact DieKept.refl u
    · exact DieKept.refl u) s

theorem State.bootTry_dieKept (s : State) (order : List Bool) : DieKept s (s.bootTry order).2 := by
  induction order generalizing s with
  | nil => exact DieKept.refl s
  | cons b rest ih =>
    unfold State.bootTry
    extract_lets s1 r
    have htrial : DieKept s s1 := by
      unfold s1
      split
      · exact State.slotTo_dieKept ..
      · exact DieKept.refl s
    split
    · exact htrial
    · exact (htrial.trans (State.slotTo_dieKept ..)).trans (ih _)

/-- A slot in ACTIVE or VALID is tried as it is. -/
theorem State.bootTry_cons {s : State} {b : Bool} (hst : (s.upd.slot b).st = .active ∨ (s.upd.slot b).st = .valid)
    (rest : List Bool) :
    s.bootTry (b :: rest) = if s.imgReason (s.upd.slot b).image == 0 then (some b, s)
      else (s.slotTo b .failed (s.imgReason (s.upd.slot b).image)).bootTry rest := by
  have hnew : ((s.upd.slot b).st == SlotState.pending) = false := by
    rcases hst with h | h <;> rw [h] <;> rfl
  simp [State.bootTry, hnew]

/-- The power state, the Channels and the slot that runs are the same. -/
def BootKept (s t : State) : Prop := DieKept s t ∧ t.upd.recovery = s.upd.recovery ∧ t.upd.booted = s.upd.booted

theorem BootKept.refl (s : State) : BootKept s s := ⟨DieKept.refl s, rfl, rfl⟩

theorem BootKept.trans {s t u : State} (h : BootKept s t) (k : BootKept t u) : BootKept s u := by
  obtain ⟨hdie, hrec, hboot⟩ := h
  obtain ⟨kdie, krec, kboot⟩ := k
  exact ⟨hdie.trans kdie, krec.trans hrec, kboot.trans hboot⟩

theorem State.updEvent_bootKept (s : State) (c : Nat) (p : List Byte) : BootKept s (s.updEvent c p) := by
  obtain ⟨l, hl⟩ := s.updEvent_upd c p
  exact ⟨s.updEvent_dieKept c p, by rw [hl], by rw [hl]⟩

/-- Provisioning writes fuses and posts events (R610). -/
theorem State.provision_bootKept (s : State) (img : List Byte) : BootKept s (s.provision img) :=
  overL_rel BootKept.refl BootKept.trans _ _ (fun r u => by
    rcases progRecord u.otp (imgKidx img) r with ⟨o, refused⟩
    have hfuse : BootKept u { u with otp := o } := ⟨⟨rfl, rfl⟩, rfl, rfl⟩
    cases refused with
    | true => exact hfuse.trans (State.updEvent_bootKept ..)
    | false => exact hfuse) s

/-- The state in which the boot ROM tries the slots: their states are those of the record, and Keyring has its clock. -/
def State.atBoot (s : State) : State :=
  ((s.updKrg fun k => { k with clkMain := s.otp.kclk == some true && !k.clkFail }).updUpd Upd.loadRec).slotsAtBoot

theorem State.atBoot_dieKept (s : State) : DieKept s s.atBoot :=
  DieKept.trans (t := (s.updKrg fun k => { k with clkMain := s.otp.kclk == some true && !k.clkFail }).updUpd Upd.loadRec)
    ⟨rfl, rfl⟩ (State.slotsAtBoot_dieKept _)

section
variable {s s2 : State} (hmode : s.pw.mode = .start) (hrun : s.pw.logic = .running) (hstep : s.pw.step = 3)
include hmode hrun hstep

/-- The first slot that verifies is booted: step 5 follows. -/
theorem exec_pllLock_boots {b : Bool} (htried : s.atBoot.bootTry s.atBoot.upd.tryOrder = (some b, s2)) :
    ∃ t, exec .pllLock s = .next t ∧ t.upd.recovery = false ∧ t.upd.booted = b ∧ t.pw.step = 5 ∧
      t.pw.starts = s.pw.starts + 1 ∧ t.ch = s.ch := by
  have htaken : DieKept s s2 := by
    have hboot := s.atBoot_dieKept.trans (s.atBoot.bootTry_dieKept s.atBoot.upd.tryOrder)
    rwa [htried] at hboot
  obtain ⟨⟨hpw, hch⟩, hrec, hbooted⟩ := State.provision_bootKept
    (s2.updUpd fun u => { u with booted := b, recovery := false, trialPeriods := 0 }) (s2.upd.slot b).image
  unfold State.atBoot at htried
  simp only [exec, execPllLock, hmode, hrun, hstep, beq_self_eq_true, Bool.and_self, if_true, htried]
  exact ⟨_, rfl, hrec, hbooted, rfl, congrArg (Power.starts · + 1) (hpw.trans htaken.pw), hch.trans htaken.ch⟩

/-- R598: with no slot that verifies the block enters RECOVERY. -/
theorem exec_pllLock_recovery (htried : s.atBoot.bootTry s.atBoot.upd.tryOrder = (none, s2)) :
    exec .pllLock s = .next s2.enterRecovery := by
  unfold State.atBoot at htried
  simp only [exec, execPllLock, hmode, hrun, hstep, beq_self_eq_true, Bool.and_self, if_true, htried]

end

/-- R598: in RECOVERY the start stays at step 4, and Q04 runs. -/
theorem State.enterRecovery_recovers (s : State) :
    s.enterRecovery.upd.recovery = true ∧ s.enterRecovery.pw.step = 4 ∧ (s.enterRecovery.qs[(4 : Fin 32)]).st = .run := by
  have hevents (evs : List Event) (u : State) : QueueStatesKept u (overL evs (fun e s => s.postRec e.code e.source e.payload) u) :=
    overL_rel QueueStatesKept.refl QueueStatesKept.trans _ _ (fun e u => u.postRec_queueStatesKept ..) u
  have htold (evs : List Event) (u : State) : Told u (overL evs (fun e s => s.postRec e.code e.source e.payload) u) :=
    told_overL _ _ (fun e u => u.postRec_told ..) u
  unfold State.enterRecovery
  refine ⟨?_, ?_, ?_⟩
  · rw [(htold ..).posted.upd]
    rfl
  · rw [(htold ..).posted.pw]
    rfl
  · rw [(hevents ..).st]
    simp

/-! ### Release of the CE and the Groups -/

theorem pump_default_stopped (b : Fin 4) : (default : Pumps).bank[b] = .stopped := by
  revert b
  decide

/-- The Frames of a start begin at count 0, at step 7, with every pump stopped. -/
theorem State.startBase_starts (s : State) (off : Nat) :
    (s.startBase off).fr = { (default : Frm) with running := true, drive := s.fr.drive + off } ∧
      (s.startBase off).pw.step = 7 ∧ ∀ b : Fin 4, (s.startBase off).pump.bank[b] = .stopped := by
  unfold State.startBase
  dsimp only
  split
  · exact ⟨rfl, rfl, pump_default_stopped⟩
  · exact ⟨rfl, rfl, pump_default_stopped⟩

/-- R59: the release of the CE at step 5. -/
theorem exec_ceRelease {s : State} (hmode : s.pw.mode = .start) (hrun : s.pw.logic = .running) (hstep : s.pw.step = 5)
    (hrec : s.upd.recovery = false) (hlocked : s.clk.relocking = false) (off : Nat) :
    exec (.ceRelease off) s = .next (s.startBase off).startRecords := by
  simp only [exec, execCeRelease, hmode, hrun, hstep, hrec, hlocked, beq_self_eq_true, Bool.and_self, Bool.not_false, if_true]

/-- R59: at Frame count 50 every Group has been started, and the pump of Bank 0 follows. -/
theorem State.groupSteps_started {s : State} (hmode : s.pw.mode = .start) (hlow : 7 ≤ s.pw.step) (hhigh : s.pw.step ≤ 10)
    (hcount : 50 ≤ s.fr.count) : s.groupSteps = (s.updPw fun p => { p with step := 11 }).pumpStart 0 := by
  have hgroups : ((List.finRange 4).filter fun (g : Fin 4) => grpOffset g.castSucc ≤ s.fr.count) = List.finRange 4 := by
    refine List.filter_eq_self.mpr fun g _ => ?_
    have hlast : grpOffset g.castSucc ≤ 50 := by
      revert g
      decide
    simpa using hlast.trans hcount
  simp [State.groupSteps, hmode, hlow, hhigh, hgroups]

theorem State.pumpStart_bank (s : State) (b : Fin 4) : (s.pumpStart b).pump.bank[b] = .starting := by
  simp [State.pumpStart]

/-! ### Step 16 -/

theorem State.admHead_pump (s : State) (n : Fin 64) : (s.admHead n).pump = s.pump := by
  unfold State.admHead
  split
  · rfl
  · unfold State.admAdd
    split <;> rfl

theorem State.openAdmission_pump (s : State) : s.openAdmission.pump = s.pump :=
  overL_rel (R := fun s t => t.pump = s.pump) (fun _ => rfl) (fun h k => k.trans h) _ _ (fun n u => by
    split
    · exact u.admHead_pump n
    · rfl) s

theorem State.cvStartReq_pw_pump (s : State) (own : Bool) :
    (s.cvStartReq own).pw = s.pw ∧ (s.cvStartReq own).pump = s.pump := by
  unfold State.cvStartReq
  split
  · exact ⟨rfl, rfl⟩
  · exact ⟨rfl, rfl⟩

/-- R64: step 16 goes on to step 17 at once, or waits there for the converter; the pumps stay as they are. -/
theorem State.step16_ends (s : State) : (s.step16.pw.step = 16 ∨ s.step16.pw.step = 17) ∧ s.step16.pump = s.pump := by
  unfold State.step16
  extract_lets s1 low s2
  obtain ⟨hpw, hpump⟩ := s1.cvStartReq_pw_pump false
  split
  · exact ⟨.inr rfl, s1.openAdmission_pump⟩
  · split
    · exact ⟨.inl (congrArg Power.step hpw), hpump⟩
    · exact ⟨.inr rfl, s2.openAdmission_pump.trans hpump⟩

/-! ### The end of a pump step -/

/-- The state in which the pump step of a Bank ends: with more than 20 V at a 12 V Bank, the Bank is marked (R134). -/
def State.pumpSeen (s : State) (b : Fin 4) (v : Nat) : State :=
  if !s.pump.domain48[b] && v > 2000 then
    ((s.updPump fun p => { p with mismatch := p.mismatch.set b true }).setFault 3).iceRecord 0x0120 (0x40 + b.val) 2
      (le 2 0 ++ le 2 v)
  else s

theorem State.pumpEnd_eq (s : State) (b : Fin 4) (v : Nat) : s.pumpEnd b v = (s.pumpSeen b v).pumpDone b := rfl

section
variable (s : State) (b : Fin 4) (v : Nat)

theorem State.pumpSeen_kept : (s.pumpSeen b v).fr = s.fr ∧ (s.pumpSeen b v).ch = s.ch ∧
    (s.pumpSeen b v).pump.bank = s.pump.bank := by
  unfold State.pumpSeen
  split
  · simp
  · simp

theorem State.pumpSeen_marked (hdomain : s.pump.domain48[b] = false) (hv : 2000 < v) :
    (s.pumpSeen b v).pump.mismatch[b] = true ∧ (s.pumpSeen b v).hpt.getLsbD 3 = true := by
  have hbad : (!s.pump.domain48[b] && decide (v > 2000)) = true := by rw [hdomain]; simpa using hv
  rw [State.pumpSeen, if_pos hbad]
  simp

theorem State.pumpSeen_fault (hfault : s.hpt.getLsbD 3 = true) : (s.pumpSeen b v).hpt.getLsbD 3 = true := by
  unfold State.pumpSeen
  split
  · simp
  · exact hfault

/-- R59: with the pump step of a Bank before the last one, the next Bank's pump starts. -/
theorem State.pumpDone_next (hb : b.val < 3) :
    s.pumpDone b = (s.updPw fun p => { p with step := 12 + b.val }).pumpStart (b.val + 1) := if_pos hb

theorem State.pumpDone_last : s.pumpDone 3 = (s.updPw fun p => { p with step := 15 }).step16 := rfl

theorem State.pumpEnd_next (hb : b.val < 3) :
    (s.pumpEnd b v).pw.step = 12 + b.val ∧ (∀ h : b.val + 1 < 4, (s.pumpEnd b v).pump.bank[b.val + 1] = .starting) ∧
      (s.pumpEnd b v).pump.startAt = s.fr.count ∧ (s.pumpEnd b v).ch = s.ch ∧
      (s.pumpEnd b v).pump.bank[b] = s.pump.bank[b] := by
  obtain ⟨hfr, hch, hbank⟩ := s.pumpSeen_kept b v
  rw [State.pumpEnd_eq, State.pumpDone_next _ _ hb]
  refine ⟨rfl, fun h => ?_, congrArg Frm.count hfr, hch, ?_⟩
  · exact State.pumpStart_bank _ ⟨b.val + 1, h⟩
  · simp [State.pumpStart, hbank]

/-- R64: the pump step of the last Bank leads to step 16 or 17. -/
theorem State.pumpEnd_last : ((s.pumpEnd 3 v).pw.step = 16 ∨ (s.pumpEnd 3 v).pw.step = 17) ∧
    (s.pumpEnd 3 v).pump.bank = s.pump.bank := by
  obtain ⟨-, -, hbank⟩ := s.pumpSeen_kept 3 v
  obtain ⟨hstep, hpump⟩ := ((s.pumpSeen 3 v).updPw fun p => { p with step := 15 }).step16_ends
  exact ⟨hstep, (congrArg Pumps.bank hpump).trans hbank⟩

end

/-! ### The pump events -/

section
variable {s : State} {b : Fin 4} {v : Nat}

/-- R62: a pump, or the spare in its place, that is in regulation in time ends the pump step of its Bank. -/
theorem exec_pumpRegulated (hwait : s.pumpWait b = true) (hcount : s.fr.count ≤ s.pump.startAt + 125) :
    ∃ f : Pumps → Pumps, exec (.pumpRegulated b v) s = .next ((s.updPump f).pumpEnd b v) ∧
      (f s.pump).domain48 = s.pump.domain48 := by
  refine ⟨_, congrArg Host.Outcome.next (if_pos (by simp [hwait, hcount])), ?_⟩
  split <;> rfl

/-- The spare of the side takes the place of a Bank's pump. -/
theorem State.spareIn_serves (s : State) (b : Fin 4) (st : PumpSt) :
    (s.spareIn b st).pump.bank[b] = .bad ∧ (s.spareIn b st).pump.spare[sideOf b] = st ∧
      (s.spareIn b st).pump.spareFor[sideOf b] = some b := by
  simp [State.spareIn]

theorem State.spareIn_kept (s : State) (b : Fin 4) (st : PumpSt) :
    (s.spareIn b st).pw = s.pw ∧ (s.spareIn b st).hpt = s.hpt := by
  simp [State.spareIn]

/-- R62: a pump that is late is replaced by the spare of its side where it is free. -/
theorem exec_pumpStartTimeout_spare (hwait : s.pumpWait b = true) (hlate : s.pump.startAt + 125 ≤ s.fr.count)
    (hfree : s.pump.spareFor[sideOf b] = none) :
    exec (.pumpStartTimeout ⟨b, v⟩) s = .next ((s.spareIn b .starting).updPump fun p => { p with startAt := s.fr.count }) := by
  simp [exec, execPumpStartTimeout, hwait, hlate, hfree, -Fin.getElem_fin]

/-- R63: with no spare the pump step of the Bank ends without a pump, and FAULT_N is set. -/
theorem exec_pumpStartTimeout_none (hwait : s.pumpWait b = true) (hlate : s.pump.startAt + 125 ≤ s.fr.count)
    (htaken : (s.pump.spareFor[sideOf b]).isSome = true) :
    ∃ u : State, exec (.pumpStartTimeout ⟨b, v⟩) s = .next (u.pumpEnd b v) ∧ u.pump.bank[b] = .bad ∧
      u.hpt.getLsbD 3 = true := by
  have hnotfree : (s.pump.spareFor[sideOf b]).isNone = false := by simpa using htaken
  refine ⟨_, congrArg Host.Outcome.next ((if_pos (by simp [hwait, hlate])).trans (if_neg (Bool.eq_false_iff.mp hnotfree))), ?_, ?_⟩
  · simp
  · simp

/-- R63, R136: a pump that fails in service is replaced by the free spare of its side. -/
theorem exec_pumpFail_spare (hlive : s.live = true) (hgood : s.pump.bank[b] = .good)
    (hfree : s.pump.spareFor[sideOf b] = none) : exec (.pumpFail b) s = .next (s.spareIn b .good) := by
  simp [exec, execPumpFail, hlive, hgood, hfree, -Fin.getElem_fin]

/-- R136: with no spare the Bank is without a pump, and FAULT_N is set. -/
theorem exec_pumpFail_none (hlive : s.live = true) (hgood : s.pump.bank[b] = .good)
    (htaken : (s.pump.spareFor[sideOf b]).isSome = true) :
    ∃ t, exec (.pumpFail b) s = .next t ∧ t.pump.bank[b] = .bad ∧ t.pump.failNow[b] = true ∧ t.hpt.getLsbD 3 = true := by
  have hnotfree : (s.pump.spareFor[sideOf b]).isNone = false := by simpa using htaken
  refine ⟨_, congrArg Host.Outcome.next ((if_pos (by simp [hlive, hgood, -Fin.getElem_fin])).trans
    (if_neg (by simp [hnotfree, -Fin.getElem_fin]))), ?_, ?_, ?_⟩
  · simp
  · simp
  · simp

end

end Sys2Proof.Machine

namespace Sys2Proof.Stated

open Sys2Proof Sys2Proof.Machine

/-- Settles O29: step after step of the start, and the pumps with and without a spare. -/
theorem startStepsFollowInOrder : Obligations.StartStepsFollowInOrder := by
  refine ⟨fun s hmode hrun hstep => ⟨fun b htried => ?boots, fun htried => ?recovery⟩,
    fun s b r hst => ⟨fun hok => ?verifies, fun hbad => ?fails⟩,
    fun s off hmode hrun hstep hrec hlocked => ?release, fun s hmode hlow hhigh hcount => ?groups,
    fun s b v hwait hcount hb hsupply => ?regulated, fun s b v hwait hcount hb hdomain hv => ?mismatch,
    fun s v hwait hcount => ?regulatedLast, fun s b v hwait hlate hfree => ?spare, fun s b v hwait hlate htaken hb => ?late,
    fun s v hwait hlate htaken => ?lateLast, fun s b hlive hgood hfree => ?failSpare,
    fun s b hlive hgood htaken => exec_pumpFail_none hlive hgood htaken⟩
  case boots => exact exec_pllLock_boots hmode hrun hstep (Prod.ext htried rfl)
  case recovery => exact ⟨exec_pllLock_recovery hmode hrun hstep (Prod.ext htried rfl), State.enterRecovery_recovers _⟩
  case verifies => simp [State.bootTry_cons hst, hok]
  case fails =>
    rw [State.bootTry_cons hst, if_neg (by simpa using hbad)]
    exact ⟨rfl, State.slotTo_st ..⟩
  case release =>
    obtain ⟨hfr, hstep7, hpumps⟩ := s.startBase_starts off
    exact ⟨exec_ceRelease hmode hrun hstep hrec hlocked off, by rw [hfr]; rfl, by rw [hfr], by rw [hfr], hstep7, hpumps⟩
  case groups =>
    rw [State.groupSteps_started hmode hlow hhigh hcount]
    exact ⟨rfl, State.pumpStart_bank _ 0, rfl⟩
  case regulated =>
    obtain ⟨f, hexec, -⟩ := exec_pumpRegulated (v := v) hwait hcount
    obtain ⟨hstep, hnext, hstart, hch, -⟩ := (s.updPump f).pumpEnd_next b v hb
    exact ⟨_, hexec, hstep, hnext, hstart, hch⟩
  case mismatch =>
    obtain ⟨f, hexec, hkept⟩ := exec_pumpRegulated (v := v) hwait hcount
    obtain ⟨hmark, hfault⟩ := (s.updPump f).pumpSeen_marked b v (by rw [State.updPump_pump, hkept, hdomain]) hv
    refine ⟨_, hexec, ((s.updPump f).pumpEnd_next b v hb).1, ?_, ?_⟩
    · rw [State.pumpEnd_eq, State.pumpDone_next _ _ hb]
      exact hmark
    · rw [State.pumpEnd_eq, State.pumpDone_next _ _ hb]
      exact hfault
  case regulatedLast =>
    obtain ⟨f, hexec, -⟩ := exec_pumpRegulated (v := v) hwait hcount
    exact ⟨_, hexec, ((s.updPump f).pumpEnd_last v).1⟩
  case spare =>
    obtain ⟨hbank, hspare, hfor⟩ := s.spareIn_serves b .starting
    exact ⟨_, exec_pumpStartTimeout_spare hwait hlate hfree, hbank, hspare, hfor, rfl, (s.spareIn_kept b .starting).1⟩
  case late =>
    obtain ⟨u, hexec, hbad, hfault⟩ := exec_pumpStartTimeout_none (v := v) hwait hlate htaken
    obtain ⟨hstep, -, -, -, hbank⟩ := u.pumpEnd_next b v hb
    refine ⟨_, hexec, hbank.trans hbad, ?_, hstep⟩
    rw [State.pumpEnd_eq, State.pumpDone_next _ _ hb]
    exact u.pumpSeen_fault b v hfault
  case lateLast =>
    obtain ⟨u, hexec, hbad, -⟩ := exec_pumpStartTimeout_none (v := v) hwait hlate htaken
    obtain ⟨hstep, hbank⟩ := u.pumpEnd_last v
    exact ⟨_, hexec, by rw [hbank]; exact hbad, hstep⟩
  case failSpare =>
    obtain ⟨hbank, hspare, hfor⟩ := s.spareIn_serves b .good
    exact ⟨_, exec_pumpFail_spare hlive hgood hfree, hbank, hspare, hfor, (s.spareIn_kept b .good).2⟩

end Sys2Proof.Stated
end

section
/-! The operations of the block keep its supply state. Everything between two changes of the power state (a start, a reset, a
shutdown, a wake) is made of operations that leave the logic die, the Frames, RECOVERY, Keyring's state and the queue of waiting
commands as they were; each operation of the model has one lemma here that says so, proved from those of the operations it is
made of. -/

namespace Sys2Proof.Machine

open Sys2Proof

/-! ### What is kept -/

/-- Figures of a Channel that the end of a Period closes (R171). -/
def Chan.figures (c : Chan) : ℚ × ℚ × ℚ × ℚ × Nat := (c.meanI, c.meanV, c.sumI, c.sumV, c.onFrames)

/-- No Queue has had a command taken, nor one that waits behind a FENCE. -/
structure Untaken (s t : State) : Prop where
  vis : ∀ q : Fin 32, (t.qs[q]).vis = (s.qs[q]).vis
  waiting : ∀ q : Fin 32, (t.qs[q]).waiting = (s.qs[q]).waiting

/-- What the work at a Period boundary keeps after the meters have closed: the figures of every Channel, the S5 work that is
carried over, and the commands that are still to be executed. -/
structure Metered (s t : State) : Prop extends Untaken s t where
  figures : ∀ n : Fin 64, (t.ch[n]).figures = (s.ch[n]).figures
  held : t.s5Held = s.s5Held
  rest : t.rest = s.rest

theorem Untaken.of_qs {s t : State} (h : t.qs = s.qs) : Untaken s t := ⟨fun q => by rw [h], fun q => by rw [h]⟩

theorem Untaken.refl (s : State) : Untaken s s := .of_qs rfl

theorem Untaken.trans {s t u : State} (h : Untaken s t) (k : Untaken t u) : Untaken s u :=
  ⟨fun q => (k.vis q).trans (h.vis q), fun q => (k.waiting q).trans (h.waiting q)⟩

theorem Metered.refl (s : State) : Metered s s := ⟨.refl s, fun _ => rfl, rfl, rfl⟩

theorem Metered.of_eq {s t : State} (hqs : t.qs = s.qs) (hch : t.ch = s.ch) (hheld : t.s5Held = s.s5Held) (hrest : t.rest = s.rest) :
    Metered s t := ⟨.of_qs hqs, fun n => by rw [hch], hheld, hrest⟩

theorem Metered.trans {s t u : State} (h : Metered s t) (k : Metered t u) : Metered s u :=
  ⟨h.toUntaken.trans k.toUntaken, fun n => (k.figures n).trans (h.figures n), k.held.trans h.held, k.rest.trans h.rest⟩

/-- A change of a Queue that is no taking. -/
theorem State.updQ_untaken (s : State) (q : Fin 32) (f : Queue → Queue) (hvis : ∀ k, (f k).vis = k.vis)
    (hwaiting : ∀ k, (f k).waiting = k.waiting) : Untaken s (s.updQ q f) := by
  constructor <;> intro p <;> by_cases hp : p = q
  · rw [hp, State.updQ_same, hvis]
  · rw [State.updQ_other _ _ _ _ hp]
  · rw [hp, State.updQ_same, hwaiting]
  · rw [State.updQ_other _ _ _ _ hp]

/-- The state s has come from s₀ by operations that change no supply state: the same commands wait, Frames and the logic die run as
they did, RECOVERY and Keyring are where they were; the mode is the one it was or RUN, which step 17 begins, the start has not fallen
back behind the release of the CE, no relock of the PLLs has begun or ended, and queue memory is canonical where it was. Of operations
with the mark m, those of the work at a Period boundary (Table 2.2), it is also known that they keep what Metered keeps. -/
structure Kept (m : Bool) (s₀ s : State) : Prop where
  pending : s.pending = s₀.pending
  wf : memWf s₀.qmem = true → memWf s.qmem = true
  fr : s.fr = s₀.fr
  logic : s.pw.logic = s₀.pw.logic
  mode : s.pw.mode = s₀.pw.mode ∨ s.pw.mode = .run
  step : 7 ≤ s₀.pw.step → 7 ≤ s.pw.step
  recovery : s.upd.recovery = s₀.upd.recovery
  krg : s.krg.st = s₀.krg.st
  relocking : s.clk.relocking = s₀.clk.relocking
  metered : m = true → Metered s₀ s

section
variable {m : Bool} {s₀ s t : State}

theorem Kept.refl (s : State) : Kept m s s := ⟨rfl, id, rfl, rfl, .inl rfl, id, rfl, rfl, rfl, fun _ => .refl s⟩

theorem Kept.trans (h : Kept m s₀ s) (k : Kept m s t) : Kept m s₀ t where
  pending := k.pending.trans h.pending
  wf := k.wf ∘ h.wf
  fr := k.fr.trans h.fr
  logic := k.logic.trans h.logic
  mode := k.mode.elim (fun e => e ▸ h.mode) .inr
  step := k.step ∘ h.step
  recovery := k.recovery.trans h.recovery
  krg := k.krg.trans h.krg
  relocking := k.relocking.trans h.relocking
  metered := fun e => (h.metered e).trans (k.metered e)

/-- An update of any other parts of the state, the clocks apart. -/
theorem Kept.other
    {pump : Pumps} {settings : List (FKey × Nat)} {staged : List Staged} {ch : Vector Chan 64} {adm : List AdmEntry}
    {grp : Vector Group 5} {g4 : Vector Code24 32} {g4Ok : Vector Bool 32} {hk : Hk} {cv : Conv} {aux : Vector Aux 4} {inj : Inject}
    {zone : Zone} {bat : Bat} {qs : Vector Queue 32} {winBase vioOver nBeyond nLatMiss evDropped ccount ccountFirn acoh free : Nat}
    {outs : List Out} {owners : List (Nat × Option (Fin 16))} {resOwner : List (Nat × Fin 16)} {vio : List Vio} {hpt : BitVec 9}
    {hptAt : Vector Nat 9} {ice : Ice} {net : Net} {tw : Tw} {hinge : Hinge} {tmb : Tmb} {th : Thermal} {pd : Vector PdPort 2}
    {otp : Otp} {spi : Spi} {cap : Vector Stream 16} {snap0 snap1 : Snap} {snapSrc promLost : Option Nat} {wmTrip wmRecDone : Bool}
    {cvMarks : List Nat} {mail : Vector CePage 2} {mem : Mem} {linkLost : List DieWord} {s5Held : List S5Work} {rest : List Taken}
    (h : Kept false s₀ s) :
    Kept false s₀ { s with
      pump := pump, settings := settings, staged := staged, ch := ch, adm := adm, grp := grp, g4 := g4, g4Ok := g4Ok,
      hk := hk, cv := cv, aux := aux, inj := inj, zone := zone, bat := bat, qs := qs, winBase := winBase, outs := outs, owners := owners,
      resOwner := resOwner, vio := vio, vioOver := vioOver, hpt := hpt, hptAt := hptAt, nBeyond := nBeyond, nLatMiss := nLatMiss,
      evDropped := evDropped, ccount := ccount, ccountFirn := ccountFirn, ice := ice, net := net, tw := tw, hinge := hinge,
      tmb := tmb, th := th, pd := pd, otp := otp, spi := spi, cap := cap, snap0 := snap0, snap1 := snap1, snapSrc := snapSrc,
      wmTrip := wmTrip, wmRecDone := wmRecDone, acoh := acoh, cvMarks := cvMarks, mail := mail, mem := mem, linkLost := linkLost,
      s5Held := s5Held, rest := rest, promLost := promLost, free := free } :=
  h.trans ⟨rfl, id, rfl, rfl, .inl rfl, id, rfl, rfl, rfl, nofun⟩

/-- An update of any other parts of the state, the clocks, the Channels, the Queues and the work that waits apart. -/
theorem Kept.aside
    {pump : Pumps} {settings : List (FKey × Nat)} {staged : List Staged} {adm : List AdmEntry}
    {grp : Vector Group 5} {g4 : Vector Code24 32} {g4Ok : Vector Bool 32} {hk : Hk} {cv : Conv} {aux : Vector Aux 4} {inj : Inject}
    {zone : Zone} {bat : Bat} {winBase vioOver nBeyond nLatMiss evDropped ccount ccountFirn acoh free : Nat}
    {outs : List Out} {owners : List (Nat × Option (Fin 16))} {resOwner : List (Nat × Fin 16)} {vio : List Vio} {hpt : BitVec 9}
    {hptAt : Vector Nat 9} {ice : Ice} {net : Net} {tw : Tw} {hinge : Hinge} {tmb : Tmb} {th : Thermal} {pd : Vector PdPort 2}
    {otp : Otp} {spi : Spi} {cap : Vector Stream 16} {snap0 snap1 : Snap} {snapSrc promLost : Option Nat} {wmTrip wmRecDone : Bool}
    {cvMarks : List Nat} {mail : Vector CePage 2} {mem : Mem} {linkLost : List DieWord} 
    (h : Kept m s₀ s) :
    Kept m s₀ { s with
      pump := pump, settings := settings, staged := staged, adm := adm, grp := grp, g4 := g4, g4Ok := g4Ok,
      hk := hk, cv := cv, aux := aux, inj := inj, zone := zone, bat := bat, winBase := winBase, outs := outs, owners := owners,
      resOwner := resOwner, vio := vio, vioOver := vioOver, hpt := hpt, hptAt := hptAt, nBeyond := nBeyond, nLatMiss := nLatMiss,
      evDropped := evDropped, ccount := ccount, ccountFirn := ccountFirn, ice := ice, net := net, tw := tw, hinge := hinge,
      tmb := tmb, th := th, pd := pd, otp := otp, spi := spi, cap := cap, snap0 := snap0, snap1 := snap1, snapSrc := snapSrc,
      wmTrip := wmTrip, wmRecDone := wmRecDone, acoh := acoh, cvMarks := cvMarks, mail := mail, mem := mem, linkLost := linkLost,
      promLost := promLost, free := free } :=
  h.trans ⟨rfl, id, rfl, rfl, .inl rfl, id, rfl, rfl, rfl, fun _ => .of_eq rfl rfl rfl rfl⟩

/-- An update of the Channels that leaves the figures of each. -/
theorem Kept.setCh {ch : Vector Chan 64} (h : Kept m s₀ s) (hch : ∀ n : Fin 64, (ch[n]).figures = (s.ch[n]).figures) :
    Kept m s₀ { s with ch := ch } :=
  h.trans ⟨rfl, id, rfl, rfl, .inl rfl, id, rfl, rfl, rfl, fun _ => ⟨.of_qs rfl, hch, rfl, rfl⟩⟩

/-- A change of one Channel that leaves its figures. -/
theorem Kept.updMetered {n : Fin 64} {f : Chan → Chan} (h : Kept m s₀ s) (hf : ∀ c, (f c).figures = c.figures) :
    Kept m s₀ (s.updCh n f) := by
  refine h.setCh fun k => ?_
  by_cases hk : k = n
  · subst hk
    exact (congrArg Chan.figures (s.updCh_same k f)).trans (hf _)
  · exact congrArg Chan.figures (s.updCh_other n k f hk)

theorem Kept.mapMetered {f : Fin 64 → Chan → Chan} (h : Kept m s₀ s) (hf : ∀ n c, (f n c).figures = c.figures) :
    Kept m s₀ (s.mapCh f) :=
  h.setCh fun n => (congrArg Chan.figures (s.mapCh_get f n)).trans (hf n _)

/-- Another state of the clocks, in which the PLLs relock as before. -/
theorem Kept.updClk {f : Clk → Clk} (h : Kept m s₀ s) (e : (f s.clk).relocking = s.clk.relocking) :
    Kept m s₀ (s.updClk f) :=
  h.trans ⟨rfl, id, rfl, rfl, .inl rfl, id, rfl, rfl, e, fun _ => .of_eq rfl rfl rfl rfl⟩

/-- Records, events and completions. -/
theorem Kept.posted (h : Kept m s₀ s) (p : Posted s t) (u : Untaken s t) : Kept m s₀ t :=
  h.trans ⟨p.pending, p.wf, p.fr, by rw [p.pw], by rw [p.pw]; exact .inl rfl, by rw [p.pw]; exact id, by rw [p.upd], by rw [p.krg],
    by rw [p.clk], fun _ => ⟨u, fun n => by rw [p.ch], p.s5Held, p.rest⟩⟩

/-- A write to queue memory. -/
theorem Kept.store {a : Nat} {bs : List Byte} (h : Kept m s₀ s) : Kept m s₀ { s with qmem := memWriteL s.qmem a bs } :=
  h.trans ⟨rfl, memWriteL_wf a bs, rfl, rfl, .inl rfl, id, rfl, rfl, rfl, fun _ => .of_eq rfl rfl rfl rfl⟩

/-- An update of the power state that is no change of mode, of the logic die or back behind the release of the CE. -/
theorem Kept.movePw {f : Power → Power} (h : Kept m s₀ s) (hlogic : (f s.pw).logic = s.pw.logic)
    (hmode : (f s.pw).mode = s.pw.mode ∨ (f s.pw).mode = .run) (hstep : 7 ≤ s.pw.step → 7 ≤ (f s.pw).step) :
    Kept m s₀ (s.updPw f) :=
  h.trans ⟨rfl, id, rfl, hlogic, hmode, hstep, rfl, rfl, rfl, fun _ => .of_eq rfl rfl rfl rfl⟩

/-- An update of the power state that leaves its mode, the logic die and the step. -/
theorem Kept.updPw {f : Power → Power} (h : Kept m s₀ s)
    (e : (f s.pw).logic = s.pw.logic ∧ (f s.pw).mode = s.pw.mode ∧ (f s.pw).step = s.pw.step) : Kept m s₀ (s.updPw f) :=
  h.movePw e.1 (.inl e.2.1) (e.2.2 ▸ id)

/-- Another power state in the place of the present one. -/
theorem Kept.withPw {p : Power} (h : Kept m s₀ s) (hlogic : p.logic = s₀.pw.logic) (hmode : p.mode = s₀.pw.mode ∨ p.mode = .run)
    (hstep : 7 ≤ s₀.pw.step → 7 ≤ p.step) : Kept m s₀ { s with pw := p } :=
  ⟨h.pending, h.wf, h.fr, hlogic, hmode, hstep, h.recovery, h.krg, h.relocking,
    fun e => (h.metered e).trans (.of_eq rfl rfl rfl rfl)⟩

/-- A start goes on to a step behind the release of the CE. -/
theorem Kept.toStep {k : Nat} (h : Kept m s₀ s) (hk : 7 ≤ k) : Kept m s₀ (s.updPw fun p => { p with step := k }) :=
  h.movePw rfl (.inl rfl) fun _ => hk

/-- An update of the update state that leaves RECOVERY. -/
theorem Kept.setUpd {u : Upd} (h : Kept m s₀ s) (e : u.recovery = s.upd.recovery) : Kept m s₀ { s with upd := u } :=
  h.trans ⟨rfl, id, rfl, rfl, .inl rfl, id, e, rfl, rfl, fun _ => .of_eq rfl rfl rfl rfl⟩

theorem Kept.updUpd {f : Upd → Upd} (h : Kept m s₀ s) (e : (f s.upd).recovery = s.upd.recovery) : Kept m s₀ (s.updUpd f) :=
  h.trans ⟨rfl, id, rfl, rfl, .inl rfl, id, e, rfl, rfl, fun _ => .of_eq rfl rfl rfl rfl⟩

theorem Kept.updKrg {f : Krg → Krg} (h : Kept m s₀ s) (e : (f s.krg).st = s.krg.st) : Kept m s₀ (s.updKrg f) :=
  h.trans ⟨rfl, id, rfl, rfl, .inl rfl, id, rfl, e, rfl, fun _ => .of_eq rfl rfl rfl rfl⟩

/-! ### Control -/

theorem Kept.ite {c : Prop} [Decidable c] {a b : State} (ha : Kept m s₀ a) (hb : Kept m s₀ b) : Kept m s₀ (if c then a else b) := by
  split
  · exact ha
  · exact hb

theorem Kept.overL {α : Type} {l : List α} {f : α → State → State} (h : Kept m s₀ s)
    (hf : ∀ x u, Kept m s₀ u → Kept m s₀ (f x u)) : Kept m s₀ (overL l f s) := by
  unfold Machine.overL
  induction l generalizing s with
  | nil => exact h
  | cons x l ih => exact ih (hf x s h)

theorem Kept.when {b : Bool} {f : State → State} (h : Kept m s₀ s) (hf : ∀ u, Kept m s₀ u → Kept m s₀ (f u)) :
    Kept m s₀ (when b f s) :=
  .ite (hf s h) h

/-! ### Records, events and completions -/

section
variable (s : State)

theorem untaken_overL {α : Type} {l : List α} {f : α → State → State} (hf : ∀ x u, Untaken u (f x u)) (s : State) :
    Untaken s (Machine.overL l f s) :=
  overL_rel Untaken.refl Untaken.trans _ _ hf s

theorem State.iceRecord_untaken (c src v : Nat) (p : List Byte) : Untaken s (s.iceRecord c src v p) := .of_qs (by simp)

theorem State.ringWrite_untaken (q : Fin 32) (bs : List Byte) : Untaken s (s.ringWrite q bs) :=
  (s.updQ_untaken q (fun k => { k with
    cqTail := if (s.qs[q]).cqTail + 1 ≥ (s.qs[q]).depth then 0 else k.cqTail + 1
    phase := if (s.qs[q]).cqTail + 1 ≥ (s.qs[q]).depth then !k.phase else k.phase }) (fun _ => rfl) fun _ => rfl).trans (.of_qs rfl)

theorem State.sendMsg_untaken (lane : Cls) (typ dst queue cls : Nat) (pl : List Byte) (fr : Option (Fin 32 × Option Nat))
    (e : Bool) (x : Option Nat) (k : Option (Nat × Option Word)) : Untaken s (s.sendMsg lane typ dst queue cls pl fr e x k) := by
  unfold State.sendMsg
  extract_lets bytes
  refine untaken_overL (fun _ _ => ?_) s
  exact .of_qs rfl

theorem State.twAdd_untaken (e : TwEnt) (b : Bool) : Untaken s (s.twAdd e b) := .of_qs rfl

theorem State.dropOuts_untaken (p : Out → Bool) : Untaken s (s.dropOuts p) := .of_qs rfl

theorem State.eventPut_untaken (q : Fin 32) (e : Event) : Untaken s (s.eventPut q e) := by
  have h := (s.ringWrite_untaken q (eventBytes (s.qs[q]).eseq (s.qs[q]).phase e)).trans
    (State.updQ_untaken _ q (fun k => { k with eseq := (k.eseq + 1) % 2 ^ 32 }) (fun _ => rfl) fun _ => rfl)
  unfold State.eventPut
  extract_lets _ _ _
  split
  · exact h.trans (State.sendMsg_untaken ..)
  · exact h.trans (State.twAdd_untaken ..)
  · exact h

theorem State.eventTo_untaken (e : Event) (q : Fin 32) : Untaken s (s.eventTo e q) := by
  unfold State.eventTo
  extract_lets _
  split
  · exact s.eventPut_untaken q e
  · split
    · exact s.updQ_untaken q _ (fun _ => rfl) fun _ => rfl
    · split
      · exact s.updQ_untaken q _ (fun _ => rfl) fun _ => rfl
      · exact s.updQ_untaken q _ (fun _ => rfl) fun _ => rfl

theorem State.drain_untaken (q : Fin 32) : Untaken s (s.drain q) := by
  refine untaken_overL (fun _ u => ?_) s
  unfold State.drainOne
  extract_lets k pick
  clear_value pick
  split
  · exact .refl u
  · split
    · exact (u.eventPut_untaken q _).trans (State.updQ_untaken _ q _ (fun _ => rfl) fun _ => rfl)
    · split
      · exact .refl u
      · exact (u.eventPut_untaken q _).trans (State.updQ_untaken _ q _ (fun _ => rfl) fun _ => rfl)

theorem State.postOnly_untaken (c src : Nat) (p : List Byte) : Untaken s (s.postOnly c src p) := by
  unfold State.postOnly
  extract_lets e
  split
  · exact .of_qs rfl
  · exact untaken_overL (fun q u => u.eventTo_untaken e q) s

theorem State.postRec_untaken (c src : Nat) (p : List Byte) : Untaken s (s.postRec c src p) :=
  (s.iceRecord_untaken ..).trans (State.postOnly_untaken ..)

theorem State.latMiss_untaken (q : Fin 32) (g : Word) (f lat : Nat) : Untaken s (s.latMiss q g f lat) := by
  unfold State.latMiss
  split
  · exact (s.postRec_untaken ..).trans (.of_qs rfl)
  · exact .refl s

theorem State.latNote_untaken (t : Taken) (lat : Nat) : Untaken s (s.latNote t lat) := by
  unfold State.latNote
  split
  · exact s.latMiss_untaken ..
  · exact .refl s

theorem Queue.settle_vis (k : Queue) : k.settle.vis = k.vis := by
  unfold Queue.settle
  split <;> rfl

theorem Queue.settle_waiting (k : Queue) : k.settle.waiting = k.waiting := by
  unfold Queue.settle
  split <;> rfl

theorem State.writeCpl_untaken (t : Taken) (x : Nat) (f : Option Nat) (r d : List Byte) (e : Bool) :
    Untaken s (s.writeCpl t x f r d e) := by
  unfold State.writeCpl
  extract_lets k room out asked hasData trunc fr lat ent msg s1 keep s2 s3
  split
  · exact s.updQ_untaken t.q _ (fun _ => Queue.settle_vis _) fun _ => Queue.settle_waiting _
  · have h1 : Untaken s s1 := by
      unfold s1
      split <;> exact .of_qs rfl
    have h2 : Untaken s s2 := (h1.trans (State.ringWrite_untaken ..)).trans
      (State.updQ_untaken _ t.q _ (fun _ => Queue.settle_vis _) fun _ => Queue.settle_waiting _)
    clear_value s2
    have h3 : Untaken s s3 := h2.trans (.of_qs rfl)
    split
    · exact h3.trans (State.sendMsg_untaken ..)
    · exact (h3.trans (State.twAdd_untaken ..)).trans (State.latNote_untaken ..)
    · exact h3.trans (State.latNote_untaken ..)

theorem State.cmdStart_untaken (t : Taken) : Untaken s (s.cmdStart t) := by
  unfold State.cmdStart
  extract_lets s1
  have h1 : Untaken s s1 := (Untaken.of_qs (s := s) (t := { s with free := s.free + 1 }) rfl).trans (State.postOnly_untaken ..)
  split
  · exact h1.trans (State.latNote_untaken ..)
  · exact h1

theorem State.writeOut_untaken (t : Taken) (x : Nat) (f : Option Nat) (r d : List Byte) (e b : Bool) :
    Untaken s (s.writeOut t x f r d e b) := by
  unfold State.writeOut
  extract_lets s1
  split
  · exact (s.writeCpl_untaken ..).trans (State.postOnly_untaken ..)
  · exact s.writeCpl_untaken ..

theorem State.flushOne_untaken (q : Fin 32) : Untaken s (s.flushOne q) := by
  unfold State.flushOne
  split
  · exact (s.dropOuts_untaken _).trans (State.writeOut_untaken ..)
  · exact .refl s

theorem State.close_untaken (t : Taken) (x : Nat) (f : Option Nat) (r d : List Byte) (e b : Bool) :
    Untaken s (s.close t x f r d e b) := by
  unfold State.close
  split
  · exact .of_qs rfl
  · exact (s.writeOut_untaken ..).trans (untaken_overL (fun _ u => u.flushOne_untaken _) _)

end

theorem Kept.iceRecord {c src v : Nat} {p : List Byte} (h : Kept m s₀ s) : Kept m s₀ (s.iceRecord c src v p) :=
  h.posted (s.iceRecord_told ..).posted (s.iceRecord_untaken ..)

theorem Kept.keepEvent {c src : Nat} {p : List Byte} (h : Kept m s₀ s) : Kept m s₀ (s.keepEvent c src p) := by
  obtain ⟨i, e⟩ := s.keepEvent_ex c src p
  exact e ▸ h.aside

theorem Kept.sendMsg {lane : Cls} {typ dst queue cls : Nat} {pl : List Byte} {fr : Option (Fin 32 × Option Nat)} {e : Bool}
    {x : Option Nat} {k : Option (Nat × Option Word)} (h : Kept m s₀ s) : Kept m s₀ (s.sendMsg lane typ dst queue cls pl fr e x k) :=
  h.posted (s.sendMsg_told ..).posted (s.sendMsg_untaken ..)

theorem Kept.twAdd {e : TwEnt} {b : Bool} (h : Kept m s₀ s) : Kept m s₀ (s.twAdd e b) :=
  h.posted (s.twAdd_told ..).posted (s.twAdd_untaken e b)

theorem Kept.drain {q : Fin 32} (h : Kept m s₀ s) : Kept m s₀ (s.drain q) := h.posted (s.drain_told ..).posted (s.drain_untaken q)

theorem Kept.eventTo {e : Event} {q : Fin 32} (h : Kept m s₀ s) : Kept m s₀ (s.eventTo e q) :=
  h.posted (s.eventTo_told ..).posted (s.eventTo_untaken e q)

theorem Kept.latMiss {q : Fin 32} {g : Word} {f lat : Nat} (h : Kept m s₀ s) : Kept m s₀ (s.latMiss q g f lat) :=
  h.posted (s.latMiss_told ..).posted (s.latMiss_untaken ..)

theorem Kept.iceOpen {c o f : Nat} {p : List Byte} (h : Kept m s₀ s) : Kept m s₀ (s.iceOpen c o f p) := by
  obtain ⟨i, e⟩ := s.iceOpen_ex c o f p
  exact e ▸ h.aside

theorem Kept.iceGap (h : Kept m s₀ s) : Kept m s₀ s.iceGap := by
  obtain ⟨i, e⟩ := s.iceGap_ex
  exact e ▸ h.aside

theorem Kept.postOnly {c src : Nat} {p : List Byte} (h : Kept m s₀ s) : Kept m s₀ (s.postOnly c src p) :=
  h.posted (s.postOnly_told ..).posted (s.postOnly_untaken ..)

theorem Kept.postRec {c src : Nat} {p : List Byte} (h : Kept m s₀ s) : Kept m s₀ (s.postRec c src p) :=
  h.posted (s.postRec_told ..).posted (s.postRec_untaken ..)

theorem Kept.violation {k p : Nat} {w : Option (Fin 16)} {q : Option (Fin 32)} {a : Nat} (h : Kept m s₀ s) :
    Kept m s₀ (s.violation k p w q a) := by
  obtain ⟨i, v, x, e⟩ := s.violation_ex k p w q a
  exact e ▸ h.aside

theorem Kept.cmdStart {t : Taken} (h : Kept m s₀ s) : Kept m s₀ (s.cmdStart t) :=
  h.posted (s.cmdStart_told t).posted (s.cmdStart_untaken t)

theorem Kept.startOuts {p : Out → Bool} (h : Kept m s₀ s) : Kept m s₀ (s.startOuts p) :=
  h.aside.overL fun _ _ hu => hu.cmdStart

theorem Kept.cmdDone {t : Taken} {st : Nat} {r : List Byte} (h : Kept m s₀ s) : Kept m s₀ (s.cmdDone t st r) := h.postOnly

theorem Kept.dropOuts {p : Out → Bool} (h : Kept m s₀ s) : Kept m s₀ (s.dropOuts p) :=
  h.posted (s.dropOuts_posted p) (s.dropOuts_untaken p)

theorem Kept.await {t : Taken} {w : Wait} (h : Kept m s₀ s) : Kept m s₀ (s.await t w) := h.posted (s.await_posted t w) (.of_qs rfl)

theorem Kept.writeCpl {t : Taken} {x : Nat} {f : Option Nat} {r d : List Byte} {e : Bool} (h : Kept m s₀ s) :
    Kept m s₀ (s.writeCpl t x f r d e) := h.posted (s.writeCpl_told ..).posted (s.writeCpl_untaken ..)

theorem Kept.complete {t : Taken} {x : Nat} {f : Option Nat} {r d : List Byte} {e : Bool} (h : Kept m s₀ s) :
    Kept m s₀ (s.complete t x f r d e) := h.posted (s.complete_posted ..) (s.close_untaken ..)

theorem Kept.finish {t : Taken} {x : Nat} {f : Option Nat} {r : List Byte} (h : Kept m s₀ s) : Kept m s₀ (s.finish t x f r) :=
  h.posted (s.finish_posted ..) (s.close_untaken ..)

theorem Kept.refuse {t : Taken} {x : Nat} {r : List Byte} (h : Kept m s₀ s) : Kept m s₀ (s.refuse t x r) :=
  h.posted (s.refuse_posted ..) (s.close_untaken ..)

theorem Kept.completeOuts {p : Out → Bool} {f : Out → State → State} (h : Kept m s₀ s)
    (hf : ∀ x u, Kept m s₀ u → Kept m s₀ (f x u)) : Kept m s₀ (s.completeOuts p f) :=
  h.overL fun x _ hu => .ite (hf x _ hu.dropOuts) hu

/-! ### The operations of Ops -/

theorem Kept.updCh {n : Fin 64} {f : Chan → Chan} (h : Kept false s₀ s) : Kept false s₀ (s.updCh n f) := h.other

theorem Kept.mapCh {f : Fin 64 → Chan → Chan} (h : Kept false s₀ s) : Kept false s₀ (s.mapCh f) := h.other

theorem Kept.updQ {q : Fin 32} {f : Queue → Queue} (h : Kept false s₀ s) : Kept false s₀ (s.updQ q f) := h.other

theorem Kept.updGrp {g : Fin 5} {f : Machine.Group → Machine.Group} (h : Kept m s₀ s) : Kept m s₀ (s.updGrp g f) := h.aside

theorem Kept.updAux {r : Fin 4} {f : Aux → Aux} (h : Kept m s₀ s) : Kept m s₀ (s.updAux r f) := h.aside

theorem Kept.updPd {p : Fin 2} {f : PdPort → PdPort} (h : Kept m s₀ s) : Kept m s₀ (s.updPd p f) := h.aside

theorem Kept.updPh {p : Fin 16} {f : Phase → Phase} (h : Kept m s₀ s) : Kept m s₀ (s.updPh p f) := h.aside

theorem Kept.updCap {c : Fin 16} {f : Machine.Stream → Machine.Stream} (h : Kept m s₀ s) : Kept m s₀ (s.updCap c f) := h.aside

@[simp] theorem Upd.putCopy_recovery (u : Upd) (b : Bool) (c : SetCopy) : (u.putCopy b c).recovery = u.recovery := by
  unfold Upd.putCopy
  split <;> rfl

theorem Kept.storeSettings (h : Kept m s₀ s) : Kept m s₀ s.storeSettings := .ite h (h.setUpd (s.upd.putCopy_recovery ..))

theorem Kept.setFault {b : Fin 9} (h : Kept m s₀ s) : Kept m s₀ (s.setFault b) := h.aside

/-! ### The operations of Queues -/

theorem Kept.violate {t : Taken} {kind : Nat} (h : Kept false s₀ s) : Kept false s₀ (s.violate t kind) := by
  unfold State.violate
  exact h.violation.refuse

theorem Kept.unknownOp {t : Taken} (h : Kept false s₀ s) : Kept false s₀ (s.unknownOp t) := h.refuse

theorem Kept.guarded {t : Taken} {extra : List (Nat × Bool)} {eff : State → State} (h : Kept false s₀ s)
    (heff : ∀ u, Kept false s₀ u → Kept false s₀ (eff u)) : Kept false s₀ (s.guarded t extra eff) := by
  unfold State.guarded
  split
  · exact h.unknownOp
  · split
    · exact heff s h
    · exact .ite h.violate h.refuse

theorem Kept.takeCount {t : Taken} (h : Kept false s₀ s) : Kept false s₀ (s.takeCount t) := by
  unfold State.takeCount
  exact h.other

theorem Kept.guardedCred {t : Taken} {need : Bool} {extra : List (Nat × Bool)} {eff : State → State}
    (h : Kept false s₀ s) (heff : ∀ u, Kept false s₀ u → Kept false s₀ (eff u)) : Kept false s₀ (s.guardedCred t need extra eff) := by
  unfold State.guardedCred
  exact (Kept.ite h.takeCount h).guarded heff

theorem Kept.stage {t : Taken} {due : DueAt} {writes : List (FKey × Nat)} {result : List Byte} (h : Kept false s₀ s) :
    Kept false s₀ (s.stage t due writes result) := by
  unfold State.stage
  exact h.other.await

theorem Kept.abortFences {q : Fin 32} (h : Kept false s₀ s) : Kept false s₀ (s.abortFences q) := by
  unfold State.abortFences
  exact h.completeOuts (fun _ _ hu => hu.refuse.updQ)

theorem Kept.markDead {q : Fin 32} (h : Kept false s₀ s) : Kept false s₀ (s.markDead q) := by
  unfold State.markDead
  exact h.updQ.other

theorem Kept.freshRings {q : Fin 32} (h : Kept false s₀ s) : Kept false s₀ (s.freshRings q) := by
  unfold State.freshRings
  exact h.updQ.other

theorem Kept.queueEnable {q : Fin 32} (h : Kept false s₀ s) : Kept false s₀ (s.queueEnable q) := .ite h.freshRings.updQ h

theorem Kept.queueDisable {q : Fin 32} (h : Kept false s₀ s) : Kept false s₀ (s.queueDisable q) := by
  unfold State.queueDisable
  split
  · exact h
  · exact h.updQ.updQ
  · exact h.markDead.updQ.updQ

theorem Kept.queueStop {q : Fin 32} (h : Kept false s₀ s) : Kept false s₀ (s.queueStop q) :=
  .ite h.updQ.abortFences.markDead.postOnly h

theorem Kept.queueRestart {q : Fin 32} (h : Kept false s₀ s) : Kept false s₀ (s.queueRestart q) :=
  .ite h.updQ.freshRings.updQ.postOnly h

theorem Kept.bringUp {old : State} (h : Kept false s₀ s) : Kept false s₀ (s.bringUp old) := h.other

theorem Kept.applyWrite {w : FKey × Nat} (h : Kept false s₀ s) : Kept false s₀ (s.applyWrite w) := by
  unfold State.applyWrite
  refine .ite h.updCh <| .ite (Kept.ite h h.updCh).other <| .ite h.other <| .ite h.other <| .ite h.other <|
    .ite h.updQ <| .ite (.ite h.queueDisable (.ite h.queueEnable h.queueRestart)) <| .ite h.other <| .ite h.updGrp <|
    .ite h.updGrp <| .ite h.updGrp <| .ite h.updGrp <| .ite h.other <| .ite (.ite ?interval ?mask) <| .ite h.other <|
    .ite h.updCh.iceRecord <| .ite h.other <| .ite h.other h
  case interval => exact (h.updKrg (f := fun k => { k with wakeS := w.2 }) (by rfl))
  case mask => exact (h.updKrg (f := fun k => { k with wakeMask := BitVec.ofNat 3 w.2 }) (by rfl))

theorem Kept.applyWrites {l : List (FKey × Nat)} (h : Kept false s₀ s) : Kept false s₀ (s.applyWrites l) :=
  h.overL (fun _ _ hu => hu.applyWrite)

theorem Kept.pended (h : Kept false s₀ s) : Kept false s₀ s.pended := h.applyWrites

theorem Kept.applyStaged {due : DueAt} (h : Kept false s₀ s) : Kept false s₀ (s.applyStaged due) :=
  h.other.overL (fun _ _ hu => hu.applyWrites.bringUp)

theorem Kept.took {t : Taken} (h : Kept false s₀ s) : Kept false s₀ (s.took t) := by
  unfold State.took
  exact .ite h.updQ.other h.updQ

theorem Kept.begin {t : Taken} {f : Taken → State → State} (h : Kept false s₀ s) (hf : ∀ x u, Kept false s₀ u → Kept false s₀ (f x u)) :
    Kept false s₀ (s.begin t f) := .ite h.updQ (hf t s h)

theorem Kept.start {t : Taken} {f : Taken → State → State} (h : Kept false s₀ s) (hf : ∀ x u, Kept false s₀ u → Kept false s₀ (f x u)) :
    Kept false s₀ (s.start t f) := h.took.begin hf

theorem Kept.rowCmd {f : Taken → State → State} {op : Nat} {q : Fin 32} {d : CmdArgs}
    (h : Kept false s₀ s) (hf : ∀ x u, Kept false s₀ u → Kept false s₀ (f x u)) : Kept false s₀ (s.rowCmd f op q d) :=
  .ite (h.updQ.start hf) h

theorem Kept.spiViolation {kind : Nat} {q : Option (Fin 32)} {addr : Nat} (h : Kept false s₀ s) :
    Kept false s₀ (s.spiViolation kind q addr) := by
  unfold State.spiViolation
  exact h.violation.other

theorem Kept.addVis {q : Fin 32} {n : Nat} (h : Kept false s₀ s) : Kept false s₀ (s.addVis q n) := h.overL (fun _ _ hu => hu.updQ)

theorem Kept.sqdb {q : Fin 32} {w : Word} (h : Kept false s₀ s) : Kept false s₀ (s.sqdb q w) := by
  unfold State.sqdb
  exact .ite h.spiViolation h.updQ.addVis

theorem Kept.freeTo {q : Fin 32} {i : Nat} (h : Kept false s₀ s) : Kept false s₀ (s.freeTo q i) := by
  unfold State.freeTo
  exact h.updQ.drain

theorem Kept.cqdb {q : Fin 32} {w : Word} (h : Kept false s₀ s) : Kept false s₀ (s.cqdb q w) := by
  unfold State.cqdb
  exact .ite h.spiViolation h.freeTo

theorem Kept.qctl {q : Fin 32} {w : Word} (h : Kept false s₀ s) : Kept false s₀ (s.qctl q w) := by
  unfold State.qctl
  extract_lets s1 s2
  have hs1 : Kept false s₀ s1 := h.updQ
  have hs2 : Kept false s₀ s2 := .ite hs1.queueRestart hs1
  exact .ite h.spiViolation (.ite hs2.queueEnable hs2.queueDisable)

theorem Kept.setWinbase {w : Word} (h : Kept false s₀ s) : Kept false s₀ (s.setWinbase w) := by
  unfold State.setWinbase
  exact .ite h.spiViolation h.other

theorem Kept.cmdFence {t : Taken} (h : Kept false s₀ s) : Kept false s₀ (cmdFence t s) := by
  unfold Machine.cmdFence
  exact h.guarded (fun _ hu => .ite hu.complete hu.await)

theorem Kept.cmdOwnerMap {t : Taken} (h : Kept false s₀ s) : Kept false s₀ (cmdOwnerMap t s) := by
  unfold Machine.cmdOwnerMap
  exact h.guarded (fun _ hu => hu.stage)

theorem Kept.cmdOwnerRes {t : Taken} (h : Kept false s₀ s) : Kept false s₀ (cmdOwnerRes t s) := by
  unfold Machine.cmdOwnerRes
  exact h.guardedCred (fun _ hu => hu.stage)

theorem Kept.cmdQCfg {t : Taken} (h : Kept false s₀ s) : Kept false s₀ (cmdQCfg t s) := h.guarded (fun _ hu => hu.stage)

theorem Kept.cmdQCtl {t : Taken} (h : Kept false s₀ s) : Kept false s₀ (cmdQCtl t s) := h.guarded (fun _ hu => hu.stage)

theorem Kept.cmdVioClear {t : Taken} (h : Kept false s₀ s) : Kept false s₀ (cmdVioClear t s) := h.guarded (fun _ hu => hu.stage)

/-! ### The operations of Capture -/

theorem Kept.fireLinked {i : Fin 16} (h : Kept false s₀ s) : Kept false s₀ (s.fireLinked i) := h.other

theorem Kept.fireStream {i : Fin 16} (h : Kept false s₀ s) : Kept false s₀ (s.fireStream i) := .ite h.updCap.fireLinked h

theorem Kept.fireWhere {p : Machine.Stream → Bool} (h : Kept m s₀ s) : Kept m s₀ (s.fireWhere p) := h.aside

theorem Kept.fireCount (h : Kept false s₀ s) : Kept false s₀ s.fireCount := h.fireWhere

theorem Kept.capChannel {n : Fin 64} {tripped : Bool} {cause : Cause} (h : Kept m s₀ s) :
    Kept m s₀ (s.capChannel n tripped cause) :=
  h.fireWhere

theorem Kept.feedStreams {words : Machine.Stream → List Nat} (h : Kept false s₀ s) : Kept false s₀ (s.feedStreams words) :=
  .ite h (h.other.overL (fun _ _ hu => hu.fireLinked))

theorem Kept.fireRecord (h : Kept false s₀ s) : Kept false s₀ s.fireRecord := .ite h.fireWhere h

theorem Kept.cmdCapCfg {t : Taken} (h : Kept false s₀ s) : Kept false s₀ (cmdCapCfg t s) := by
  unfold Machine.cmdCapCfg
  exact h.guarded (fun _ hu => hu.stage)

theorem Kept.cmdCapArm {t : Taken} (h : Kept false s₀ s) : Kept false s₀ (cmdCapArm t s) := h.guarded (fun _ hu => hu.stage)

theorem Kept.cmdCapTrig {t : Taken} (h : Kept false s₀ s) : Kept false s₀ (cmdCapTrig t s) := h.guarded (fun _ hu => hu.stage)

theorem Kept.cmdCapRelease {t : Taken} (h : Kept false s₀ s) : Kept false s₀ (cmdCapRelease t s) := h.guarded (fun _ hu => hu.stage)

theorem Kept.cmdCapRead {t : Taken} (h : Kept false s₀ s) : Kept false s₀ (cmdCapRead t s) := by
  unfold Machine.cmdCapRead
  exact h.guarded (fun _ hu => hu.complete)

theorem Kept.cmdCapNet {t : Taken} (h : Kept false s₀ s) : Kept false s₀ (cmdCapNet t s) := by
  unfold Machine.cmdCapNet
  exact h.guarded (fun _ hu => hu.other.stage)

/-! ### The operations of Cfg -/

theorem Kept.cfgThen {t : Taken} {c : CfgSpec} {eff : State → State} (h : Kept false s₀ s)
    (heff : ∀ u, Kept false s₀ u → Kept false s₀ (eff u)) : Kept false s₀ (s.cfgThen t c eff) := by
  unfold State.cfgThen
  split
  · exact h.unknownOp
  · have counted (b : Bool) : Kept false s₀ (if b then s.takeCount t else s) := .ite h.takeCount h
    dsimp only
    split
    · refine .ite (counted _).violate ?_
      split
      · exact (counted _).refuse
      · exact (counted _).refuse
    · exact heff _ (counted _)

theorem Kept.cfg {t : Taken} {c : CfgSpec} (h : Kept false s₀ s) : Kept false s₀ (s.cfg t c) := h.cfgThen (fun _ hu => hu.stage)

theorem Kept.cmdChCfg {t : Taken} (h : Kept false s₀ s) : Kept false s₀ (cmdChCfg t s) := h.cfg

theorem Kept.cmdCvCfg {t : Taken} (h : Kept false s₀ s) : Kept false s₀ (cmdCvCfg t s) := h.cfg

theorem Kept.cmdAuxCfg {t : Taken} (h : Kept false s₀ s) : Kept false s₀ (cmdAuxCfg t s) := h.cfg

theorem Kept.cmdLawCfg {t : Taken} (h : Kept false s₀ s) : Kept false s₀ (cmdLawCfg t s) := h.cfg

theorem Kept.cmdStagCfg {t : Taken} (h : Kept false s₀ s) : Kept false s₀ (cmdStagCfg t s) := h.cfg

theorem Kept.cmdCapSet {t : Taken} (h : Kept false s₀ s) : Kept false s₀ (cmdCapSet t s) := h.cfg

theorem Kept.cmdHuCfg {t : Taken} (h : Kept false s₀ s) : Kept false s₀ (cmdHuCfg t s) := h.cfg

theorem Kept.cmdBatCfg {t : Taken} (h : Kept false s₀ s) : Kept false s₀ (cmdBatCfg t s) := h.cfg

theorem Kept.cmdHingeCfg {t : Taken} (h : Kept false s₀ s) : Kept false s₀ (cmdHingeCfg t s) := h.cfg

theorem Kept.cmdPdCfg {t : Taken} (h : Kept false s₀ s) : Kept false s₀ (cmdPdCfg t s) := h.cfg

/-! ### The operations of Sense -/

theorem Kept.cmdSnsMask {t : Taken} (h : Kept false s₀ s) : Kept false s₀ (cmdSnsMask t s) := by
  unfold Machine.cmdSnsMask
  exact h.guarded (fun _ hu => hu.stage)

theorem Kept.cmdSnsGain {t : Taken} (h : Kept false s₀ s) : Kept false s₀ (cmdSnsGain t s) := by
  unfold Machine.cmdSnsGain
  exact h.guarded (fun _ hu => hu.stage)

theorem Kept.cmdSnsFilter {t : Taken} (h : Kept false s₀ s) : Kept false s₀ (cmdSnsFilter t s) := by
  unfold Machine.cmdSnsFilter
  exact h.guarded (fun _ hu => hu.stage)

theorem Kept.cmdSnsInj {t : Taken} (h : Kept false s₀ s) : Kept false s₀ (cmdSnsInj t s) := h.guarded (fun _ hu => hu.stage)

theorem Kept.cmdSnsZone {t : Taken} (h : Kept false s₀ s) : Kept false s₀ (cmdSnsZone t s) := by
  unfold Machine.cmdSnsZone
  exact h.guarded (fun _ hu => hu.stage)

theorem Kept.readDone {t : Taken} {result data : List Byte} (h : Kept false s₀ s) : Kept false s₀ (s.readDone t result data) :=
  h.complete

theorem Kept.cmdSnsRead {t : Taken} (h : Kept false s₀ s) : Kept false s₀ (cmdSnsRead t s) := by
  unfold Machine.cmdSnsRead
  refine h.guarded fun _ hu => ?_
  split
  · exact hu.await
  · exact hu.other.readDone

theorem Kept.injTimer {g : Fin 5} (h : Kept false s₀ s) : Kept false s₀ (s.injTimer g) := by
  unfold State.injTimer
  exact .ite h.updGrp h

theorem Kept.arcDegraded {g : Fin 5} (h : Kept m s₀ s) : Kept m s₀ (s.arcDegraded g) := by
  unfold State.arcDegraded
  exact (h.overL (fun _ _ hu => hu.postOnly)).iceRecord

theorem Kept.healthStep {g : Fin 5} (h : Kept m s₀ s) : Kept m s₀ (s.healthStep g) := by
  unfold State.healthStep
  extract_lets _ s1 s2
  have hs1 : Kept m s₀ s1 := h.updGrp.iceRecord
  have hs2 : Kept m s₀ s2 := .ite hs1.setFault hs1
  exact .ite hs2.arcDegraded hs2

theorem Kept.retireSlice {g pos : Fin 5} (h : Kept m s₀ s) : Kept m s₀ (s.retireSlice g pos) := by
  unfold State.retireSlice
  exact .ite h ((Kept.ite h.iceRecord.updGrp.iceRecord h.iceRecord.updGrp).healthStep)

theorem Kept.sliceUpdate {g : Fin 5} {e : SliceEst} {margin : Vector Int 5} (h : Kept m s₀ s) :
    Kept m s₀ (s.sliceUpdate g e margin) := by
  unfold State.sliceUpdate
  extract_lets _ _ s1 s2 s2'
  have hs1 : Kept m s₀ s1 := h.updGrp
  have hs2 : Kept m s₀ s2 := hs1.updGrp
  have hs2' : Kept m s₀ s2' := .ite hs1 (.ite hs2.retireSlice hs2)
  exact hs2'.overL (fun _ _ hu => hu.retireSlice)

/-! ### The operations of Convert -/

theorem Kept.senseRound {g : Fin 5} {i : FrameIn} {r : Fin 20} (h : Kept false s₀ s) : Kept false s₀ (s.senseRound g i r) := by
  unfold State.senseRound
  exact .ite h (h.updGrp.overL (fun _ _ hu => hu.retireSlice))

theorem Kept.senseGroup {g : Fin 5} {i : FrameIn} (h : Kept false s₀ s) : Kept false s₀ (s.senseGroup g i) := by
  unfold State.senseGroup
  extract_lets s1 s2 s3
  have hs1 : Kept false s₀ s1 := h.updGrp
  have hs2 : Kept false s₀ s2 := hs1.overL (fun _ _ hu => hu.senseRound)
  have hs3 : Kept false s₀ s3 := .ite hs2.retireSlice hs2
  exact .ite hs1.updGrp hs3.updGrp

theorem Kept.captureWords (h : Kept false s₀ s) : Kept false s₀ s.captureWords := h.feedStreams

theorem Kept.senseFrame {i : FrameIn} (h : Kept false s₀ s) : Kept false s₀ (s.senseFrame i) := by
  unfold State.senseFrame
  exact ((h.overL (fun _ _ hu => hu.senseGroup)).mapCh).captureWords

/-! ### The operations of Chan -/

theorem Kept.admDrop {n : Fin 64} {status : Nat} (h : Kept m s₀ s) : Kept m s₀ (s.admDrop n status) :=
  h.aside.completeOuts (fun _ _ hu => hu.complete)

theorem Kept.admAdd {e : AdmEntry} (h : Kept m s₀ s) : Kept m s₀ (s.admAdd e) := .ite h h.aside

theorem Kept.unrestore {n : Fin 64} (h : Kept m s₀ s) : Kept m s₀ (s.unrestore n) := h.aside

theorem Kept.placeSinks (h : Kept false s₀ s) : Kept false s₀ s.placeSinks := by
  unfold State.placeSinks
  refine h.overL fun _ _ hu => ?_
  extract_lets
  refine .ite hu ?_
  split
  · exact hu
  · exact hu.updCh

/-- A change of state is none of the figures of its Channel. -/
theorem Chan.change_figures (c : Chan) (now drive disch : Nat) (dst : ChState) (cause : Cause) (mask detail : Nat) (tag : Word) :
    (c.change now drive disch dst cause mask detail tag).figures = c.figures := by
  show (c.probeOff now).figures = c.figures
  unfold Chan.probeOff
  split <;> rfl

theorem Kept.enterNow {n : Fin 64} {dst : ChState} {cause : Cause} {mask detail : Nat} {tag : Word} (h : Kept m s₀ s) :
    Kept m s₀ (s.enterNow n dst cause mask detail tag) := by
  unfold State.enterNow
  extract_lets _ _ _ _ _ s1 _ s2 s3 s4 s5 s6 s7
  have hs1 : Kept m s₀ s1 := h.aside.updMetered fun c => c.change_figures ..
  have hs2 : Kept m s₀ s2 := .ite hs1.postRec hs1.postOnly
  have hs3 : Kept m s₀ s3 := hs2.when (fun _ hu => hu.setFault)
  have hs4 : Kept m s₀ s4 := hs3.when (fun _ hu => hu.aside)
  have hs5 : Kept m s₀ s5 := hs4.capChannel
  have hs6 : Kept m s₀ s6 := hs5.when (fun _ hu => hu.admDrop)
  have hs7 : Kept m s₀ s7 := hs6.unrestore
  exact .ite hs5 (.ite hs7.aside (.ite hs7.aside hs7))

theorem Kept.enter {n : Fin 64} {dst : ChState} {cause : Cause} {mask detail : Nat} {tag : Word} (h : Kept m s₀ s) :
    Kept m s₀ (s.enter n dst cause mask detail tag) := .ite h.enterNow h

theorem Kept.lockoutSet {ld : Fin 64} {detail : Nat} (h : Kept m s₀ s) : Kept m s₀ (s.lockoutSet ld detail) :=
  h.overL (fun _ _ hu => hu.enter)

theorem Kept.tripPolicyAt {ld : Fin 64} {prim : Cause} {now : Nat} (h : Kept m s₀ s) : Kept m s₀ (s.tripPolicyAt ld prim now) := by
  unfold State.tripPolicyAt
  exact .ite (h.updMetered (by exact fun _ => rfl))
    (.ite (h.updMetered (by exact fun _ => rfl)).lockoutSet
      ((h.updMetered (by exact fun _ => rfl)).updMetered (by exact fun _ => rfl)))

theorem Kept.tripPolicy {ld : Fin 64} {prim : Cause} (h : Kept m s₀ s) : Kept m s₀ (s.tripPolicy ld prim) := h.tripPolicyAt

theorem Kept.tmbBlock {r : Raise} (h : Kept m s₀ s) : Kept m s₀ (s.tmbBlock r) := h.aside.iceRecord

theorem Kept.resolveSet {ld : Fin 64} {rs : List Raise} (h : Kept m s₀ s) : Kept m s₀ (s.resolveSet ld rs) := by
  unfold State.resolveSet
  extract_lets ok0 s0 ok lvl
  have blocked : Kept m s₀ s0 := h.overL fun _ _ hu => hu.tmbBlock
  clear_value lvl
  split
  · exact blocked
  · extract_lets s1
    have entered : Kept m s₀ s1 := by
      refine blocked.overL fun m u hu => ?_
      extract_lets own mask
      split
      · exact hu.enter
      · exact .ite hu.enter hu
    refine .ite ?_ entered
    split
    · exact entered.tripPolicy
    · exact entered

theorem Kept.noteDecisions {rs : List Raise} (h : Kept m s₀ s) : Kept m s₀ (s.noteDecisions rs) := by
  unfold State.noteDecisions
  exact h.aside

theorem Kept.resolve {rs : List Raise} (h : Kept m s₀ s) : Kept m s₀ (s.resolve rs) := by
  unfold State.resolve
  exact .ite (h.overL (fun _ _ hu => hu.resolveSet)) h.noteDecisions

theorem Kept.raise1 {n : Fin 64} {cause : Cause} {dst : ChState} {detail : Nat} (h : Kept false s₀ s) :
    Kept false s₀ (s.raise1 n cause dst detail) := h.resolve

theorem Kept.offInOff {n : Fin 64} {tag : Word} (h : Kept false s₀ s) : Kept false s₀ (s.offInOff n tag) :=
  .ite (.ite h.admDrop.postOnly h.admDrop) h

theorem Kept.chOnQueue {n : Fin 64} {t : Taken} (h : Kept false s₀ s) : Kept false s₀ (s.chOnQueue n t) := by
  unfold State.chOnQueue
  extract_lets _ s' s1 s2 s3
  have hs' : Kept false s₀ s' := .ite h.offInOff h
  have hs1 : Kept false s₀ s1 := hs'.completeOuts (fun _ _ hu => hu.complete)
  have hs2 : Kept false s₀ s2 := hs1.unrestore
  have hs3 : Kept false s₀ s3 := .ite hs2.other hs2.admAdd
  exact hs3.await

theorem Kept.cmdChOn {t : Taken} (h : Kept false s₀ s) : Kept false s₀ (cmdChOn t s) := by
  unfold Machine.cmdChOn
  exact h.guarded (fun _ hu => .ite hu.complete (.ite hu.complete hu.chOnQueue))

theorem Kept.cmdChOff {t : Taken} (h : Kept false s₀ s) : Kept false s₀ (cmdChOff t s) := by
  unfold Machine.cmdChOff
  exact h.guardedCred (fun _ hu => (Kept.ite (hu.overL (fun _ _ hu2 => hu2.updCh)) hu).await)

theorem Kept.cmdChClear {t : Taken} (h : Kept false s₀ s) : Kept false s₀ (cmdChClear t s) := by
  unfold Machine.cmdChClear
  exact h.guarded (fun _ hu => .ite hu.complete hu.await)

theorem Kept.bankDrop (h : Kept false s₀ s) : Kept false s₀ s.bankDrop := by
  unfold State.bankDrop
  refine h.overL fun _ _ hu => ?_
  extract_lets s1
  have hs1 : Kept false s₀ s1 := hu.admDrop
  split
  · extract_lets
    exact .ite hs1.postOnly hs1
  · exact hu

theorem Kept.cmdBefore (h : Kept false s₀ s) : Kept false s₀ s.cmdBefore := by
  unfold State.cmdBefore
  refine h.overL fun _ _ hu => ?_
  split
  · exact .ite hu (.ite hu.offInOff hu.admDrop)
  · exact hu

theorem Kept.clearK {n : Fin 64} (h : Kept false s₀ s) : Kept false s₀ (s.clearK n) := h.updCh.unrestore

theorem Kept.cmdAfter {pre : State} (h : Kept false s₀ s) : Kept false s₀ (s.cmdAfter pre) := by
  unfold State.cmdAfter
  refine h.completeOuts fun _ _ hu => ?_
  extract_lets
  split
  · extract_lets
    exact .ite hu.complete (.ite hu.clearK.complete (.ite hu.clearK.complete hu.complete))
  · exact .ite hu.clearK.complete hu.complete
  · exact hu

theorem Kept.onAfter (h : Kept false s₀ s) : Kept false s₀ s.onAfter := by
  unfold State.onAfter
  refine h.overL fun _ _ hu => ?_
  split
  · exact hu
  · exact hu
  · exact hu.other.completeOuts (fun _ _ hu2 => .ite hu2.complete (.ite hu2.complete hu2.complete))

theorem Kept.compLatch {n : Fin 64} (h : Kept false s₀ s) : Kept false s₀ (s.compLatch n) := by
  unfold State.compLatch
  exact (h.overL (fun _ _ hu => hu.updCh)).updCh

theorem Kept.compHeld {n : Fin 64} (h : Kept false s₀ s) : Kept false s₀ (s.compHeld n) :=
  h.overL (fun _ _ hu => hu.updCh.keepEvent)

theorem Kept.compPending (h : Kept false s₀ s) : Kept false s₀ s.compPending := h.overL (fun _ _ hu => .ite hu hu.compHeld)

theorem Kept.disarmTests {missed : BitVec 64} (h : Kept false s₀ s) : Kept false s₀ (s.disarmTests missed) := h.mapCh

/-! ### The operations of Wire -/

theorem Kept.wireAll {missed : BitVec 64} (h : Kept false s₀ s) : Kept false s₀ (s.wireAll missed) := by
  unfold State.wireAll
  exact h.mapCh.overL (fun _ _ hu => .ite hu hu.postOnly)

theorem Kept.checkAll {missed : BitVec 64} (h : Kept false s₀ s) : Kept false s₀ (s.checkAll missed) := h.mapCh

theorem Kept.driveStart {n : Fin 64} (h : Kept false s₀ s) : Kept false s₀ (s.driveStart n) := by
  unfold State.driveStart
  exact .ite h h.updCh

theorem Kept.tmbClamp {n : Fin 64} {field req : Nat} (h : Kept false s₀ s) : Kept false s₀ (s.tmbClamp n field req) :=
  h.other.iceRecord

theorem Kept.rampEnds {missed : BitVec 64} (h : Kept false s₀ s) : Kept false s₀ (s.rampEnds missed) :=
  h.overL (fun _ _ hu => hu.overL (fun _ _ hu2 => hu2.enter))

theorem Kept.applyGates (h : Kept false s₀ s) : Kept false s₀ s.applyGates := h.mapCh

theorem Kept.applyCodes (h : Kept false s₀ s) : Kept false s₀ s.applyCodes := h.mapCh

theorem Kept.sendCodes (h : Kept false s₀ s) : Kept false s₀ s.sendCodes := by
  unfold State.sendCodes
  refine h.overL fun _ _ hu => ?_
  extract_lets _ _ _ _ s1 s2
  have hs1 : Kept false s₀ s1 := hu.when (fun _ hu2 => hu2.tmbClamp)
  have hs2 : Kept false s₀ s2 := hs1.when (fun _ hu2 => hu2.iceRecord.updCh)
  exact hs2.updCh

theorem Kept.meterWork {w : S5Work} (h : Kept false s₀ s) : Kept false s₀ (s.meterWork w) := h.mapCh

theorem Kept.meterAll {carry : Bool} (h : Kept false s₀ s) : Kept false s₀ (s.meterAll carry) := by
  unfold State.meterAll
  extract_lets _ s1
  have hs1 : Kept false s₀ s1 := h.other.overL (fun _ _ hu => hu.meterWork)
  exact .ite hs1 hs1.meterWork

/-! ### The operations of ArcCreep -/

theorem Kept.arcFeed (h : Kept false s₀ s) : Kept false s₀ s.arcFeed := h.mapCh

theorem Kept.arcTell {n : Fin 64} (h : Kept false s₀ s) : Kept false s₀ (s.arcTell n) := by
  unfold State.arcTell
  extract_lets _ _ _ _ s0 s1 s2 s3
  have hs0 : Kept false s₀ s0 := h.updCh
  have hs1 : Kept false s₀ s1 := .ite (.ite hs0.postOnly.updCh hs0) (.ite h.updCh h)
  have hs2 : Kept false s₀ s2 := hs1.updCh
  have hs3 : Kept false s₀ s3 := hs2.postRec
  exact .ite (.ite hs2 hs3.fireWhere.updCh) hs1

theorem Kept.arcEnd (h : Kept false s₀ s) : Kept false s₀ s.arcEnd := .ite h.mapCh.other h

theorem Kept.arcEval {missed : BitVec 64} (h : Kept false s₀ s) : Kept false s₀ (s.arcEval missed).1 :=
  h.mapCh.overL fun _ _ hu => hu.arcTell

theorem Kept.arcBlock (h : Kept false s₀ s) : Kept false s₀ s.arcBlock := .ite h.arcEval h.arcEval.resolve

theorem Kept.creepMeasure {n : Fin 64} (h : Kept m s₀ s) : Kept m s₀ (s.creepMeasure n) := by
  unfold State.creepMeasure
  exact (h.updMetered (by exact fun _ => rfl))

theorem Kept.wear {n : Fin 64} {fsoa : Nat} (h : Kept m s₀ s) : Kept m s₀ (s.wear n fsoa) := by
  unfold State.wear
  exact .ite ((((Kept.ite (h.updMetered (by exact fun _ => rfl)).postRec h).updMetered (by exact fun _ => rfl))).postRec)
    (.ite (h.updMetered (by exact fun _ => rfl)).postRec h)

theorem Kept.creepReplan {n : Fin 64} (h : Kept m s₀ s) : Kept m s₀ (s.creepReplan n) :=
  .ite h (.ite (h.updMetered (by exact fun _ => rfl)).wear
    ((h.updMetered (by exact fun _ => rfl)).when fun _ hu => hu.iceRecord).wear)

theorem Kept.creepDaily {n : Fin 64} (h : Kept m s₀ s) : Kept m s₀ (s.creepDaily n) := by
  unfold State.creepDaily
  exact .ite (h.updMetered (by exact fun _ => rfl)) h

theorem Kept.probeStart (h : Kept m s₀ s) : Kept m s₀ s.probeStart := by
  unfold State.probeStart
  dsimp only
  split
  · exact h
  · exact (h.updMetered (by exact fun _ => rfl)).aside

theorem Kept.probeWords (h : Kept false s₀ s) : Kept false s₀ s.probeWords := h.mapCh

theorem Kept.probeGuard (h : Kept false s₀ s) : Kept false s₀ s.probeGuard := h.mapCh

theorem Kept.cmdChRead {t : Taken} (h : Kept false s₀ s) : Kept false s₀ (cmdChRead t s) := by
  unfold Machine.cmdChRead
  extract_lets
  refine h.guarded fun _ hu => ?_
  split
  · exact hu.await
  · exact hu.readDone

/-! ### The operations of Conv -/

theorem Kept.updCv {f : Conv → Conv} (h : Kept m s₀ s) : Kept m s₀ (s.updCv f) := h.aside

theorem Kept.putBuck {v : Nat} (h : Kept false s₀ s) : Kept false s₀ (s.putBuck v) := h.other.storeSettings

theorem Kept.injDisturb {clamp : Bool} (h : Kept false s₀ s) : Kept false s₀ (s.injDisturb clamp) := .ite h.other h

theorem Kept.injEnd {aborted : Bool} (h : Kept false s₀ s) : Kept false s₀ (s.injEnd aborted) := .ite h.other h

theorem Kept.initLaw {m : CvMode} {target : ℚ} (h : Kept false s₀ s) : Kept false s₀ (s.initLaw m target) := by
  unfold State.initLaw
  exact h.updCv.injEnd

theorem Kept.auxReinit {r : Fin 4} (h : Kept false s₀ s) : Kept false s₀ (s.auxReinit r) := .ite h.updAux h

theorem Kept.cvTurn {m : CvMode} (h : Kept false s₀ s) : Kept false s₀ (s.cvTurn m) := by
  unfold State.cvTurn
  exact (h.initLaw.overL (fun _ _ hu => hu.auxReinit)).other

theorem Kept.cvToIdle (h : Kept false s₀ s) : Kept false s₀ s.cvToIdle := .ite h h.other

theorem Kept.cvHalt (h : Kept false s₀ s) : Kept false s₀ s.cvHalt := h.other.cvToIdle

theorem Kept.cvFault {cause ph : Nat} (h : Kept false s₀ s) : Kept false s₀ (s.cvFault cause ph) := by
  unfold State.cvFault
  extract_lets _ _ s1 s2 _ s3 s4
  have hs1 : Kept false s₀ s1 := h.iceRecord
  have hs2 : Kept false s₀ s2 := .ite hs1 hs1.other
  have hs3 : Kept false s₀ s3 := hs2.other.injEnd
  have hs4 : Kept false s₀ s4 := hs3.setFault
  exact .ite hs3 hs4.other.cvToIdle

theorem Kept.retire {p : Fin 16} (h : Kept m s₀ s) : Kept m s₀ (s.retire p) := h.aside

theorem Kept.retireNow {p : Fin 16} (h : Kept false s₀ s) : Kept false s₀ (s.retireNow p) := by
  unfold State.retireNow
  dsimp only
  split
  · exact .ite h.updPh.updCv.iceRecord.updPh.updCv.iceRecord h.updPh.updCv.iceRecord
  · exact h.updPh.updCv.iceRecord

theorem Kept.cvStartReq {own : Bool} (h : Kept false s₀ s) : Kept false s₀ (s.cvStartReq own) := .ite h h.other

theorem Kept.cvClampNote {kind : Nat} (h : Kept false s₀ s) : Kept false s₀ (s.cvClampNote kind) := by
  unfold State.cvClampNote
  exact .ite (.ite h.other h.other.iceRecord) ((Kept.ite h.other h.other.iceRecord).injDisturb)

theorem Kept.addPhases {n : Nat} {starts : Bool} (h : Kept false s₀ s) : Kept false s₀ (s.addPhases n starts) := by
  unfold State.addPhases
  refine h.overL fun _ _ hu => ?_
  split
  · exact hu
  · exact .ite hu.cvClampNote hu.updPh

theorem Kept.rotate (h : Kept false s₀ s) : Kept false s₀ s.rotate := h.other.injDisturb

theorem Kept.cvSetsEnd {p : Wait → Bool} {status : Nat} (h : Kept false s₀ s) : Kept false s₀ (s.cvSetsEnd p status) :=
  h.completeOuts (fun _ _ hu => hu.finish)

theorem Kept.cvBegin (h : Kept false s₀ s) : Kept false s₀ s.cvBegin := by
  unfold State.cvBegin
  exact h.other.addPhases.initLaw.rotate

theorem Kept.dropRequests (h : Kept false s₀ s) : Kept false s₀ s.dropRequests := h.other

theorem Kept.cvIdleNow (h : Kept false s₀ s) : Kept false s₀ s.cvIdleNow := by
  unfold State.cvIdleNow
  exact h.dropRequests.updCv.injEnd.cvSetsEnd.cvSetsEnd

theorem Kept.cvMode (h : Kept false s₀ s) : Kept false s₀ s.cvMode := by
  unfold State.cvMode
  dsimp only
  split
  · exact h
  · exact h.updCv.cvIdleNow
  · exact .ite h.updCv.cvBegin h.updCv.other
  · exact h.updCv.dropRequests.updCv.cvSetsEnd.cvSetsEnd

theorem Kept.cvConfigure (h : Kept false s₀ s) : Kept false s₀ s.cvConfigure := h.other

theorem Kept.cvCount (h : Kept false s₀ s) : Kept false s₀ s.cvCount := by
  unfold State.cvCount
  exact h.updCv

theorem Kept.shedDone (h : Kept false s₀ s) : Kept false s₀ s.shedDone := by
  unfold State.shedDone
  split
  · exact .ite h.updPh.updCv.rotate h
  · exact h

theorem Kept.addsDone (h : Kept false s₀ s) : Kept false s₀ s.addsDone := by
  unfold State.addsDone
  split
  · exact .ite h.updCv.addPhases.rotate h.updCv
  · exact h

theorem Kept.startEnable (h : Kept false s₀ s) : Kept false s₀ s.startEnable := by
  unfold State.startEnable
  exact .ite h.updCv.addPhases.rotate h

theorem Kept.enableCap (h : Kept false s₀ s) : Kept false s₀ s.enableCap := by
  unfold State.enableCap
  refine h.overL fun _ _ hu => ?_
  refine .ite ?_ hu
  split
  · exact hu.updPh.updCv.cvClampNote
  · exact hu

theorem Kept.cvFrozen (h : Kept false s₀ s) : Kept false s₀ s.cvFrozen := .ite h.cvMode.cvCount.updCv h.cvCount

theorem Kept.cvTick (h : Kept false s₀ s) : Kept false s₀ s.cvTick := by
  unfold State.cvTick
  extract_lets s0 s1 s2 s3 s4
  have hs0 : Kept false s₀ s0 := h.updCv
  have hs1 : Kept false s₀ s1 := hs0.cvMode
  have hs2 : Kept false s₀ s2 := hs1.updCv.overL (fun _ _ hu => hu.retireNow)
  have hs3 : Kept false s₀ s3 := hs2.cvCount
  have hs4 : Kept false s₀ s4 := .ite hs3 hs3.shedDone.addsDone.startEnable.enableCap
  exact .ite hs0.cvFrozen hs4.updCv

theorem Kept.switchFrame (h : Kept false s₀ s) : Kept false s₀ s.switchFrame := by
  unfold State.switchFrame
  exact h.updCv.other

theorem Kept.cvAuto (h : Kept false s₀ s) : Kept false s₀ s.cvAuto := .ite h.other h

theorem Kept.cvS1 {loss : Bool} (h : Kept false s₀ s) : Kept false s₀ (s.cvS1 loss) := by
  unfold State.cvS1
  extract_lets _ s1 s2 _ _ _ s3 s4 s5 s6 s7 s8 s9 s10
  have hs1 : Kept false s₀ s1 := h.other
  have hs2 : Kept false s₀ s2 := .ite hs1.injDisturb hs1
  have hs3 : Kept false s₀ s3 := hs2.when (fun _ hu => hu.cvFault)
  have hs4 : Kept false s₀ s4 := hs3.when (fun _ hu => hu.cvFault)
  have hs5 : Kept false s₀ s5 := hs4.when (fun _ hu => hu.cvFault)
  have hs6 : Kept false s₀ s6 := hs5.when (fun _ hu => hu.cvFault)
  have hs7 : Kept false s₀ s7 := hs6.overL (fun _ _ hu => hu.cvFault.retire.updPh)
  have hs8 : Kept false s₀ s8 := by
    unfold s8
    split
    · exact .ite hs7 hs7.cvFault
    · exact hs7
  have hs9 : Kept false s₀ s9 := hs8.when (fun _ hu => hu.cvFault)
  have hs10 : Kept false s₀ s10 := hs9.when (fun _ hu => hu.cvFault)
  exact hs10.cvAuto

theorem Kept.voltageLoop (h : Kept false s₀ s) : Kept false s₀ s.voltageLoop := by
  unfold State.voltageLoop
  exact h.other

theorem Kept.manage (h : Kept false s₀ s) : Kept false s₀ s.manage := by
  unfold State.manage
  exact .ite ((Kept.ite h.other.injDisturb h.other).cvToIdle) (.ite h.other.injDisturb h.other)

theorem Kept.cvS2 (h : Kept false s₀ s) : Kept false s₀ s.cvS2 := by
  unfold State.cvS2
  extract_lets s1 _ _ _ _ _ s2 _ _ s3
  have hs1 : Kept false s₀ s1 := h.voltageLoop.manage
  have hs2 : Kept false s₀ s2 := hs1.other
  have hs3 : Kept false s₀ s3 := by
    refine .ite ?_ hs2
    split
    · exact hs2.other
    · exact hs2
  exact .ite h (.ite hs3.postOnly hs3)

theorem Kept.endProfile {f : Profile} {toOn : Bool} (h : Kept false s₀ s) : Kept false s₀ (s.endProfile f toOn) := by
  unfold State.endProfile
  exact h.other

theorem Kept.profiles3 (h : Kept false s₀ s) : Kept false s₀ s.profiles3 := by
  unfold State.profiles3
  exact (h.overL (fun _ _ hu => hu.endProfile)).overL (fun _ _ hu => hu.other)

theorem Kept.feedForward (h : Kept false s₀ s) : Kept false s₀ s.feedForward := by
  unfold State.feedForward
  exact .ite h.profiles3 h.profiles3.other

theorem Kept.cvS3 (h : Kept false s₀ s) : Kept false s₀ s.cvS3 := by
  unfold State.cvS3
  have noted (hit : Option Bool) {u : State} (hu : Kept false s₀ u) :
      Kept false s₀ (match hit with | some w => u.cvClampNote (if w then 0 else 1) | none => u) := by
    cases hit with
    | none => exact hu
    | some w => exact hu.cvClampNote
  exact .ite h (.ite (noted _ h.feedForward.other).cvSetsEnd (noted _ h.feedForward.other))

theorem Kept.phLimitEvents (h : Kept m s₀ s) : Kept m s₀ s.phLimitEvents := h.overL (fun _ _ hu => .ite hu.postOnly hu)

theorem Kept.exerciseEnd (h : Kept m s₀ s) : Kept m s₀ s.exerciseEnd := by
  unfold State.exerciseEnd
  split
  · exact .ite (.ite h.updPh.updCv.retire h.updPh.updCv) h
  · exact h

theorem Kept.exerciseNext (h : Kept m s₀ s) : Kept m s₀ s.exerciseNext := by
  unfold State.exerciseNext
  split
  · exact .ite (.ite h.updCv.updPh.updCv h.updCv) h
  · exact h

theorem Kept.cvPeriod (h : Kept m s₀ s) : Kept m s₀ s.cvPeriod := by
  unfold State.cvPeriod
  exact ((h.phLimitEvents.updCv.updCv.overL (fun _ _ hu => hu.retire)).exerciseEnd).exerciseNext

theorem Kept.cvStore (h : Kept false s₀ s) : Kept false s₀ s.cvStore := .ite h.updCv h

theorem Kept.cvMeter (h : Kept false s₀ s) : Kept false s₀ s.cvMeter := by
  unfold State.cvMeter
  exact h.updCv

/-! ### The operations of Rails -/

theorem Kept.auxStart {r : Fin 4} {target : Nat} (h : Kept false s₀ s) : Kept false s₀ (s.auxStart r target) := h.updAux

theorem Kept.auxAim {r : Fin 4} {target : Nat} (h : Kept false s₀ s) : Kept false s₀ (s.auxAim r target) := h.updAux

theorem Kept.auxOff {r : Fin 4} (h : Kept false s₀ s) : Kept false s₀ (s.auxOff r) := h.updAux

theorem Kept.auxMeter (h : Kept false s₀ s) : Kept false s₀ s.auxMeter := h.other

theorem Kept.auxPeriod (h : Kept m s₀ s) : Kept m s₀ s.auxPeriod := h.aside

theorem Kept.auxFault {r : Fin 4} {cause : Nat} (h : Kept false s₀ s) : Kept false s₀ (s.auxFault r cause) := h.updAux.iceRecord

theorem Kept.auxTick (h : Kept false s₀ s) : Kept false s₀ s.auxTick := h.other

theorem Kept.auxS1 {r : Fin 4} (h : Kept false s₀ s) : Kept false s₀ (s.auxS1 r) := by
  unfold State.auxS1
  extract_lets s1
  have hs1 : Kept false s₀ s1 := h.updAux
  exact .ite hs1.auxOff.cvSetsEnd <| .ite hs1.auxFault (.ite hs1.auxFault (.ite hs1.auxFault (.ite hs1.updAux.cvSetsEnd hs1)))

theorem Kept.auxS2 (h : Kept false s₀ s) : Kept false s₀ s.auxS2 := by
  unfold State.auxS2
  exact .ite h.other.other h.other

theorem Kept.auxS3 {r : Fin 4} (h : Kept false s₀ s) : Kept false s₀ (s.auxS3 r) := by
  unfold State.auxS3
  refine .ite h ?_
  split
  · extract_lets s1
    have hs1 : Kept false s₀ s1 := h.updAux
    exact .ite hs1.cvSetsEnd hs1

theorem Kept.cmdCvSet {t : Taken} (h : Kept false s₀ s) : Kept false s₀ (cmdCvSet t s) := h.guarded (fun _ hu => hu.await)

theorem Kept.supersede {p : Wait → Bool} (h : Kept false s₀ s) : Kept false s₀ (s.supersede p) :=
  h.completeOuts (fun _ _ hu => hu.complete)

theorem Kept.cvSetConv {u : Taken} (h : Kept false s₀ s) : Kept false s₀ (s.cvSetConv u) := by
  unfold State.cvSetConv
  extract_lets s1 _ s2 s2' s3 s3'
  have hs1 : Kept false s₀ s1 := h.supersede.cmdStart
  have hs2 : Kept false s₀ s2 := hs1.cvHalt
  have hs2' : Kept false s₀ s2' := hs1.putBuck.updCv
  have hs3 : Kept false s₀ s3 := hs2'.updCv.cvStartReq
  have hs3' : Kept false s₀ s3' := hs2'.updCv
  refine .ite (.ite hs2.finish hs2.await) <| .ite hs2'.finish <| .ite (.ite hs3.await hs2'.finish) ?_
  split
  · exact hs3'.await
  · exact hs3'.await

theorem Kept.cvSetAux {u : Taken} (h : Kept false s₀ s) : Kept false s₀ (s.cvSetAux u) := by
  unfold State.cvSetAux
  extract_lets _ s1
  have hs1 : Kept false s₀ s1 := h.supersede.cmdStart
  exact .ite hs1.auxOff.updAux.finish <| .ite hs1.updAux.auxStart.await (.ite hs1.auxAim.await hs1.auxAim.await)

theorem Kept.cvSetBegin {t : Taken} (h : Kept false s₀ s) : Kept false s₀ (s.cvSetBegin t) := .ite h.cvSetConv h.cvSetAux

theorem Kept.cmdCvRead {t : Taken} (h : Kept false s₀ s) : Kept false s₀ (cmdCvRead t s) := by
  unfold Machine.cmdCvRead
  extract_lets
  refine h.guarded fun _ hu => ?_
  split
  · exact hu.await
  · exact hu.other.readDone

theorem Kept.cmdCeStat {t : Taken} (h : Kept false s₀ s) : Kept false s₀ (cmdCeStat t s) := by
  unfold Machine.cmdCeStat
  refine h.guarded fun _ hu => ?_
  split
  · exact hu.await
  · exact hu.complete

theorem Kept.cvCounted (h : Kept false s₀ s) : Kept false s₀ s.cvCounted := by
  unfold State.cvCounted
  exact .ite h (.ite h.updCv.postRec h.updCv.cvStartReq)

theorem Kept.auxCounted {r : Fin 4} (h : Kept false s₀ s) : Kept false s₀ (s.auxCounted r) := by
  unfold State.auxCounted
  exact .ite h (.ite h.updAux.cvSetsEnd h.updAux.auxStart)

theorem Kept.postOwner {code src : Nat} {o : Option (Fin 16)} {payload : List Byte} (h : Kept false s₀ s) :
    Kept false s₀ (s.postOwner code src o payload) := by
  unfold State.postOwner
  dsimp only
  split
  · exact h.other
  · exact h.overL (fun _ _ hu => hu.eventTo)

theorem Kept.injTick (h : Kept false s₀ s) : Kept false s₀ s.injTick := by
  unfold State.injTick
  split
  · exact h
  · exact h.other.postOwner

theorem Kept.injCheck (h : Kept false s₀ s) : Kept false s₀ s.injCheck := by
  unfold State.injCheck
  exact .ite h.injEnd h

theorem Kept.injS3 (h : Kept false s₀ s) : Kept false s₀ s.injS3 := by
  unfold State.injS3
  exact .ite h (.ite h.other (.ite h.injEnd (.ite h.other h.other)))

theorem Kept.cmdInjStart {t : Taken} (h : Kept false s₀ s) : Kept false s₀ (cmdInjStart t s) := by
  unfold Machine.cmdInjStart
  exact h.cfgThen (fun _ hu => hu.other.complete)

theorem Kept.cmdInjStop {t : Taken} (h : Kept false s₀ s) : Kept false s₀ (cmdInjStop t s) :=
  h.guarded (fun _ hu => (Kept.ite hu.injEnd hu).stage)

theorem Kept.cmdInjRead {t : Taken} (h : Kept false s₀ s) : Kept false s₀ (cmdInjRead t s) := by
  unfold Machine.cmdInjRead
  refine h.guarded fun _ hu => ?_
  extract_lets
  split
  · exact hu.await
  · exact hu.readDone

theorem Kept.feedCe {used : ℚ} (h : Kept false s₀ s) : Kept false s₀ (s.feedCe used) := by
  unfold State.feedCe
  exact h.fireRecord.feedStreams

/-! ### The operations of Admit -/

theorem Kept.startRamp {n : Fin 64} {tag : Word} (h : Kept false s₀ s) : Kept false s₀ (s.startRamp n tag) := h.enter.updCh

theorem Kept.admitRamp {e : AdmEntry} (h : Kept false s₀ s) : Kept false s₀ (s.admitRamp e) := by
  unfold State.admitRamp
  extract_lets _ s1 s2 _ s3 s4
  have hs1 : Kept false s₀ s1 := h.other
  have hs2 : Kept false s₀ s2 := hs1.overL (fun _ _ hu => hu.startRamp)
  have hs3 : Kept false s₀ s3 := hs2.other
  have hs4 : Kept false s₀ s4 := .ite hs3.updCh hs3
  exact hs4.updCv.completeOuts (fun _ _ hu => hu.complete)

theorem Kept.examine {w : AdmWalk} {e : AdmEntry} (h : Kept false s₀ w.st) : Kept false s₀ (w.examine e).st := by
  unfold AdmWalk.examine
  extract_lets s n cl ph mute want req u mark v phOk hold
  have marked : Kept false s₀ v := (Kept.ite h.updCv h).other
  simp only [apply_ite AdmWalk.st]
  exact .ite h (.ite marked (.ite marked marked.admitRamp))

theorem Kept.admission (h : Kept false s₀ s) : Kept false s₀ s.admission := by
  refine .ite h ?_
  have walked (l : List AdmEntry) (w : AdmWalk) (hw : Kept false s₀ w.st) : Kept false s₀ (l.foldl AdmWalk.examine w).st := by
    induction l generalizing w with
    | nil => exact hw
    | cons e l ih => exact ih _ hw.examine
  exact walked _ _ h

theorem Kept.profilesPosted (h : Kept false s₀ s) : Kept false s₀ s.profilesPosted := by
  unfold State.profilesPosted
  exact h.other

/-! ### The operations of Battery -/

theorem Kept.updBat {f : Bat → Bat} (h : Kept m s₀ s) : Kept m s₀ (s.updBat f) := h.aside

theorem Kept.batState (h : Kept m s₀ s) : Kept m s₀ s.batState := h.postRec

theorem Kept.batStore (h : Kept m s₀ s) : Kept m s₀ s.batStore := by
  unfold State.batStore
  exact .ite h (.ite h.updBat h.updBat)

theorem Kept.batWrite (h : Kept m s₀ s) : Kept m s₀ s.batWrite := .ite h h.batStore

theorem Kept.batStart (h : Kept false s₀ s) : Kept false s₀ s.batStart := by
  unfold State.batStart
  have told (torn : Option Bool) :
      Kept false s₀ (match torn with | some k => s.iceRecord 0x0422 rZone 1 (le 1 (bit k)) | none => s) := by
    cases torn with
    | none => exact h
    | some k => exact h.iceRecord
  exact .ite (told _).other (told _).other.iceRecord

theorem Kept.batLatch (h : Kept false s₀ s) : Kept false s₀ s.batLatch := by
  unfold State.batLatch
  exact .ite h.other h.other

theorem Kept.batSwapNow (h : Kept m s₀ s) : Kept m s₀ s.batSwapNow := h.updBat.batState.batWrite

theorem Kept.resValue {r : ℚ} (h : Kept false s₀ s) : Kept false s₀ (s.resValue r) := by
  unfold State.resValue
  exact .ite h.updBat (.ite h.updBat.batSwapNow h.updBat.updBat)

theorem Kept.batStep (h : Kept false s₀ s) : Kept false s₀ s.batStep := by
  unfold State.batStep
  extract_lets
  split
  · exact h
  · extract_lets s1
    have hs1 : Kept false s₀ s1 := h.updBat
    split
    · exact h
    · extract_lets
      exact .ite hs1.resValue hs1

theorem Kept.batOpen (h : Kept false s₀ s) : Kept false s₀ s.batOpen := .ite h.updBat.batSwapNow h

theorem Kept.batFrame (h : Kept false s₀ s) : Kept false s₀ s.batFrame := h.batLatch.batStep.batOpen

theorem Kept.batAnchor {kind : Nat} {soc u : ℚ} (h : Kept m s₀ s) : Kept m s₀ (s.batAnchor kind soc u) := by
  unfold State.batAnchor
  exact .ite h.updBat.iceRecord.batWrite h.updBat.iceRecord

theorem Kept.batCount (h : Kept m s₀ s) : Kept m s₀ s.batCount := by
  unfold State.batCount
  exact h.updBat

theorem Kept.batCorrect (h : Kept m s₀ s) : Kept m s₀ s.batCorrect := by
  unfold State.batCorrect
  exact .ite h.updBat h

theorem Kept.batPublish (h : Kept m s₀ s) : Kept m s₀ s.batPublish := h.updBat

theorem Kept.batAnchors (h : Kept m s₀ s) : Kept m s₀ s.batAnchors := by
  unfold State.batAnchors
  exact .ite (((Kept.ite h.batAnchor.updBat h).batAnchor).updBat) (.ite h.batAnchor.updBat h)

theorem Kept.batFlag (h : Kept m s₀ s) : Kept m s₀ s.batFlag := by
  unfold State.batFlag
  exact .ite h.updBat.batState (.ite h.updBat.batState h)

theorem Kept.batCap {dq : ℚ} (h : Kept m s₀ s) : Kept m s₀ (s.batCap dq) := by
  unfold State.batCap
  exact .ite h.updBat (.ite (.ite h.updBat h.updBat) (.ite h.updBat h.updBat))

theorem Kept.batEnergy (h : Kept m s₀ s) : Kept m s₀ s.batEnergy := by
  unfold State.batEnergy
  exact h.updBat.aside

theorem Kept.batConf (h : Kept m s₀ s) : Kept m s₀ s.batConf := by
  unfold State.batConf
  exact .ite h (.ite h.updBat.batWrite h.updBat)

theorem Kept.batDeclared (h : Kept m s₀ s) : Kept m s₀ s.batDeclared := by
  unfold State.batDeclared
  exact .ite (((Kept.ite h.updBat h).updBat).batSwapNow) (.ite h.updBat h)

theorem Kept.batWork (h : Kept m s₀ s) : Kept m s₀ s.batWork := by
  unfold State.batWork
  extract_lets s0 _ _ _ _ s1 s2 s3 s4
  have hs0 : Kept m s₀ s0 := h.batDeclared
  have hs1 : Kept m s₀ s1 := hs0.aside
  have hs2 : Kept m s₀ s2 := hs1.batCount
  have hs3 : Kept m s₀ s3 := .ite hs2.batCap hs2.batAnchors.batFlag.batCorrect.batFlag.batPublish
  have hs4 : Kept m s₀ s4 := hs3.batEnergy.batConf
  exact .ite hs1 (.ite hs4.updBat.batWrite hs4.updBat)

theorem Kept.batPeriod (h : Kept m s₀ s) : Kept m s₀ s.batPeriod := by
  unfold State.batPeriod
  exact h.batWork.updBat

theorem Kept.cmdBatRead {t : Taken} (h : Kept false s₀ s) : Kept false s₀ (cmdBatRead t s) := by
  unfold Machine.cmdBatRead
  refine h.guarded fun _ hu => ?_
  split
  · exact hu.await
  · exact hu.other.readDone

/-! ### The operations of Zone -/

theorem Kept.updZone {f : Zone → Zone} (h : Kept m s₀ s) : Kept m s₀ (s.updZone f) := h.aside

theorem Kept.restoreHeld (h : Kept false s₀ s) : Kept false s₀ s.restoreHeld := by
  unfold State.restoreHeld
  exact h.updZone

theorem Kept.huEnter {dst : HuState} {cause : Nat} (h : Kept false s₀ s) : Kept false s₀ (s.huEnter dst cause) := by
  unfold State.huEnter
  extract_lets _ s1 s2 s3
  have hs1 : Kept false s₀ s1 := h.updZone
  have hs2 : Kept false s₀ s2 := hs1.postRec
  have hs3 : Kept false s₀ s3 := .ite hs2.fireWhere hs2
  exact .ite ((hs3.completeOuts (fun _ _ hu => hu.finish)).restoreHeld) hs3

theorem Kept.huPlan {dst : HuState} {cause : Nat} {iso : Option Bool} (h : Kept false s₀ s) :
    Kept false s₀ (s.huPlan dst cause iso) := by
  unfold State.huPlan
  exact h.updZone

theorem Kept.huIdle (h : Kept false s₀ s) : Kept false s₀ s.huIdle := .ite h h.cvHalt

theorem Kept.huReturned (h : Kept false s₀ s) : Kept false s₀ s.huReturned := h.huPlan

theorem Kept.zoneTick (h : Kept false s₀ s) : Kept false s₀ s.zoneTick := by
  unfold State.zoneTick
  extract_lets _ _ _ s1
  have hs1 : Kept false s₀ s1 := h.updZone
  split
  · exact hs1
  · extract_lets s2
    have hs2 : Kept false s₀ s2 := hs1.huEnter
    refine .ite ?_ hs2
    split
    · extract_lets s3
      have hs3 : Kept false s₀ s3 := hs2.updZone
      exact hs3.startOuts
    · exact hs2

theorem Kept.zoneStart (h : Kept false s₀ s) : Kept false s₀ s.zoneStart := by
  unfold State.zoneStart
  exact .ite (.ite h.updZone.cvStartReq h.updZone.updZone.huEnter) h

theorem Kept.lossNormal {cause : Nat} (h : Kept false s₀ s) : Kept false s₀ (s.lossNormal cause) :=
  .ite h.huPlan.cvTurn h.huPlan.huIdle

theorem Kept.lossReturn {cause : Nat} (h : Kept false s₀ s) : Kept false s₀ (s.lossReturn cause) :=
  .ite h.huPlan.updCv (.ite h.huPlan.cvTurn h.huPlan.huIdle)

theorem Kept.testRefused (h : Kept false s₀ s) : Kept false s₀ s.testRefused :=
  .ite (h.updZone.completeOuts (fun _ _ hu => hu.finish)) h

theorem Kept.returnStep (h : Kept false s₀ s) : Kept false s₀ s.returnStep := by
  unfold State.returnStep
  refine .ite h ?_
  refine .ite (.ite h.updZone.updCv.updZone h.updZone.updCv) ?_
  exact .ite (.ite h.updZone.updCv.updZone.cvTurn h.updZone.updCv) (.ite h.updZone.huReturned h.updZone)

theorem Kept.zoneS1 (h : Kept false s₀ s) : Kept false s₀ s.zoneS1 := by
  unfold State.zoneS1
  extract_lets _ s1
  have hs1 : Kept false s₀ s1 := h.updZone
  exact .ite hs1 (.ite (.ite hs1.huPlan.huIdle (.ite hs1.huPlan.huIdle hs1)) hs1.returnStep)

theorem Kept.stageStep (h : Kept m s₀ s) : Kept m s₀ s.stageStep := .ite h.updZone (.ite h.updZone.updZone.postOnly h.updZone)

theorem Kept.capStep (h : Kept m s₀ s) : Kept m s₀ s.capStep := by
  unfold State.capStep
  extract_lets _ _ _ _ _ s1 _ _ s1'
  have hs1 : Kept m s₀ s1 := h.updZone
  have hs1' : Kept m s₀ s1' := h.updZone
  refine .ite h.updZone <| .ite ?_ (.ite hs1'.updZone hs1')
  split
  · exact hs1.updZone
  · exact hs1.updZone

theorem Kept.capNoted (h : Kept false s₀ s) : Kept false s₀ s.capNoted := .ite h.updZone.postOnly h.updZone

theorem Kept.zone125 (h : Kept false s₀ s) : Kept false s₀ s.zone125 := .ite h (h.updZone.capNoted.overL (fun _ _ hu => hu.admAdd))

theorem Kept.zonePower (h : Kept m s₀ s) : Kept m s₀ s.zonePower := by
  unfold State.zonePower
  exact h.updZone

theorem Kept.hardCap (h : Kept m s₀ s) : Kept m s₀ s.hardCap := by
  unfold State.hardCap
  extract_lets _ _ s1
  have hs1 : Kept m s₀ s1 := h.updZone
  refine .ite ?_ hs1
  split
  · extract_lets s2
    have hs2 : Kept m s₀ s2 := hs1.updZone.resolve
    exact hs2.iceRecord
  · exact hs1

theorem Kept.cornPeriod (h : Kept m s₀ s) : Kept m s₀ s.cornPeriod := by
  unfold State.cornPeriod
  exact .ite h.updZone.sendMsg h.updZone

theorem Kept.zonePeriod (h : Kept m s₀ s) : Kept m s₀ s.zonePeriod := by
  unfold State.zonePeriod
  exact .ite h.zonePower.hardCap.cornPeriod.stageStep.capStep h.zonePower.cornPeriod

theorem Kept.enterReturn (h : Kept false s₀ s) : Kept false s₀ s.enterReturn := by
  unfold State.enterReturn
  exact h.huEnter.updZone

theorem Kept.cmdShedOrder {t : Taken} (h : Kept false s₀ s) : Kept false s₀ (cmdShedOrder t s) := by
  unfold Machine.cmdShedOrder
  exact h.guarded (fun _ hu => hu.stage)

theorem Kept.cmdZoneRead {t : Taken} (h : Kept false s₀ s) : Kept false s₀ (cmdZoneRead t s) := by
  unfold Machine.cmdZoneRead
  refine h.guarded fun _ hu => ?_
  split
  · exact hu.await
  · exact hu.other.readDone

theorem Kept.cmdHuTest {t : Taken} (h : Kept false s₀ s) : Kept false s₀ (cmdHuTest t s) := h.guarded (fun _ hu => hu.await)

theorem Kept.huTestBegin {t : Taken} (h : Kept false s₀ s) : Kept false s₀ (s.huTestBegin t) := h.updZone.await

/-! ### The operations of Icecore -/

theorem Kept.updIce {f : Ice → Ice} (h : Kept m s₀ s) : Kept m s₀ (s.updIce f) := h.aside

theorem Kept.iceFlushed (h : Kept false s₀ s) : Kept false s₀ s.iceFlushed := by
  unfold State.iceFlushed
  exact h.updIce.iceGap.overL (fun _ _ hu => hu.cmdDone)

theorem Kept.iceTick (h : Kept false s₀ s) : Kept false s₀ s.iceTick := .ite h.fireRecord.updIce h

theorem Kept.iceStart (h : Kept false s₀ s) : Kept false s₀ s.iceStart := by
  unfold State.iceStart
  extract_lets _ _ _ _ _ s1 _ s2 s3
  have hs1 : Kept false s₀ s1 := h.updIce
  have hs2 : Kept false s₀ s2 := hs1.iceRecord
  have hs3 : Kept false s₀ s3 := hs2.overL (fun _ _ hu => hu.iceRecord)
  exact .ite hs3 hs3.iceRecord

theorem Kept.cmdIceRead {t : Taken} (h : Kept false s₀ s) : Kept false s₀ (cmdIceRead t s) := by
  unfold Machine.cmdIceRead
  exact h.guarded (fun _ hu => hu.complete)

theorem Kept.cmdIceFlush {t : Taken} (h : Kept false s₀ s) : Kept false s₀ (cmdIceFlush t s) :=
  h.guarded (fun _ hu => hu.complete.updIce)

theorem Kept.iceClearStart {t : Taken} (h : Kept false s₀ s) : Kept false s₀ (s.iceClearStart t) := by
  unfold State.iceClearStart
  exact h.updIce.iceOpen.updIce

theorem Kept.cmdIceClear {t : Taken} (h : Kept false s₀ s) : Kept false s₀ (cmdIceClear t s) := by
  unfold Machine.cmdIceClear
  extract_lets
  refine h.guarded fun _ hu => ?_
  extract_lets s1
  have hs1 : Kept false s₀ s1 := hu.complete
  exact .ite hs1.cmdDone (.ite hs1.cmdDone hs1.iceClearStart)

/-! ### The operations of Thermal -/

theorem Kept.updTh {f : Thermal → Thermal} (h : Kept m s₀ s) : Kept m s₀ (s.updTh f) := h.aside

theorem Kept.allOff (h : Kept false s₀ s) : Kept false s₀ s.allOff := by
  unfold State.allOff
  exact h.mapCh.other

theorem Kept.sensorNote {num : Nat} {old new : Option Nat} {v : Int} (h : Kept m s₀ s) : Kept m s₀ (s.sensorNote num old new v) :=
  .ite h h.iceRecord

theorem Kept.thSense (h : Kept m s₀ s) : Kept m s₀ s.thSense := by
  unfold State.thSense
  exact h.updTh.aside.overL (fun _ _ hu => hu.sensorNote)

theorem Kept.thLevel (h : Kept m s₀ s) : Kept m s₀ s.thLevel := by
  unfold State.thLevel
  exact .ite h.updTh h.updTh.iceRecord.postOnly

theorem Kept.thRestore (h : Kept m s₀ s) : Kept m s₀ s.thRestore := by
  unfold State.thRestore
  refine .ite h ?_
  split
  · exact h.updTh.admAdd
  · exact h

theorem Kept.thNtc (h : Kept m s₀ s) : Kept m s₀ s.thNtc := by
  unfold State.thNtc
  exact (h.updTh.overL (fun _ _ hu => hu.sensorNote)).overL (fun _ _ hu => .ite hu hu.iceRecord)

theorem Kept.th125 (h : Kept false s₀ s) : Kept false s₀ s.th125 := .ite h h.updTh

/-! ### The operations of Pd -/

theorem Kept.pdSend {p : Fin 2} {m : PdOut} (h : Kept false s₀ s) : Kept false s₀ (s.pdSend p m) := h.updPd

theorem Kept.pdEnter {p : Fin 2} {st : PdState} {cause : Nat} (h : Kept false s₀ s) : Kept false s₀ (s.pdEnter p st cause) :=
  h.updPd.postRec

theorem Kept.pdAdvertise {p : Fin 2} (h : Kept false s₀ s) : Kept false s₀ (s.pdAdvertise p) := h.updPd.pdSend

theorem Kept.pdDrop {p : Fin 2} (h : Kept false s₀ s) : Kept false s₀ (s.pdDrop p) := h.updPd.auxOff

theorem Kept.pdHardReset {p : Fin 2} {sent : Bool} (h : Kept false s₀ s) : Kept false s₀ (s.pdHardReset p sent) := by
  unfold State.pdHardReset
  exact (((((Kept.ite h.pdSend h).updPd).updAux).auxAim).pdEnter).pdAdvertise

theorem Kept.pdDetached {p : Fin 2} {vSafeUs : Nat} (h : Kept false s₀ s) : Kept false s₀ (s.pdDetached p vSafeUs) := by
  unfold State.pdDetached
  exact h.pdDrop.postRec

theorem Kept.pdWait {p : Fin 2} {dp : ℚ} (h : Kept false s₀ s) : Kept false s₀ (s.pdWait p dp) := by
  unfold State.pdWait
  exact .ite h.updPd.pdSend.postRec.updPd.pdAdvertise h.updPd.pdSend.postRec

theorem Kept.pdAccept {p : Fin 2} {r : PdRequest} {o : Pdo} {volt : Nat} (h : Kept false s₀ s) :
    Kept false s₀ (s.pdAccept p r o volt) := by
  unfold State.pdAccept
  exact .ite h.updPd.pdSend.pdEnter h.updPd.pdSend

theorem Kept.pdReady {p : Fin 2} (h : Kept false s₀ s) : Kept false s₀ (s.pdReady p) := by
  unfold State.pdReady
  exact h.updPd.pdSend.pdEnter.postRec

theorem Kept.pdMoist {p : Fin 2} {wet : List (Fin 4)} {low : Nat} (h : Kept false s₀ s) : Kept false s₀ (s.pdMoist p wet low) := by
  unfold State.pdMoist
  exact h.postRec

theorem Kept.pdToMoist {p : Fin 2} {wet : List (Fin 4)} {low : Nat} (h : Kept false s₀ s) :
    Kept false s₀ (s.pdToMoist p wet low) := by
  unfold State.pdToMoist
  exact (((Kept.ite h.pdDrop h).updPd).pdEnter).pdMoist

theorem Kept.pdTest {p : Fin 2} {imp : Vector Nat 4} (h : Kept false s₀ s) : Kept false s₀ (s.pdTest p imp) := by
  unfold State.pdTest
  extract_lets _ _ _ _ _ _ s1 s2
  have hs1 : Kept false s₀ s1 := h.updPd
  have hs2 : Kept false s₀ s2 := .ite hs1.pdMoist hs1
  refine .ite (.ite hs2.pdToMoist hs2) <| .ite (.ite hs2.updPd (.ite hs2.updPd.pdEnter hs2.updPd)) <| .ite hs2.updPd ?_
  split
  · exact hs2.updPd
  · exact .ite hs2.pdToMoist hs2

theorem Kept.pdFault {p : Fin 2} (h : Kept false s₀ s) : Kept false s₀ (s.pdFault p) := by
  unfold State.pdFault
  exact (Kept.ite h.pdDrop.updAux h.pdDrop).pdEnter

theorem Kept.pdRestart {p : Fin 2} (h : Kept false s₀ s) : Kept false s₀ (s.pdRestart p) := by
  unfold State.pdRestart
  exact .ite h.auxOff.pdEnter h

theorem Kept.pdEnable {p : Fin 2} (h : Kept false s₀ s) : Kept false s₀ (s.pdEnable p) := by
  unfold State.pdEnable
  extract_lets _ _ _ s1
  have hs1 : Kept false s₀ s1 := .ite h.other.pdDetached h.pdDrop
  exact .ite h.auxOff.cvSetsEnd.updAux.updPd.pdEnter (.ite hs1.updAux.pdEnter h)

theorem Kept.pdTickOne {p : Fin 2} (h : Kept false s₀ s) : Kept false s₀ (s.pdTickOne p) := by
  unfold State.pdTickOne
  extract_lets s1 _ _ s2 s3
  have hs1 : Kept false s₀ s1 := h.pdEnable
  have hs2 : Kept false s₀ s2 := hs1.updPd
  have hs3 : Kept false s₀ s3 := .ite (((Kept.ite hs2.pdDrop hs2).updPd).pdEnter) (.ite hs2.pdEnter hs2)
  exact .ite hs3.pdAdvertise hs3

theorem Kept.pdTick (h : Kept false s₀ s) : Kept false s₀ s.pdTick := h.overL (fun _ _ hu => hu.pdTickOne)

theorem Kept.pdS1One {p : Fin 2} (h : Kept false s₀ s) : Kept false s₀ (s.pdS1One p) := by
  unfold State.pdS1One
  exact .ite h.updPd (.ite h.updPd.pdFault (.ite h.updPd.pdReady h.updPd))

theorem Kept.pdS1 (h : Kept false s₀ s) : Kept false s₀ s.pdS1 := h.overL (fun _ _ hu => hu.pdS1One)

theorem Kept.pdPeriodOne {p : Fin 2} (h : Kept m s₀ s) : Kept m s₀ (s.pdPeriodOne p) := by
  unfold State.pdPeriodOne
  exact h.updPd

theorem Kept.pdPeriod (h : Kept m s₀ s) : Kept m s₀ s.pdPeriod := h.overL (fun _ _ hu => hu.pdPeriodOne)

theorem Kept.pdSleep (h : Kept false s₀ s) : Kept false s₀ s.pdSleep := h.overL (fun _ _ hu => .ite hu.pdDrop.pdEnter hu)

theorem Kept.pdStart (h : Kept false s₀ s) : Kept false s₀ s.pdStart := h.other

theorem Kept.pdAction {p : Fin 2} {a : Nat} (h : Kept false s₀ s) : Kept false s₀ (s.pdAction p a) := by
  unfold State.pdAction
  extract_lets _ s1
  have hs1 : Kept false s₀ s1 := h.updPd
  exact .ite (.ite hs1.pdAdvertise hs1) <| .ite (.ite h.pdHardReset h) <|
    .ite (.ite h.updPd h) (.ite (.ite h.auxOff.updAux.updPd.pdEnter h) (.ite h.updPd.pdMoist h))

theorem Kept.cmdPdCtl {t : Taken} (h : Kept false s₀ s) : Kept false s₀ (cmdPdCtl t s) := by
  unfold Machine.cmdPdCtl
  exact h.guarded (fun _ hu => hu.stage)

theorem Kept.cmdPdRead {t : Taken} (h : Kept false s₀ s) : Kept false s₀ (cmdPdRead t s) := by
  unfold Machine.cmdPdRead
  refine h.guarded fun _ hu => ?_
  split
  · exact hu.await
  · exact hu.other.readDone

/-! ### The operations of Hinge -/

theorem Kept.updHinge {f : Hinge → Hinge} (h : Kept m s₀ s) : Kept m s₀ (s.updHinge f) := h.aside

theorem Kept.sendStatus (h : Kept m s₀ s) : Kept m s₀ s.sendStatus := .ite h.sendMsg h

theorem Kept.hingeEnter {dst : HingeState} {cause : Nat} (h : Kept m s₀ s) : Kept m s₀ (s.hingeEnter dst cause) := by
  unfold State.hingeEnter
  exact h.updHinge.postRec.sendStatus

theorem Kept.postSwap {result : Nat} (h : Kept false s₀ s) : Kept false s₀ (s.postSwap result) := by
  unfold State.postSwap
  exact h.other.postRec

theorem Kept.hingeStart (h : Kept false s₀ s) : Kept false s₀ s.hingeStart := by
  unfold State.hingeStart
  exact .ite h.other.hingeEnter h.other

theorem Kept.takeChan {n : Fin 64} {st : ChState} {cause : Cause} {queued : Bool} {age : Nat} {energy : ℚ} (h : Kept false s₀ s) :
    Kept false s₀ (s.takeChan n st cause queued age energy) := by
  unfold State.takeChan
  exact .ite h.updCh.admAdd h.updCh.other

theorem Kept.takeNodes {tc ti : Vector Int 64} (h : Kept false s₀ s) : Kept false s₀ (s.takeNodes tc ti) := by
  unfold State.takeNodes
  exact h.updHinge.mapCh

theorem Kept.firstNodes (h : Kept false s₀ s) : Kept false s₀ s.firstNodes := by
  unfold State.firstNodes
  split
  · exact h.mapCh.updHinge
  · exact h

theorem Kept.mirrorRec {r : LinkRec} (h : Kept false s₀ s) : Kept false s₀ (s.mirrorRec r) := by
  unfold State.mirrorRec
  split
  · exact h.takeChan.other.storeSettings
  · exact h.updCh
  · exact h.updHinge
  · exact h.updZone
  · exact .ite h h.other.storeSettings
  · exact h.takeNodes
  · exact h.other.storeSettings.updZone
  · exact h.other
  · exact h.updCh
  · exact h.updHinge
  · exact h.updHinge
  · exact h
  · exact h
  · exact h
  · exact h

theorem Kept.sharedTrip {r : LinkRec} (h : Kept false s₀ s) : Kept false s₀ (s.sharedTrip r) := by
  unfold State.sharedTrip
  split
  · exact .ite h.raise1 h
  · exact h

theorem Kept.hingeRelease {cause : Nat} (h : Kept false s₀ s) : Kept false s₀ (s.hingeRelease cause) := by
  unfold State.hingeRelease
  extract_lets _ s1 s2 s3 s4
  have hs1 : Kept false s₀ s1 := h.updHinge
  have hs2 : Kept false s₀ s2 := hs1.mapCh
  have hs3 : Kept false s₀ s3 := hs2.overL (fun _ _ hu => hu.auxOff.completeOuts (fun _ _ hu2 => hu2.finish))
  have hs4 : Kept false s₀ s4 := hs3.hingeEnter
  exact hs4.completeOuts (fun _ _ hu => hu.finish)

theorem Kept.cvTake {m : CvMode} (h : Kept false s₀ s) : Kept false s₀ (s.cvTake m) :=
  .ite h h.updCv.addPhases.initLaw.rotate.updHinge

theorem Kept.takeOver (h : Kept false s₀ s) : Kept false s₀ s.takeOver := by
  unfold State.takeOver
  extract_lets s1 s2 s3
  have hs1 : Kept false s₀ s1 := h.updHinge
  have hs2 : Kept false s₀ s2 := hs1.mapCh
  have hs3 : Kept false s₀ s3 := hs2.updZone
  refine .ite hs2 ?_
  split
  · exact hs3.putBuck.cvTake
  · exact hs3

theorem Kept.hingeTake {cause : Nat} {swap : Bool} (h : Kept false s₀ s) : Kept false s₀ (s.hingeTake cause swap) :=
  h.updHinge.hingeEnter

theorem Kept.enterHanding {cause : Nat} (h : Kept false s₀ s) : Kept false s₀ (s.enterHanding cause) := by
  unfold State.enterHanding
  exact ((h.updHinge.completeOuts (fun _ _ hu => hu.complete)).updHinge).hingeEnter

theorem Kept.hingeS5 (h : Kept false s₀ s) : Kept false s₀ s.hingeS5 := by
  unfold State.hingeS5
  extract_lets _ _ _ _ s1 s2
  have hs1 : Kept false s₀ s1 := h.updHinge
  have hs2 : Kept false s₀ s2 := hs1.startOuts
  exact .ite h <| .ite hs1 <| .ite hs1.enterHanding (.ite (.ite hs1.enterHanding (.ite hs2.enterHanding hs1)) hs1)

theorem Kept.sendLink (h : Kept false s₀ s) : Kept false s₀ s.sendLink := by
  unfold State.sendLink
  exact h.updHinge

theorem Kept.hingeMove {pulse beat : Bool} (h : Kept false s₀ s) : Kept false s₀ (s.hingeMove pulse beat) := by
  unfold State.hingeMove
  extract_lets _ s1 _ s1'
  have hs1 : Kept false s₀ s1 := h.takeOver.updHinge
  have hs1' : Kept false s₀ s1' := h.updHinge
  split
  · exact .ite h.hingeRelease (.ite h.hingeRelease h)
  · exact h
  · exact .ite (.ite h.hingeEnter (.ite h.takeOver.updHinge (.ite h.hingeEnter hs1.hingeEnter))) <|
      .ite h.hingeRelease (.ite hs1'.hingeEnter.postSwap h)
  · exact .ite h.hingeEnter (.ite h.hingeTake h)
  · exact h
  · exact h

theorem Kept.hingeTick (h : Kept false s₀ s) : Kept false s₀ s.hingeTick := .ite h h.updHinge.hingeMove.sendLink

theorem Kept.takeOffer {seq crc : Word} (h : Kept false s₀ s) : Kept false s₀ (s.takeOffer seq crc) := by
  unfold State.takeOffer
  exact .ite (.ite h.updHinge.hingeTake h.updHinge) h

theorem Kept.controlRec {f : LinkFrame} {r : LinkRec} (h : Kept false s₀ s) : Kept false s₀ (s.controlRec f r) := by
  cases r with
  | offer seq _ crc => exact h.takeOffer
  | ack => exact .ite h.updHinge h
  | nak => exact .ite h.updHinge.postSwap h
  | resyncEnd => exact .ite h h.firstNodes.updHinge
  | _ => exact h

theorem Kept.linkBeat {f : LinkFrame} (h : Kept false s₀ s) : Kept false s₀ (s.linkBeat f) := by
  unfold State.linkBeat
  extract_lets _ _ s1 s2
  have hs1 : Kept false s₀ s1 := h.updHinge
  have hs2 : Kept false s₀ s2 := .ite hs1 hs1.postRec
  exact .ite hs2.updHinge.postRec hs2

theorem Kept.linkSeq {f : LinkFrame} (h : Kept false s₀ s) : Kept false s₀ (s.linkSeq f) := .ite h h.updHinge

theorem Kept.linkFrame {f : LinkFrame} (h : Kept false s₀ s) : Kept false s₀ (s.linkFrame f) := by
  unfold State.linkFrame
  extract_lets s1 s2 s3
  have hs1 : Kept false s₀ s1 := h.linkBeat.linkSeq
  have hs2 : Kept false s₀ s2 := .ite (hs1.overL (fun _ _ hu => hu.sharedTrip)) (hs1.overL (fun _ _ hu => hu.mirrorRec))
  have hs3 : Kept false s₀ s3 := hs2.overL (fun _ _ hu => hu.controlRec)
  exact .ite h (.ite h.updHinge (.ite hs3.hingeEnter hs3))

theorem Kept.hingeTest (h : Kept m s₀ s) : Kept m s₀ s.hingeTest := by
  unfold State.hingeTest
  extract_lets _ s1 s2
  have hs1 : Kept m s₀ s1 := h.updHinge
  have hs2 : Kept m s₀ s2 := .ite hs1 hs1.postRec
  exact .ite h <| .ite (.ite (.ite hs2.hingeEnter (.ite hs2.updHinge hs2)) (.ite hs2.hingeEnter hs2)) <| h.updHinge

theorem Kept.hingePeriod (h : Kept m s₀ s) : Kept m s₀ s.hingePeriod := .ite h ((Kept.ite h.updHinge h).sendStatus)

theorem Kept.hingeMsg {kind src : Nat} {p : List Byte} (h : Kept false s₀ s) : Kept false s₀ (s.hingeMsg kind src p) := by
  unfold State.hingeMsg
  extract_lets _ _ s1
  have hs1 : Kept false s₀ s1 := h.updHinge
  exact .ite h.other (.ite hs1.updHinge (.ite hs1.updHinge (.ite hs1.hingeTake hs1)))

theorem Kept.cmdHingeCmd {t : Taken} (h : Kept false s₀ s) : Kept false s₀ (cmdHingeCmd t s) := by
  unfold Machine.cmdHingeCmd
  exact h.guarded (fun _ hu => .ite hu.await hu.stage)

theorem Kept.hingeAction {a : Nat} (h : Kept false s₀ s) : Kept false s₀ (s.hingeAction a) := .ite h.updHinge h.updHinge

theorem Kept.cmdHingeRead {t : Taken} (h : Kept false s₀ s) : Kept false s₀ (cmdHingeRead t s) := by
  unfold Machine.cmdHingeRead
  refine h.guarded fun _ hu => ?_
  split
  · exact hu.await
  · exact hu.other.readDone

/-! ### The operations of Reset -/

theorem Kept.updPump {f : Pumps → Pumps} (h : Kept m s₀ s) : Kept m s₀ (s.updPump f) := h.aside

/-! ### The operations of Tumbler -/

theorem Kept.tmbLock (h : Kept false s₀ s) : Kept false s₀ s.tmbLock := by
  unfold State.tmbLock
  exact h.mapCh.other.other

theorem Kept.tmbCeilings {n : Fin 64} {tc ti : Bool} (h : Kept false s₀ s) : Kept false s₀ (s.tmbCeilings n tc ti) :=
  .ite h ((h.when (fun _ hu => hu.tmbClamp)).when (fun _ hu => hu.tmbClamp))

theorem Kept.tmbLockRecs (h : Kept false s₀ s) : Kept false s₀ s.tmbLockRecs := h.iceRecord.overL (fun _ _ hu => hu.tmbCeilings)

theorem Kept.tmbPut {f : TmbField} {n : Fin 64} {hi : Bool} {v : Nat} (h : Kept false s₀ s) :
    Kept false s₀ (s.tmbPut f n hi v) := by
  unfold State.tmbPut
  dsimp only
  split
  · exact h
  · exact h.updCh
  · exact h.updCh
  · exact h.updCh
  · exact h.updCh
  · exact h.updCh
  · exact h.updCh
  · exact h.updCh
  · exact h.other
  · exact h.other
  · exact h.other
  · exact h.other
  · exact h.other

theorem Kept.krgTick (h : Kept false s₀ s) : Kept false s₀ s.krgTick := .ite (h.updKrg (by rfl)) h

theorem Kept.keepKrgFault {payload : List Byte} (h : Kept false s₀ s) : Kept false s₀ (s.keepKrgFault payload) := by
  unfold State.keepKrgFault
  exact h.other

/-! ### The operations of Boot -/

theorem Kept.updEvent {code : Nat} {payload : List Byte} (h : Kept false s₀ s) : Kept false s₀ (s.updEvent code payload) :=
  .ite h.postRec (h.updUpd (by rfl))

@[simp] theorem Upd.setSlot_recovery (u : Upd) (b : Bool) (x : Slot) : (u.setSlot b x).recovery = u.recovery := by
  unfold Upd.setSlot
  split <;> rfl

@[simp] theorem Upd.putRec_recovery (u : Upd) : u.putRec.recovery = u.recovery := by
  unfold Upd.putRec
  dsimp only
  split <;> rfl

@[simp] theorem Upd.dropTrial_recovery (u : Upd) : u.dropTrial.recovery = u.recovery := by
  unfold Upd.dropTrial
  split <;> simp

@[simp] theorem Upd.startCopy_recovery (u : Upd) : u.startCopy.recovery = u.recovery := by
  unfold Upd.startCopy
  dsimp only
  split <;> simp

theorem Kept.slotTo {b : Bool} {st : SlotState} {reason : Nat} (h : Kept false s₀ s) : Kept false s₀ (s.slotTo b st reason) := by
  unfold State.slotTo
  exact (h.updUpd (by split <;> simp)).updEvent

theorem Kept.provision {img : List Byte} (h : Kept false s₀ s) : Kept false s₀ (s.provision img) := by
  unfold State.provision
  refine h.overL fun _ _ hu => ?_
  split
  · extract_lets s1
    have hs1 : Kept false s₀ s1 := hu.other
    exact .ite hs1.updEvent hs1

theorem Kept.slotsAtBoot (h : Kept false s₀ s) : Kept false s₀ s.slotsAtBoot := by
  refine h.overL fun b u hu => ?_
  dsimp only
  split
  case h_1 => exact (hu.updUpd (by simp)).slotTo
  case h_2 => exact hu.slotTo
  case h_3 => exact .ite hu.slotTo hu
  case h_4 => exact .ite hu.slotTo hu
  case h_5 => exact hu

theorem Kept.settingsStart (h : Kept false s₀ s) : Kept false s₀ s.settingsStart := by
  unfold State.settingsStart
  have copied : (if s.pw.pfw then { s.upd with setLate := true } else s.upd.startCopy).recovery = s.upd.recovery := by
    split <;> simp
  exact .ite (h.setUpd copied).other (.ite (h.setUpd copied).other (h.setUpd copied).other.updEvent)

theorem Kept.burnTo {v : Nat} (h : Kept false s₀ s) : Kept false s₀ (s.burnTo v) := h.other

theorem Kept.burnAtStart (h : Kept false s₀ s) : Kept false s₀ s.burnAtStart := .ite h.burnTo h

theorem Kept.confirmWrites (h : Kept false s₀ s) : Kept false s₀ s.confirmWrites := by
  unfold State.confirmWrites
  exact (h.updUpd (by dsimp only; split <;> simp)).burnTo

theorem Kept.updDone {t : Taken} (h : Kept false s₀ s) : Kept false s₀ (s.updDone t) := .ite h.complete h.await

theorem Kept.cmdUpdBegin {t : Taken} (h : Kept false s₀ s) : Kept false s₀ (cmdUpdBegin t s) := by
  unfold Machine.cmdUpdBegin
  exact h.guarded fun _ hu => (hu.updUpd (by simp)).slotTo.updDone

theorem Kept.cmdUpdData {t : Taken} (h : Kept false s₀ s) : Kept false s₀ (cmdUpdData t s) := by
  unfold Machine.cmdUpdData
  exact h.guarded fun _ hu => .ite (hu.updUpd (by simp)).slotTo.refuse ((hu.updUpd (by simp)).updUpd (by rfl)).updDone

theorem Kept.cmdUpdEnd {t : Taken} (h : Kept false s₀ s) : Kept false s₀ (cmdUpdEnd t s) :=
  h.guarded (fun _ hu => hu.complete.updUpd (by rfl))

theorem Kept.cmdUpdActivate {t : Taken} (h : Kept false s₀ s) : Kept false s₀ (cmdUpdActivate t s) := by
  unfold Machine.cmdUpdActivate
  exact h.guarded (fun _ hu => .ite hu.complete (.ite (hu.slotTo.updDone.updPw (by exact ⟨rfl, rfl, rfl⟩)) hu.slotTo.updDone))

theorem Kept.cmdUpdRead {t : Taken} (h : Kept false s₀ s) : Kept false s₀ (cmdUpdRead t s) := by
  unfold Machine.cmdUpdRead
  refine h.guarded fun _ hu => ?_
  split
  · exact hu.await
  · exact hu.other.readDone

/-! ### The operations of Power -/

theorem Kept.snapWrite (h : Kept m s₀ s) : Kept m s₀ s.snapWrite := .ite h (.ite h.aside h.aside)

theorem Kept.creepStart (h : Kept false s₀ s) : Kept false s₀ s.creepStart := by
  unfold State.creepStart
  refine h.overL fun _ _ hu => ?_
  split
  · exact hu.updCh
  · exact hu.updCh.iceRecord

theorem Kept.grpStart (h : Kept false s₀ s) : Kept false s₀ s.grpStart := by
  unfold State.grpStart
  exact h.other.mapCh

theorem Kept.refEvents {ref : Vector ChState 64} (h : Kept false s₀ s) : Kept false s₀ (s.refEvents ref) :=
  h.overL (fun _ _ hu => hu.postOnly)

theorem Kept.retriesAtStart (h : Kept false s₀ s) : Kept false s₀ s.retriesAtStart := by
  unfold State.retriesAtStart
  refine h.overL fun _ _ hu => ?_
  extract_lets _ _ s1
  have hs1 : Kept false s₀ s1 := hu.overL (fun _ _ hu2 => hu2.updCh)
  exact .ite hu (.ite hs1.tripPolicyAt (.ite hs1.updCh hs1))

theorem Kept.startRecords (h : Kept false s₀ s) : Kept false s₀ s.startRecords := by
  unfold State.startRecords
  extract_lets s1 s2 s3 s4 s5 s6
  have placed : Kept false s₀ s1 := h.iceStart.tmbLockRecs.hingeStart.creepStart
  have loaded : Kept false s₀ s3 := placed.other.other
  have posted : Kept false s₀ s5 := loaded.batStart.pdStart.overL fun _ _ hu => hu.postRec
  clear_value s5
  exact (posted.updUpd (by rfl)).refEvents.retriesAtStart

theorem Kept.pumpStart {b : Nat} (h : Kept false s₀ s) : Kept false s₀ (s.pumpStart b) := h.updPump

theorem Kept.groupSteps (h : Kept false s₀ s) : Kept false s₀ s.groupSteps := by
  have stepped (k : Nat) : Kept false s₀ (s.updPw fun p => { p with step := 7 + k }) := h.toStep (Nat.le_add_right 7 k)
  exact .ite (.ite (stepped _).pumpStart (stepped _)) h

theorem Kept.admHead {n : Fin 64} (h : Kept false s₀ s) : Kept false s₀ (s.admHead n) := .ite h.other h.admAdd

theorem Kept.openAdmission (h : Kept false s₀ s) : Kept false s₀ s.openAdmission := by
  unfold State.openAdmission
  extract_lets s1
  have heads : Kept false s₀ s1 := h.overL fun _ _ hu => .ite hu.admHead hu
  have opened (f : Nat) : Kept false s₀ (s1.updPw fun p =>
      { p with step := 17, mode := .run, admOpen := true, headA := [], runAt := f }) :=
    heads.movePw rfl (.inr rfl) fun _ => Nat.le_add_right 7 10
  exact (opened _).other

theorem Kept.step16 (h : Kept false s₀ s) : Kept false s₀ s.step16 := by
  unfold State.step16
  have stepped : Kept false s₀ (s.updPw fun p => { p with step := 16 }) := h.toStep (by decide)
  exact .ite stepped.openAdmission (.ite stepped.cvStartReq stepped.cvStartReq.openAdmission)

theorem Kept.startStep (h : Kept false s₀ s) : Kept false s₀ s.startStep := by
  unfold State.startStep
  extract_lets
  refine .ite h ?_
  split
  · exact .ite h h.openAdmission
  · exact .ite h.openAdmission h
  · exact h

theorem Kept.pumpDone {b : Fin 4} (h : Kept false s₀ s) : Kept false s₀ (s.pumpDone b) := by
  unfold State.pumpDone
  have stepped : Kept false s₀ (s.updPw fun p => { p with step := 12 + b.val }) := h.toStep (by omega)
  exact .ite stepped.pumpStart stepped.step16

theorem Kept.spareIn {b : Fin 4} {st : PumpSt} (h : Kept false s₀ s) : Kept false s₀ (s.spareIn b st) := by
  unfold State.spareIn
  exact h.updPump.iceRecord.iceRecord

theorem Kept.pumpEnd {bank : Fin 4} {vsup : Nat} (h : Kept false s₀ s) : Kept false s₀ (s.pumpEnd bank vsup) := by
  unfold State.pumpEnd
  exact (Kept.ite h.updPump.setFault.iceRecord h).pumpDone

theorem Kept.heldToOn (h : Kept false s₀ s) : Kept false s₀ s.heldToOn := .ite h (h.overL (fun _ _ hu => hu.enter))

theorem Kept.cvStartOver (h : Kept false s₀ s) : Kept false s₀ s.cvStartOver := by
  unfold State.cvStartOver
  extract_lets s1
  have hs1 : Kept false s₀ s1 := h.when (fun _ hu => hu.huReturned)
  exact .ite hs1.openAdmission hs1

theorem Kept.firnResume (h : Kept false s₀ s) : Kept false s₀ s.firnResume := by
  unfold State.firnResume
  extract_lets s1 s2
  have written : Kept false s₀ s1 := by
    refine h.other.updUpd ?_
    dsimp only
    split <;> split <;> simp
  exact (written.when fun _ hu => hu.confirmWrites).storeSettings.mapCh

theorem Kept.cmdReset {t : Taken} (h : Kept false s₀ s) : Kept false s₀ (cmdReset t s) :=
  h.guarded (fun _ hu => hu.await.updPw (by exact ⟨rfl, rfl, rfl⟩))

theorem Kept.cmdDormant {t : Taken} (h : Kept false s₀ s) : Kept false s₀ (cmdDormant t s) :=
  h.guarded (fun _ hu => hu.await.updPw (by exact ⟨rfl, rfl, rfl⟩))

theorem Kept.dormBegin {t : Taken} (h : Kept false s₀ s) : Kept false s₀ (s.dormBegin t) := h.cmdStart.await

theorem Kept.cmdWakeCfg {t : Taken} (h : Kept false s₀ s) : Kept false s₀ (cmdWakeCfg t s) := h.guarded (fun _ hu => hu.stage)

theorem Kept.cvResume (h : Kept false s₀ s) : Kept false s₀ s.cvResume := .ite h.updCv h.updCv

theorem Kept.dormAbandon (h : Kept false s₀ s) : Kept false s₀ s.dormAbandon := by
  unfold State.dormAbandon
  extract_lets s1 s2
  have ended : Kept false s₀ s2 := (h.updPw (by exact ⟨rfl, rfl, rfl⟩)).completeOuts fun _ _ hu => hu.finish
  exact .ite (ended.cvResume.movePw rfl (.inl rfl) fun _ => Nat.le_add_right 7 9) ended.cvResume.step16

theorem Kept.dormHold (h : Kept false s₀ s) : Kept false s₀ s.dormHold := h.overL (fun _ _ hu => .ite hu.enterNow hu.enterNow.updCh)

theorem Kept.dormStore (h : Kept false s₀ s) : Kept false s₀ s.dormStore := .ite h h.mapCh.other.updCv.batWrite.snapWrite.iceFlushed

theorem Kept.dormPumps (h : Kept false s₀ s) : Kept false s₀ s.dormPumps := by
  unfold State.dormPumps
  exact (h.completeOuts (fun _ _ hu => hu.finish)).updPump

/-! ### The operations of Net -/

theorem Kept.updNet {f : Net → Net} (h : Kept m s₀ s) : Kept m s₀ (s.updNet f) := h.aside

theorem Kept.netDrop {l : Link} {k : Fin 8} (h : Kept false s₀ s) : Kept false s₀ (s.netDrop l k) := by
  unfold State.netDrop
  exact h.updNet

theorem Kept.netLearn {m : NetMsg} (h : Kept false s₀ s) : Kept false s₀ (s.netLearn m) := h.updNet

theorem Kept.cmdReject {m : NetMsg} {status : Nat} (h : Kept false s₀ s) : Kept false s₀ (s.cmdReject m status) := by
  unfold State.cmdReject
  exact h.other.sendMsg

theorem Kept.cmdEnter {q : Fin 32} {m : NetMsg} {off : Nat} (h : Kept false s₀ s) : Kept false s₀ (s.cmdEnter q m off) := by
  unfold State.cmdEnter
  have stored {a b : Nat} {bs ds : List Byte} {c : Prop} [Decidable c] :
      Kept false s₀ { s with qmem := if c then memWriteL s.qmem a bs else memWriteL (memWriteL s.qmem a bs) b ds } := by
    split
    · exact h.store
    · exact h.store.store
  exact stored.updQ.when fun _ hu => hu.netDrop

theorem Kept.netCommand {m : NetMsg} (h : Kept false s₀ s) : Kept false s₀ (s.netCommand m) := by
  unfold State.netCommand
  dsimp only
  split
  · exact h.violation.cmdReject
  · split
    · refine .ite h.violation.cmdReject (.ite h.cmdReject ?_)
      split
      · split
        · exact h.sendMsg
        · exact h
      · refine .ite h.cmdReject ?_
        split
        · exact h.cmdReject
        · exact h.cmdEnter
    · exact h.violation.cmdReject

theorem Kept.netEcho {m : NetMsg} (h : Kept false s₀ s) : Kept false s₀ (s.netEcho m) := h.sendMsg

theorem Kept.rxPn {m : NetMsg} (h : Kept false s₀ s) : Kept false s₀ (s.rxPn m) := h.updNet

theorem Kept.netTake {m : NetMsg} (h : Kept false s₀ s) : Kept false s₀ (s.netTake m) := by
  unfold State.netTake
  extract_lets s1
  have hs1 : Kept false s₀ s1 := h.netLearn
  exact .ite h <| .ite h.netDrop <| .ite h.netDrop <| .ite h.netDrop <|
    .ite h.netDrop (.ite h.netDrop (.ite hs1.netCommand (.ite hs1.netEcho hs1.hingeMsg)))

theorem Kept.netRecv {m : NetMsg} (h : Kept false s₀ s) : Kept false s₀ (s.netRecv m) :=
  .ite h (.ite h.netDrop (.ite h.netDrop h.rxPn.netTake))

theorem Kept.sendNd {l : Link} {solicit : Bool} {target dst : BitVec 128} (h : Kept false s₀ s) :
    Kept false s₀ (s.sendNd l solicit target dst) := by
  unfold State.sendNd
  exact h.updNet

theorem Kept.txFree {x : Option (Fin 32 × Option Nat)} (h : Kept false s₀ s) : Kept false s₀ (s.txFree x) := by
  unfold State.txFree
  split
  · exact h
  · exact .ite h.updQ h.updQ.freeTo

theorem Kept.handed {pre : State} {m : TxMsg} {bytes : List Byte} (h : Kept false s₀ s) : Kept false s₀ (s.handed pre m bytes) := by
  unfold State.handed
  extract_lets s1 s2
  have hs1 : Kept false s₀ s1 := by
    unfold s1
    split
    · exact h.updQ
    · exact h
  have hs2 : Kept false s₀ s2 := hs1.txFree
  split
  · exact hs2.latMiss
  · exact hs2

theorem Kept.handOver {l : Link} (h : Kept false s₀ s) : Kept false s₀ (s.handOver l) := by
  unfold State.handOver
  split
  · exact h
  · exact h.updNet.other.handed

theorem Kept.capStream (h : Kept false s₀ s) : Kept false s₀ s.capStream := by
  unfold State.capStream
  refine .ite h ?_
  split
  · exact h
  · extract_lets _ _ _ _ _ s1
    have hs1 : Kept false s₀ s1 := h.sendMsg
    exact .ite h.updNet (.ite h.updNet hs1.updNet)

theorem Kept.netTick (h : Kept false s₀ s) : Kept false s₀ s.netTick := .ite h (h.capStream.overL (fun _ _ hu => hu.handOver))

theorem Kept.resolveNodes {l o : Link} (h : Kept false s₀ s) : Kept false s₀ (s.resolveNodes l o) := by
  unfold State.resolveNodes
  refine h.overL fun _ _ hu => ?_
  split
  · exact hu.sendNd
  · exact hu

theorem Kept.linkMove {l : Link} (h : Kept false s₀ s) : Kept false s₀ (s.linkMove l) := by
  unfold State.linkMove
  extract_lets _ _ s1
  have hs1 : Kept false s₀ s1 := .ite h.resolveNodes.updNet.iceRecord h
  exact .ite hs1.updNet hs1

theorem Kept.linkTo {l : Link} {up : Bool} (h : Kept false s₀ s) : Kept false s₀ (s.linkTo l up) :=
  .ite h (.ite h.updNet.iceRecord h.updNet.iceRecord.linkMove)

/-! ### The operations of Clock -/

theorem Kept.gensToRc (h : Kept false s₀ s) : Kept false s₀ s.gensToRc := h.other

/-! ### The operations of TwoWire -/

theorem Kept.updTw {f : Tw → Tw} (h : Kept m s₀ s) : Kept m s₀ (s.updTw f) := h.aside

theorem Kept.updCnt {b : Bus} {f : TwCnt → TwCnt} (h : Kept false s₀ s) : Kept false s₀ (s.updCnt b f) := by
  unfold State.updCnt
  split
  · exact h.updTw
  · exact h.updTw

theorem Kept.twOut {o : Option (List Byte)} (h : Kept false s₀ s) : Kept false s₀ (s.twOut o) := h.updTw

theorem Kept.twNack {b : Bus} (h : Kept false s₀ s) : Kept false s₀ (s.twNack b) := h.updCnt.twOut

theorem Kept.twReject {q : Fin 32} {b : List Byte} {status : Nat} (h : Kept false s₀ s) :
    Kept false s₀ (s.twReject q b status) := by
  unfold State.twReject
  exact h.other.twAdd

theorem Kept.twEnter {q : Fin 32} {b : List Byte} {off : Nat} (h : Kept false s₀ s) : Kept false s₀ (s.twEnter q b off) := by
  unfold State.twEnter
  have stored {a₁ a₂ : Nat} {b₁ b₂ : List Byte} : Kept false s₀ { s with qmem := memWriteL (memWriteL s.qmem a₁ b₁) a₂ b₂ } :=
    h.store.store
  exact stored.updQ

theorem Kept.twCommand {q : Fin 32} {b : List Byte} (h : Kept false s₀ s) : Kept false s₀ (s.twCommand q b) := by
  unfold State.twCommand
  refine .ite h.violation.twReject (.ite h.twReject ?_)
  split
  · split
    · exact h.updCnt.twAdd
    · exact h.updCnt
  · refine .ite h.twReject ?_
    split
    · exact h.twReject
    · exact h.twEnter

theorem Kept.twTake (h : Kept false s₀ s) : Kept false s₀ s.twTake := by
  unfold State.twTake
  split
  · exact h
  · extract_lets s1
    have hs1 : Kept false s₀ s1 := h.updTw
    split
    · exact hs1
    · exact hs1.txFree

theorem Kept.notifyLoss (h : Kept false s₀ s) : Kept false s₀ s.notifyLoss := .ite h.updCnt.updTw h.updTw

theorem Kept.notifySend {e : NotifyEnd} (h : Kept false s₀ s) : Kept false s₀ (s.notifySend e) := by
  unfold State.notifySend
  dsimp only
  split
  · exact h.twOut.updTw
  · exact h.twOut.updCnt.updTw
  · exact h.updCnt.notifyLoss

/-! ### The operations of HostPort -/

theorem Kept.faultClear {w : Word} (h : Kept false s₀ s) : Kept false s₀ (s.faultClear w) := by
  unfold State.faultClear
  exact h.other

theorem Kept.vioCtl {w : Word} (h : Kept false s₀ s) : Kept false s₀ (s.vioCtl w) := .ite h (.ite h.other h.spiViolation)

theorem Kept.cmdIdRead {t : Taken} (h : Kept false s₀ s) : Kept false s₀ (cmdIdRead t s) := by
  unfold Machine.cmdIdRead
  refine h.guarded fun _ hu => ?_
  split
  · exact hu.await
  · exact hu.readDone

theorem Kept.recoveryCmd {t : Taken} (h : Kept false s₀ s) : Kept false s₀ (recoveryCmd t s) := by
  unfold Machine.recoveryCmd
  split
  · exact h.cmdUpdBegin
  · exact h.cmdUpdData
  · exact h.cmdUpdEnd
  · exact h.cmdUpdActivate
  · exact h.cmdUpdRead
  · exact h.cmdIdRead
  · exact h.unknownOp

theorem Kept.takeRing {q : Fin 32} {x : Taken} (h : Kept false s₀ s) (e : s.takeRing q = some (x, t)) : Kept false s₀ t := by
  unfold State.takeRing at e
  dsimp only at e
  split at e
  · cases e
  · split at e
    · cases e
      exact h.updQ
    · cases e

theorem Kept.recServe (h : Kept false s₀ s) : Kept false s₀ s.recServe := by
  refine .ite h (h.overL fun _ u hu => ?_)
  split
  · exact hu
  case h_2 t u' e => exact (hu.takeRing e).start fun _ _ hv => hv.recoveryCmd

theorem Kept.regWrite {a : Nat} {w : Word} (h : Kept false s₀ s) : Kept false s₀ (s.regWrite a w) := by
  unfold State.regWrite
  exact .ite h <| .ite h <| .ite h <| .ite (.ite h.faultClear h) <| .ite (Kept.ite h.sqdb h.cqdb).recServe <|
    .ite (.ite h.qctl h) <| .ite h.setWinbase <| .ite h <| .ite h.vioCtl <| .ite h.spiViolation <| .ite h.spiViolation <|
    .ite h.spiViolation <| .ite h <| .ite h.store h.spiViolation

theorem Kept.writeWords {a : Nat} {ws : List Word} (h : Kept false s₀ s) : Kept false s₀ (s.writeWords a ws) := by
  induction ws generalizing s a with
  | nil => exact h
  | cons w ws ih => exact ih h.regWrite

theorem Kept.regRead {a : Nat} (h : Kept false s₀ s) : Kept false s₀ (s.regRead a).2 := by
  unfold State.regRead
  simp only [apply_ite Prod.snd]
  exact .ite h <| .ite h <| .ite h <| .ite h <| .ite h <| .ite h <| .ite h <| .ite h <| .ite h h.spiViolation

theorem Kept.readWords {a n : Nat} (h : Kept false s₀ s) : Kept false s₀ (s.readWords a n).2 := by
  induction n generalizing s a with
  | zero => exact h
  | succ n ih => exact ih h.regRead

theorem Kept.spiFrame {ws : List Word} {mid : Bool} (h : Kept false s₀ s) : Kept false s₀ (s.spiFrame ws mid) := by
  unfold State.spiFrame
  extract_lets hd prev old s0 protect s1 badAddr nRead
  have read : Kept false s₀ (s1.readWords hd.addr nRead).2 := (h.other.when fun _ hu => hu.spiViolation).readWords
  exact (Kept.when (.ite read.writeWords read) fun _ hu => hu.spiViolation).other

theorem Kept.spiWrite {f : State → State} (h : Kept false s₀ s) (hf : ∀ u, Kept false s₀ u → Kept false s₀ (f u)) :
    Kept false s₀ (s.spiWrite f) :=
  hf _ h.other

/-! ### The operations of MemErr -/

theorem Kept.updMem {f : Mem → Mem} (h : Kept m s₀ s) : Kept m s₀ (s.updMem f) := h.aside

theorem Kept.markSample {a : Word} (h : Kept false s₀ s) : Kept false s₀ (s.markSample a) := by
  unfold State.markSample
  split
  · exact h.other

theorem Kept.queueEcc {a : Word} (h : Kept false s₀ s) : Kept false s₀ (s.queueEcc a) := by
  unfold State.queueEcc
  extract_lets
  refine .ite h ?_
  split
  · exact .ite h h.queueStop

theorem Kept.firnEcc {p : FirnPart} (h : Kept false s₀ s) : Kept false s₀ (s.firnEcc p) := by
  unfold State.firnEcc
  cases p with
  | iceRing seq => exact h.updIce
  | settings b =>
    refine h.updUpd ?_
    cases b <;> rfl
  | battery b => exact h.updBat
  | snapshot b => exact .ite h.other h.other
  | creep n b => exact h.updCh
  | lastFault k b => exact h.updCv
  | cvLearned b => exact h.updCv
  | rsv b => exact h.updIce
  | updState b =>
    refine h.updUpd ?_
    cases b <;> rfl
  | other => exact h

/-! ### The operations of Service -/

theorem Kept.perform {t : Taken} (h : Kept false s₀ s) : Kept false s₀ (perform t s) := by
  unfold Machine.perform
  split
  · exact h.cmdChOn
  · exact h.cmdChOff
  · exact h.cmdChCfg
  · exact h.cmdChRead
  · exact h.cmdChClear
  · exact h.cmdCvSet
  · exact h.cmdCvCfg
  · exact h.cmdAuxCfg
  · exact h.cmdLawCfg
  · exact h.cmdCvRead
  · exact h.cmdCapSet
  · exact h.cmdHuCfg
  · exact h.cmdShedOrder
  · exact h.cmdZoneRead
  · exact h.cmdHuTest
  · exact h.cmdStagCfg
  · exact h.cmdBatCfg
  · exact h.cmdBatRead
  · exact h.cmdSnsMask
  · exact h.cmdSnsGain
  · exact h.cmdSnsFilter
  · exact h.cmdSnsInj
  · exact h.cmdSnsZone
  · exact h.cmdSnsRead
  · exact h.cmdCapCfg
  · exact h.cmdCapArm
  · exact h.cmdCapTrig
  · exact h.cmdCapRelease
  · exact h.cmdCapRead
  · exact h.cmdCapNet
  · exact h.cmdIceRead
  · exact h.cmdIceFlush
  · exact h.cmdIceClear
  · exact h.cmdFence
  · exact h.cmdReset
  · exact h.cmdDormant
  · exact h.cmdWakeCfg
  · exact h.cmdOwnerMap
  · exact h.cmdOwnerRes
  · exact h.cmdQCfg
  · exact h.cmdQCtl
  · exact h.cmdVioClear
  · exact h.cmdIdRead
  · exact h.cmdHingeCfg
  · exact h.cmdHingeCmd
  · exact h.cmdHingeRead
  · exact h.cmdPdCfg
  · exact h.cmdPdCtl
  · exact h.cmdPdRead
  · exact h.cmdUpdBegin
  · exact h.cmdUpdData
  · exact h.cmdUpdEnd
  · exact h.cmdUpdActivate
  · exact h.cmdUpdRead
  · exact h.cmdInjStart
  · exact h.cmdInjStop
  · exact h.cmdInjRead
  · exact h.cmdCeStat
  · exact h.unknownOp

theorem Kept.takeVisible {q : Fin 32} (h : Kept false s₀ s) : Kept false s₀ (s.takeVisible q) := by
  unfold State.takeVisible
  split
  · exact h
  · refine .ite ?_ h
    split
    case h_1 t u e => exact (h.takeRing e).took.other
    · exact h

theorem Kept.takeAll {qs : List (Fin 32)} (h : Kept false s₀ s) : Kept false s₀ (s.takeAll qs) :=
  h.overL (fun _ _ hu => hu.overL (fun _ _ hu2 => hu2.takeVisible))

theorem Kept.runRest {n : Nat} (h : Kept false s₀ s) : Kept false s₀ (s.runRest n) := by
  unfold State.runRest
  refine h.overL fun _ _ hu => ?_
  split
  · exact hu
  · exact hu.other.begin (fun _ _ hu2 => hu2.perform)

theorem Kept.batch (h : Kept false s₀ s) : Kept false s₀ s.batch := h.takeAll.takeAll.runRest

theorem Kept.nextWaiting {q : Fin 32} (h : Kept false s₀ s) : Kept false s₀ (s.nextWaiting q) := by
  unfold State.nextWaiting
  split
  · exact h
  · exact .ite h h.updQ.perform

theorem Kept.runWaiting {q : Fin 32} (h : Kept false s₀ s) : Kept false s₀ (s.runWaiting q) :=
  h.overL (fun _ _ hu => hu.nextWaiting)

theorem Kept.classASlot (h : Kept false s₀ s) : Kept false s₀ s.classASlot := by
  unfold State.classASlot
  exact h.other.takeAll.other.runRest

theorem Kept.fenceForget {o : Out} (h : Kept false s₀ s) : Kept false s₀ (s.fenceForget o) := by
  unfold State.fenceForget
  split
  · exact h.overL (fun _ _ hu => hu.updQ)
  · exact h

/-! ### The operations of Frame -/

theorem Kept.lastS5 {carry : Bool} (h : Kept false s₀ s) : Kept false s₀ (s.lastS5 carry) :=
  ((((h.hingeS5.meterAll.when (fun _ hu => hu.profilesPosted)).cvMeter).auxMeter).batFrame).cvStore

theorem Kept.capBudget (h : Kept false s₀ s) : Kept false s₀ s.capBudget := h.updZone

theorem Kept.refill (h : Kept false s₀ s) : Kept false s₀ s.refill := h.updZone

theorem Kept.coldOutputs (h : Kept false s₀ s) : Kept false s₀ s.coldOutputs :=
  .ite (h.updHinge.updPw (by exact ⟨rfl, rfl, rfl⟩)).step16 h

theorem Kept.applyAny {w : FKey × Nat} (h : Kept false s₀ s) : Kept false s₀ (s.applyAny w) := by
  unfold State.applyAny
  exact .ite (.ite h.fireStream h.updCap) (.ite h.hingeAction (.ite h.pdAction h.applyWrite))

theorem Kept.applyDue {due : DueAt} (h : Kept false s₀ s) : Kept false s₀ (s.applyDue due) := by
  unfold State.applyDue
  extract_lets s1 s2
  have hs1 : Kept false s₀ s1 := h.other.overL (fun _ _ hu => (hu.overL (fun _ _ hu2 => hu2.applyAny)).bringUp)
  have hs2 : Kept false s₀ s2 := hs1.storeSettings
  exact .ite hs2 hs2.cvConfigure

theorem Kept.tickDone (h : Kept false s₀ s) : Kept false s₀ s.tickDone := by
  unfold State.tickDone
  extract_lets
  refine h.completeOuts fun _ _ hu => ?_
  split
  · exact hu.complete
  · exact hu.complete
  · exact hu

theorem Kept.cvStarts (h : Kept false s₀ s) : Kept false s₀ s.cvStarts := h.completeOuts (fun _ _ hu => hu.cvSetBegin)

theorem Kept.startsDue (h : Kept false s₀ s) : Kept false s₀ s.startsDue := by
  unfold State.startsDue
  refine h.completeOuts fun _ _ hu => ?_
  split
  · exact hu.huTestBegin
  · exact hu.dormBegin
  · exact hu

theorem Kept.wholePeriods (h : Kept false s₀ s) : Kept false s₀ s.wholePeriods := .ite h h.mapCh

theorem Kept.meterHeld (h : Kept false s₀ s) : Kept false s₀ s.meterHeld := h.other.overL (fun _ _ hu => hu.meterWork)

theorem Kept.hardHolds (h : Kept false s₀ s) : Kept false s₀ s.hardHolds := .ite h h.updZone

theorem Kept.senseLatch {i : FrameIn} (h : Kept false s₀ s) : Kept false s₀ (s.senseLatch i) := by
  unfold State.senseLatch
  exact h.other

theorem Kept.heldReads (h : Kept false s₀ s) : Kept false s₀ s.heldReads := h.completeOuts (fun _ _ hu => hu.perform)

theorem Kept.s0 {i : FrameIn} (h : Kept false s₀ s) : Kept false s₀ (s.s0 i) := h.senseLatch.heldReads

theorem Kept.lostGates {pre : State} (h : Kept false s₀ s) : Kept false s₀ (s.lostGates pre) := h.mapCh

theorem Kept.causes {zero : List Raise} {missed : BitVec 64} (h : Kept false s₀ s) : Kept false s₀ (s.causes zero missed) := by
  unfold State.causes
  extract_lets _ _ s1 s2
  have hs1 : Kept false s₀ s1 := h.disarmTests.mapCh.updPump
  have hs2 : Kept false s₀ s2 := hs1.cmdBefore.resolve.lostGates.cmdAfter.onAfter
  exact hs2.when (fun _ hu => hu.zone125.th125)

theorem Kept.railsS1 {loss : Bool} (h : Kept false s₀ s) : Kept false s₀ (s.railsS1 loss) := by
  unfold State.railsS1
  exact (((h.cvS1.overL (fun _ _ hu => hu.auxS1)).pdS1).zoneS1).injCheck

theorem Kept.admitS1 (h : Kept false s₀ s) : Kept false s₀ s.admitS1 := .ite h.admission h

theorem Kept.lossPosted {loss : Bool} (h : Kept false s₀ s) : Kept false s₀ (s.lossPosted loss) := h.other

theorem Kept.timeZero (h : Kept false s₀ s) : Kept false s₀ s.timeZero.1 := by
  refine h.overL fun n u hu => ?_
  extract_lets want b u1 u2
  have begun : Kept false s₀ u2 := (hu.when fun _ hv => hv.tmbClamp).updCh
  exact .ite (Kept.ite begun.tmbClamp begun.tmbClamp).updCh begun.driveStart

theorem Kept.zoneFirst (h : Kept false s₀ s) : Kept false s₀ s.zoneFirst.1 := by
  unfold State.zoneFirst
  simp only [apply_ite Prod.fst]
  exact .ite h (.ite h.updZone.updZone h.updZone.lossNormal)

theorem Kept.zoneDetect {a b : Int} (h : Kept false s₀ s) : Kept false s₀ (s.zoneDetect a b).1 := by
  unfold State.zoneDetect
  dsimp only
  simp only [apply_ite Prod.fst]
  refine .ite h (.ite h.zoneFirst ?_)
  split
  case h_1 =>
    split
    · exact h.testRefused.lossNormal
    · simp only [apply_ite Prod.fst]
      exact .ite (.ite h.lossNormal h.testRefused) h
  case h_2 =>
    split
    · exact h.lossReturn
    · exact h
  case h_3 => exact h

theorem Kept.s1 {i : FrameIn} (h : Kept false s₀ s) : Kept false s₀ (s.s1 i) := by
  unfold State.s1
  extract_lets z d a s2 s3 s4
  have checked : Kept false s₀ a.1 := h.timeZero.zoneDetect.lossPosted.wireAll.checkAll.probeGuard.arcEnd.arcEval
  have settled : Kept false s₀ s4 := (checked.updClk (by rfl)).causes.heldToOn.startStep.railsS1.bankDrop.admitS1
  exact .ite settled settled.rampEnds

theorem Kept.ceSlots (h : Kept false s₀ s) : Kept false s₀ s.ceSlots :=
  .ite h ((((h.cvS2.auxS2.cvS3.overL (fun _ _ hu => hu.auxS3)).injCheck).injS3).feedCe)

/-! ### The operations of Period -/

theorem Kept.imbalance {frames : Vector Nat 64} (h : Kept m s₀ s) : Kept m s₀ (s.imbalance frames) :=
  h.overL (fun _ _ hu => hu.overL (fun _ _ hu2 => hu2.postOnly))

theorem Kept.ttlPeriod (h : Kept m s₀ s) : Kept m s₀ s.ttlPeriod := by
  unfold State.ttlPeriod
  refine h.mapMetered fun n c => ?_
  split
  · rfl
  · simp only [Chan.figures]

theorem Kept.meterPeriod {p : PeriodIn} (h : Kept false s₀ s) : Kept false s₀ (s.meterPeriod p) := by
  unfold State.meterPeriod
  exact h.meterHeld.other.imbalance.ttlPeriod

theorem Kept.supplyCheck {b : Fin 4} (h : Kept m s₀ s) : Kept m s₀ (s.supplyCheck b) := by
  unfold State.supplyCheck
  exact .ite h.updPump.iceRecord h.updPump

theorem Kept.snapPeriod (h : Kept m s₀ s) : Kept m s₀ s.snapPeriod := by
  unfold State.snapPeriod
  exact .ite h.aside.snapWrite h

theorem Kept.snapRecord (h : Kept m s₀ s) : Kept m s₀ s.snapRecord := by
  unfold State.snapRecord
  extract_lets _ _ _ s1
  have hs1 : Kept m s₀ s1 := h.aside
  refine .ite h ?_
  split
  · exact hs1.iceRecord
  · exact hs1.iceRecord

theorem Kept.periodDone (h : Kept m s₀ s) : Kept m s₀ s.periodDone := by
  unfold State.periodDone
  refine h.completeOuts fun _ _ hu => ?_
  split
  · exact hu.complete
  · exact hu

theorem Kept.creepPeriod (h : Kept m s₀ s) : Kept m s₀ s.creepPeriod := by
  unfold State.creepPeriod
  extract_lets s1
  have hs1 : Kept m s₀ s1 := h.overL (fun _ _ hu => hu.creepMeasure)
  exact (hs1.overL (fun _ _ hu => hu.creepReplan.creepDaily)).probeStart

theorem Kept.slicePeriod {p : PeriodIn} (h : Kept m s₀ s) : Kept m s₀ (s.slicePeriod p) :=
  .ite h (h.overL (fun _ _ hu => hu.sliceUpdate))

theorem Kept.figures (h : Kept m s₀ s) : Kept m s₀ s.figures := h.updUpd (by rfl)

theorem Kept.energyPeriod (h : Kept m s₀ s) : Kept m s₀ s.energyPeriod := by
  unfold State.energyPeriod
  exact h.auxPeriod.batPeriod.updCv.zonePeriod.cvPeriod.pdPeriod

theorem Kept.commands (h : Kept false s₀ s) : Kept false s₀ s.commands := by
  unfold State.commands
  exact ((h.overL (fun _ _ hu => hu.runWaiting)).batch).overL (fun _ _ hu => hu.runWaiting)

end

/-! ### The commands -/

/-- A command completes in a state that its operations have kept. -/
def Keeps (s₀ : State) (o : Host.Outcome State Fault Refusal) : Prop := ∃ t, o = .next t ∧ Kept false s₀ t

section
variable {s₀ s : State}

theorem Keeps.next (h : Kept false s₀ s) : Keeps s₀ (.next s) := ⟨s, rfl, h⟩

theorem Kept.execRcOscillatorFault (h : Kept false s₀ s) : Keeps s₀ (execRcOscillatorFault s) :=
  .next (.ite h (.ite (h.updClk (by rfl)).iceRecord (h.updClk (by rfl)).keepEvent))

theorem Kept.execCrystalStartTimeout (h : Kept false s₀ s) : Keeps s₀ (execCrystalStartTimeout s) :=
  .next (.ite (h.updClk (by rfl)).keepEvent h)

theorem Kept.execPumpRegulated {bank : Fin 4} {vsup : Nat} (h : Kept false s₀ s) : Keeps s₀ (execPumpRegulated bank vsup s) :=
  .next (.ite h.updPump.pumpEnd h)

theorem Kept.execPumpStartTimeout {x : PumpLate} (h : Kept false s₀ s) : Keeps s₀ (execPumpStartTimeout x s) :=
  .next (.ite (.ite h.spareIn.updPump h.updPump.setFault.iceRecord.pumpEnd) h)

theorem Kept.execPumpFail {bank : Fin 4} (h : Kept false s₀ s) : Keeps s₀ (execPumpFail bank s) :=
  .next (.ite (.ite h.spareIn h.updPump.setFault.iceRecord) h)

theorem Kept.execConverterRegulation (h : Kept false s₀ s) : Keeps s₀ (execConverterRegulation s) :=
  .next (.ite h.updCv.cvSetsEnd.updHinge.cvStartOver h)

theorem Kept.execStartFail (h : Kept false s₀ s) : Keeps s₀ (execStartFail s) := by
  unfold Machine.execStartFail
  refine .next ?_
  split
  · exact .ite h.cvFault.cvStartOver h
  · exact h

theorem Kept.execClassAServiceSlot (h : Kept false s₀ s) : Keeps s₀ (execClassAServiceSlot s) :=
  .next (.ite ((h.overL (fun _ _ hu => hu.runWaiting)).classASlot) h)

theorem Kept.execClassAAcceptTimeout {n : Fin 64} (h : Kept false s₀ s) : Keeps s₀ (execClassAAcceptTimeout n s) :=
  .next (h.completeOuts (fun _ _ hu => hu.complete))

theorem Kept.execTumblerRamp {n : Fin 64} (h : Kept false s₀ s) : Keeps s₀ (execTumblerRamp n s) := .next (.ite h.raise1 h)

theorem Kept.execRampTimeout {n : Fin 64} (h : Kept false s₀ s) : Keeps s₀ (execRampTimeout n s) := .next (.ite h.raise1 h)

theorem Kept.execGateFail {n : Fin 64} (h : Kept false s₀ s) : Keeps s₀ (execGateFail n s) := .next (.ite h.raise1 h)

theorem Kept.execFetShortTest {n : Fin 64} (h : Kept false s₀ s) : Keeps s₀ (execFetShortTest n s) := .next (.ite h.updCh.resolve h)

theorem Kept.execFetShort {n : Fin 64} (h : Kept false s₀ s) : Keeps s₀ (execFetShort n s) := .next (.ite h.raise1 h)

theorem Kept.execRetryDue {n : Fin 64} (h : Kept false s₀ s) : Keeps s₀ (execRetryDue n s) :=
  .next (.ite (.ite h.updCh.lockoutSet h.updCh.admAdd) h)

theorem Kept.execTstableExpiry {n : Fin 64} (h : Kept false s₀ s) : Keeps s₀ (execTstableExpiry n s) :=
  .next (.ite h.updCh h)

theorem Kept.execDischargeTimeout {n : Fin 64} (h : Kept false s₀ s) : Keeps s₀ (execDischargeTimeout n s) :=
  .next (.ite h.updCh.placeSinks h)

theorem Kept.execAmbFallback {n : Fin 64} (h : Kept false s₀ s) : Keeps s₀ (execAmbFallback n s) :=
  .next (.ite h.updCh.postOnly h)

theorem Kept.execArcBlock {a : Unit} (h : Kept false s₀ s) : Keeps s₀ (execArcBlock a s) := .next (.ite h.applyStaged.arcBlock h)

theorem Kept.execProbeEnd {n : Fin 64} {x : Unit} (h : Kept false s₀ s) : Keeps s₀ (execProbeEnd n x s) := by
  unfold Machine.execProbeEnd
  refine .next ?_
  extract_lets s1
  have hs1 : Kept false s₀ s1 := h.updCh
  refine .ite ?_ h
  split
  · extract_lets
    exact .ite hs1 hs1.updCh
  · exact hs1

theorem Kept.execInjectedConversion {g : Fin 5} {defn : Fin 8} {round : Fin 20} {ns : Fin 200}
    (h : Kept false s₀ s) : Keeps s₀ (execInjectedConversion g defn round ns s) :=
  .next (.ite h.updGrp h)

theorem Kept.execCaptureDone {i : Fin 16} (h : Kept false s₀ s) : Keeps s₀ (execCaptureDone i s) := .next (.ite h.updCap h)

theorem Kept.execShedholdExpiry (h : Kept false s₀ s) : Keeps s₀ (execShedholdExpiry s) := by
  unfold Machine.execShedholdExpiry
  refine .next ?_
  split
  · exact .ite h.updCv h
  · exact h

theorem Kept.execInterleaveRotation (h : Kept false s₀ s) : Keeps s₀ (execInterleaveRotation s) := .next (.ite h.rotate h)

theorem Kept.execAutoRestart (h : Kept false s₀ s) : Keeps s₀ (execAutoRestart s) := by
  unfold Machine.execAutoRestart
  refine .next ?_
  split
  · exact .ite h.cvStartReq h
  · exact h

theorem Kept.execCountedRestart {rail : Fin 5} (h : Kept false s₀ s) : Keeps s₀ (execCountedRestart rail s) := by
  refine .next (.ite h ?_)
  split
  · exact h.cvCounted
  · exact .ite h.auxCounted.pdRestart (.ite h.auxCounted.pdRestart h.auxCounted)

theorem Kept.execProfileTimeout {n : Fin 64} (h : Kept false s₀ s) : Keeps s₀ (execProfileTimeout n s) := by
  unfold Machine.execProfileTimeout
  refine .next ?_
  split
  · exact .ite h.endProfile h
  · exact h

theorem Kept.execInjectionStart (h : Kept false s₀ s) : Keeps s₀ (execInjectionStart s) :=
  .next (.ite h.other.injS3 h)

theorem Kept.execSweepPointEnd (h : Kept false s₀ s) : Keeps s₀ (execSweepPointEnd s) :=
  .next (.ite (.ite h.other.injEnd h.other.other) h)

theorem Kept.execHoldupReturn (h : Kept false s₀ s) : Keeps s₀ (execHoldupReturn s) :=
  .next (.ite h.enterReturn h)

theorem Kept.execReturnTimeout (h : Kept false s₀ s) : Keeps s₀ (execReturnTimeout s) :=
  .next (.ite (.ite h.huEnter.updZone.updCv (.ite h.huEnter.updZone.cvTurn h.huEnter.updZone)) h)

theorem Kept.execSpentStartTimeout (h : Kept false s₀ s) : Keeps s₀ (execSpentStartTimeout s) :=
  .next (.ite h.huReturned h)

theorem Kept.execHuTestEnd (h : Kept false s₀ s) : Keeps s₀ (execHuTestEnd s) :=
  .next (.ite h.enterReturn h)

theorem Kept.execPowerFailWarning (h : Kept false s₀ s) : Keeps s₀ (execPowerFailWarning s) :=
  .next (.ite h (.ite (h.updPw (by exact ⟨rfl, rfl, rfl⟩)).iceRecord.updIce (h.updPw (by exact ⟨rfl, rfl, rfl⟩))))

theorem Kept.execPowerFailClear (h : Kept false s₀ s) : Keeps s₀ (execPowerFailClear s) :=
  .next (.ite ((h.updPw (by exact ⟨rfl, rfl, rfl⟩)).iceRecord.when (fun _ hu => hu.firnResume)) h)

theorem Kept.execSramScrub (h : Kept false s₀ s) : Keeps s₀ (execSramScrub s) := .next (.ite h.updMem h)

theorem Kept.execFirnScrub (h : Kept false s₀ s) : Keeps s₀ (execFirnScrub s) := .next (.ite h.updMem h)

theorem Kept.execEccSingle {r : Region} (h : Kept false s₀ s) : Keeps s₀ (execEccSingle r s) := .next (.ite h h.updMem.iceRecord)

theorem Kept.execParity {w : ParityAt} (h : Kept false s₀ s) : Keeps s₀ (execParity w s) := by
  unfold Machine.execParity
  refine .next ?_
  extract_lets s1
  have hs1 : Kept false s₀ s1 := h.iceRecord.setFault
  refine .ite h ?_
  split
  · exact h.iceRecord.setFault.updMem
  · exact hs1.other

theorem Kept.execBusError {addr : Word} (h : Kept false s₀ s) : Keeps s₀ (execBusError addr s) := .next (.ite h h.iceRecord.updMem)

theorem Kept.execKeyringKeyWrite {task : Fin 16} {val : Half} (h : Kept false s₀ s) :
    Keeps s₀ (execKeyringKeyWrite task val s) := by
  refine .next (.ite (h.updKrg ?_) h)
  extract_lets known
  split
  · split <;> rfl
  · rfl

theorem Kept.execKeyringRegister {task : Fin 16} {key : Half} (h : Kept false s₀ s) : Keeps s₀ (execKeyringRegister task key s) :=
  .next (.ite (h.updKrg (by rfl)) h)

theorem Kept.execKrgClock (h : Kept false s₀ s) : Keeps s₀ (execKrgClock s) :=
  .next (.ite (.ite (h.updKrg (by rfl)).setFault.iceRecord (h.updKrg (by rfl)).setFault.keepEvent) h)

theorem Kept.execTumblerTighten {f : TmbField} {ch : Nat} {hi : Bool} {val : Nat}
    (h : Kept false s₀ s) : Keeps s₀ (execTumblerTighten f ch hi val s) :=
  .next (.ite (.ite h.tmbPut.other.iceRecord.tmbCeilings h.iceRecord) h)

theorem Kept.execOffPermitLapse {n : Fin 64} (h : Kept false s₀ s) : Keeps s₀ (execOffPermitLapse n s) :=
  .next (.ite h.updCh h)

theorem Kept.execIceFlushDone (h : Kept false s₀ s) : Keeps s₀ (execIceFlushDone s) :=
  .next (.ite (h.iceFlushed.when fun _ hu => hu.batStore.withPw hu.logic hu.mode hu.step) h)

theorem Kept.execIceClearDone (h : Kept false s₀ s) : Keeps s₀ (execIceClearDone s) := by
  unfold Machine.execIceClearDone
  refine .next ?_
  split
  · exact .ite h.updIce.cmdDone h
  · exact h

theorem Kept.execFenceComplete {q : Fin 32} (h : Kept false s₀ s) : Keeps s₀ (execFenceComplete q s) := by
  unfold Machine.execFenceComplete
  refine .next ?_
  split
  · exact h
  · extract_lets _ s1
    have hs1 : Kept false s₀ s1 := h.dropOuts.fenceForget.complete
    exact hs1.updQ.runWaiting

theorem Kept.execSpiFrame {words : List Word} {midWord : Bool} (h : Kept false s₀ s) : Keeps s₀ (execSpiFrame words midWord s) :=
  .next (.ite h.spiFrame h.other)

theorem Kept.execQmSqdb {q : Fin 32} {w : Word} (h : Kept false s₀ s) : Keeps s₀ (execQmSqdb q w s) :=
  .next (.ite (h.spiWrite (fun _ hu => hu.sqdb.recServe)) h)

theorem Kept.execQmCqdb {q : Fin 32} {w : Word} (h : Kept false s₀ s) : Keeps s₀ (execQmCqdb q w s) :=
  .next (.ite (h.spiWrite (fun _ hu => hu.cqdb.recServe)) h)

theorem Kept.execQmQctlEn {q : Fin 32} {en ie : Bool} (h : Kept false s₀ s) : Keeps s₀ (execQmQctlEn q en ie s) :=
  .next (.ite (h.spiWrite (fun _ hu => hu.qctl)) h)

theorem Kept.execQmQctlRestart {q : Fin 32} (h : Kept false s₀ s) : Keeps s₀ (execQmQctlRestart q s) :=
  .next (.ite (h.spiWrite (fun _ hu => hu.qctl)) h)

theorem Kept.execQmWinbase {w : Word} (h : Kept false s₀ s) : Keeps s₀ (execQmWinbase w s) :=
  .next (.ite (h.spiWrite (fun _ hu => hu.setWinbase)) h)

theorem Kept.execVioCtlClear (h : Kept false s₀ s) : Keeps s₀ (execVioCtlClear s) :=
  .next (.ite (h.spiWrite (fun _ hu => hu.vioCtl)) h)

theorem Kept.execHptFaultClear {w : Word} (h : Kept false s₀ s) : Keeps s₀ (execHptFaultClear w s) :=
  .next (.ite (h.spiWrite (fun _ hu => hu.faultClear)) h)

theorem Kept.execRegisterWrite {addr : Half} {w : Word} (h : Kept false s₀ s) : Keeps s₀ (execRegisterWrite addr w s) :=
  .next (.ite (h.spiWrite (fun _ hu => hu.regWrite)) h)

theorem Kept.execCommandMessage {m : NetMsg} (h : Kept false s₀ s) : Keeps s₀ (execCommandMessage m s) := .next h.netRecv

theorem Kept.execEchoReq {m : NetMsg} (h : Kept false s₀ s) : Keeps s₀ (execEchoReq m s) := .next h.netRecv

theorem Kept.execNeighbourSolicitation {link : Link} {target src : BitVec 128} {_mac : BitVec 48}
    (h : Kept false s₀ s) : Keeps s₀ (execNeighbourSolicitation link target src _mac s) := .next (.ite h.sendNd h)

theorem Kept.execLinkState {link : Link} {up : Bool} (h : Kept false s₀ s) : Keeps s₀ (execLinkState link up s) := .next h.linkTo

theorem Kept.execPermit {m : NetMsg} (h : Kept false s₀ s) : Keeps s₀ (execPermit m s) := .next h.netRecv

theorem Kept.execRevoke {m : NetMsg} (h : Kept false s₀ s) : Keeps s₀ (execRevoke m s) := .next h.netRecv

theorem Kept.execFailover {m : NetMsg} (h : Kept false s₀ s) : Keeps s₀ (execFailover m s) := .next h.netRecv

theorem Kept.execHingeGnt {level : Bool} (h : Kept false s₀ s) : Keeps s₀ (execHingeGnt level s) := by
  unfold Machine.execHingeGnt
  refine .next ?_
  extract_lets _ s1 s2
  have hs1 : Kept false s₀ s1 := h.updHinge
  have hs2 : Kept false s₀ s2 := .ite hs1.updHinge hs1
  exact .ite h (.ite hs2.keepEvent hs2)

theorem Kept.execPartnerPulse {hold : Bool} (h : Kept false s₀ s) : Keeps s₀ (execPartnerPulse hold s) :=
  .next (.ite h (.ite h.updHinge.hingeRelease h.updHinge))

theorem Kept.execHeartbeat {f : LinkFrame} (h : Kept false s₀ s) : Keeps s₀ (execHeartbeat f s) := .next h.linkFrame

theorem Kept.execHingeLinkLost (h : Kept false s₀ s) : Keeps s₀ (execHingeLinkLost s) :=
  .next (.ite (.ite h.updHinge.postRec.hingeEnter h.updHinge.postRec) h)

theorem Kept.execPartnerAbsent (h : Kept false s₀ s) : Keeps s₀ (execPartnerAbsent s) :=
  .next (.ite h.hingeTake h)

theorem Kept.execHandingRegain (h : Kept false s₀ s) : Keeps s₀ (execHandingRegain s) :=
  .next (.ite (h.updHinge.hingeEnter.postSwap.completeOuts (fun _ _ hu => hu.finish)) h)

theorem Kept.execColdStartTake (h : Kept false s₀ s) : Keeps s₀ (execColdStartTake s) :=
  .next (.ite h.hingeTake h)

theorem Kept.execOffer {f : LinkFrame} (h : Kept false s₀ s) : Keeps s₀ (execOffer f s) := .next (.ite h.linkFrame h)

theorem Kept.execAck {f : LinkFrame} (h : Kept false s₀ s) : Keeps s₀ (execAck f s) := .next (.ite h.linkFrame h)

theorem Kept.execNak {f : LinkFrame} (h : Kept false s₀ s) : Keeps s₀ (execNak f s) := .next (.ite h.linkFrame h)

theorem Kept.execResyncEnd {f : LinkFrame} (h : Kept false s₀ s) : Keeps s₀ (execResyncEnd f s) := .next (.ite h.linkFrame h)

theorem Kept.execConverterHandoverEnd (h : Kept false s₀ s) : Keeps s₀ (execConverterHandoverEnd s) := by
  unfold Machine.execConverterHandoverEnd
  refine .next ?_
  split
  · exact h
  · exact .ite h.updHinge.updCv h

theorem Kept.execHostNotify {e : NotifyEnd} (h : Kept false s₀ s) : Keeps s₀ (execHostNotify e s) := .next (.ite h.notifySend h)

theorem Kept.execHostNotifyRetry {e : NotifyEnd} (h : Kept false s₀ s) : Keeps s₀ (execHostNotifyRetry e s) :=
  .next (.ite h.notifySend h)

theorem Kept.execTw1BlockWrite {code : Byte} {count : Nat} {bytes : List Byte} {pec : Option Byte} (h : Kept false s₀ s) :
    Keeps s₀ (execTw1BlockWrite code count bytes pec s) := by
  refine .next ?_
  split
  · exact h.twOut
  · refine .ite h.twNack ?_
    split
    · exact .ite h.twOut.updCnt (.ite h.twOut.updCnt h.twOut.twCommand)
    · exact h.twOut

theorem Kept.execTw1BlockRead {code : Byte} {complete : Bool} (h : Kept false s₀ s) :
    Keeps s₀ (execTw1BlockRead code complete s) := by
  unfold Machine.execTw1BlockRead
  refine .next ?_
  extract_lets
  split
  · exact h.twOut
  · exact .ite h.twNack (.ite h.twOut (.ite h.twOut.twTake h.twOut))

theorem Kept.execTw1ReadWord {code : Byte} (h : Kept false s₀ s) : Keeps s₀ (execTw1ReadWord code s) := by
  unfold Machine.execTw1ReadWord
  refine .next ?_
  extract_lets
  split
  · exact h.twOut
  · exact .ite h.twNack (.ite h.twOut h.twOut)

theorem Kept.execIllegalStart {b : Bus} (h : Kept false s₀ s) : Keeps s₀ (execIllegalStart b s) := .next (.ite h.updCnt h)

theorem Kept.execTwBusError {b : Bus} (h : Kept false s₀ s) : Keeps s₀ (execTwBusError b s) := .next (.ite h.updCnt.notifyLoss h)

theorem Kept.execTwTimeout {b : Bus} {asController : Bool} (h : Kept false s₀ s) : Keeps s₀ (execTwTimeout b asController s) :=
  .next (.ite h (.ite h.updCnt.updCnt.notifyLoss h.updCnt))

theorem Kept.execAttach {p : Fin 2} {a : AttachIn} (h : Kept false s₀ s) : Keeps s₀ (execAttach p a s) := by
  unfold Machine.execAttach
  refine .next ?_
  extract_lets _ s1 s2 s3
  have hs1 : Kept false s₀ s1 := h.updPd
  have hs2 : Kept false s₀ s2 := hs1.updAux.auxStart
  have hs3 : Kept false s₀ s3 := .ite hs2.pdSend hs2
  exact .ite hs3.pdEnter.pdAdvertise h

theorem Kept.execRdAbsent {p : Fin 2} (h : Kept false s₀ s) : Keeps s₀ (execRdAbsent p s) :=
  .next (.ite h.updPd.updAux h)

theorem Kept.execDetach {p : Fin 2} {vSafeUs : Nat} (h : Kept false s₀ s) : Keeps s₀ (execDetach p vSafeUs s) :=
  .next (.ite h.pdDetached.pdEnter h)

theorem Kept.execRequest {p : Fin 2} {r : PdRequest} (h : Kept false s₀ s) : Keeps s₀ (execRequest p r s) := by
  unfold Machine.execRequest
  refine .next ?_
  refine .ite ?_ h
  split
  · exact h.updPd.pdSend
  · extract_lets
    exact .ite h.pdWait h.pdAccept

theorem Kept.execSrcTransition {p : Fin 2} (h : Kept false s₀ s) : Keeps s₀ (execSrcTransition p s) :=
  .next (.ite (.ite h.updPd.updAux h.updPd.updAux.auxAim) h)

theorem Kept.execNoPdReply {p : Fin 2} (h : Kept false s₀ s) : Keeps s₀ (execNoPdReply p s) :=
  .next (.ite h.pdEnter h)

theorem Kept.execContractHardReset {p : Fin 2} (h : Kept false s₀ s) : Keeps s₀ (execContractHardReset p s) :=
  .next (.ite h.pdHardReset h)

theorem Kept.execMoistureTest {p : Fin 2} {imp : Vector Nat 4} (h : Kept false s₀ s) : Keeps s₀ (execMoistureTest p imp s) :=
  .next (.ite h.pdTest h)

theorem Kept.execVconnLimit {p : Fin 2} (h : Kept false s₀ s) : Keeps s₀ (execVconnLimit p s) := .next (.ite h.updPd h)

theorem Kept.execUpdVerifyDone {readError : Bool} (h : Kept false s₀ s) : Keeps s₀ (execUpdVerifyDone readError s) := by
  unfold Machine.execUpdVerifyDone
  refine .next ?_
  extract_lets s1
  have hs1 : Kept false s₀ s1 := h.updUpd (by rfl)
  split
  · exact h
  · extract_lets
    exact .ite hs1.slotTo.cmdDone hs1.slotTo.cmdDone

theorem Kept.execTrialConfirm (h : Kept false s₀ s) : Keeps s₀ (execTrialConfirm s) := by
  unfold Machine.execTrialConfirm
  refine .next ?_
  extract_lets _ s1 s2 s3
  have hs1 : Kept false s₀ s1 := .ite h.slotTo h
  have hs2 : Kept false s₀ s2 := hs1.slotTo
  have hs3 : Kept false s₀ s3 := .ite (hs2.updUpd (by rfl)) hs2.confirmWrites
  exact .ite hs3.updEvent h

theorem Kept.execRdReturn {p : Fin 2} (h : Kept false s₀ s) : Keeps s₀ (execRdReturn p s) :=
  .next (.ite h.updPd.auxAim h)

theorem Kept.execPdReceivedMessage {p : Fin 2} {m : PdMsg} (h : Kept false s₀ s) : Keeps s₀ (execPdReceivedMessage p m s) := by
  unfold Machine.execPdReceivedMessage
  refine .next ?_
  refine .ite ?_ h
  split
  · exact h.pdHardReset
  · exact h.pdAdvertise
  · exact h.pdSend
  · exact h.pdSend
  · exact h.pdSend
  · exact .ite h.updPd h
  · exact h.pdSend

theorem Kept.execVconnInputLow (h : Kept false s₀ s) : Keeps s₀ (execVconnInputLow s) := .next h.other

theorem Kept.execMkaFrame {link : Link} {newSak : Bool} (h : Kept false s₀ s) : Keeps s₀ (execMkaFrame link newSak s) :=
  .next (.ite h (.ite h.updNet h.updNet))

theorem Kept.execTransmitOpportunity (h : Kept false s₀ s) : Keeps s₀ (execTransmitOpportunity s) := .next (.ite h.handOver h)

theorem Kept.execFlashWriteDone (h : Kept false s₀ s) : Keeps s₀ (execFlashWriteDone s) := .next (h.updUpd (by rfl))

theorem Kept.execFirnWriteDone {verifyOk : Bool} (h : Kept false s₀ s) : Keeps s₀ (execFirnWriteDone verifyOk s) :=
  .next (.ite h h.updMem.iceRecord.iceRecord)

theorem Kept.execNeighbourAdvertisement {link : Link} {ip : BitVec 128} {mac : BitVec 48}
    (h : Kept false s₀ s) : Keeps s₀ (execNeighbourAdvertisement link ip mac s) := .next (.ite h.updNet h)

end

/-- The commands that can change what Kept speaks of: supply, resets, clocks, start, Frames, wake sources, Dormant entry, Keyring and a
loss of the CE or of the Supervisor's SRAM. Every other command only runs operations that keep it. -/
def movesSupply : Instr → Bool
  | .powerUp | .keepAlivePor | .logicPor | .logicPorRelease | .resetN | .resetNRelease | .lockstepMismatch | .pllLockLoss
  | .commandedReset | .crystalFault | .pllRelock | .pllLock | .ceRelease _ | .frameTick _ | .frameOverrun _ | .ceRestart
  | .periodBoundary _ | .hkRound _ | .comparatorTrip _ | .wake _ | .tw0BlockRead _ |
    .tw0QuickCommand | .keyringWakeInterval | .dormantEntryStep
  | .keyringSeal _ | .keyringEnable | .expire | .eccDouble _ _ _ => true
  | _ => false

theorem exec_keeps (c : Instr) (s : State) (hc : movesSupply c = false) : Keeps s (exec c s) := by
  have h : Kept false s s := .refl s
  cases c with
  | rcOscillatorFault => exact h.execRcOscillatorFault
  | crystalStartTimeout => exact h.execCrystalStartTimeout
  | pumpRegulated _ _ => exact h.execPumpRegulated
  | pumpStartTimeout _ => exact h.execPumpStartTimeout
  | pumpFail _ => exact h.execPumpFail
  | converterRegulation => exact h.execConverterRegulation
  | startFail => exact h.execStartFail
  | classAServiceSlot => exact h.execClassAServiceSlot
  | classAAcceptTimeout _ => exact h.execClassAAcceptTimeout
  | tumblerRamp _ => exact h.execTumblerRamp
  | rampTimeout _ => exact h.execRampTimeout
  | gateFail _ => exact h.execGateFail
  | fetShortTest _ => exact h.execFetShortTest
  | fetShort _ => exact h.execFetShort
  | retryDue _ => exact h.execRetryDue
  | tstableExpiry _ => exact h.execTstableExpiry
  | dischargeTimeout _ => exact h.execDischargeTimeout
  | arcBlock a => exact h.execArcBlock (a := a)
  | probeEnd n a => exact h.execProbeEnd (x := a)
  | injectedConversion _ _ _ _ => exact h.execInjectedConversion
  | captureDone _ => exact h.execCaptureDone
  | shedholdExpiry => exact h.execShedholdExpiry
  | interleaveRotation => exact h.execInterleaveRotation
  | autoRestart => exact h.execAutoRestart
  | countedRestart _ => exact h.execCountedRestart
  | profileTimeout _ => exact h.execProfileTimeout
  | injectionStart => exact h.execInjectionStart
  | sweepPointEnd => exact h.execSweepPointEnd
  | holdupReturn => exact h.execHoldupReturn
  | returnTimeout => exact h.execReturnTimeout
  | spentStartTimeout => exact h.execSpentStartTimeout
  | huTestEnd => exact h.execHuTestEnd
  | powerFailWarning => exact h.execPowerFailWarning
  | powerFailClear => exact h.execPowerFailClear
  | sramScrub => exact h.execSramScrub
  | firnScrub => exact h.execFirnScrub
  | eccSingle _ => exact h.execEccSingle
  | parity _ => exact h.execParity
  | busError _ => exact h.execBusError
  | keyringKeyWrite _ _ => exact h.execKeyringKeyWrite
  | keyringRegister _ _ => exact h.execKeyringRegister
  | krgClock => exact h.execKrgClock
  | tumblerTighten _ _ _ _ => exact h.execTumblerTighten
  | offPermitLapse _ => exact h.execOffPermitLapse
  | iceFlushDone => exact h.execIceFlushDone
  | iceClearDone => exact h.execIceClearDone
  | fenceComplete _ => exact h.execFenceComplete
  | spiFrame _ _ => exact h.execSpiFrame
  | qmSqdb _ _ => exact h.execQmSqdb
  | qmCqdb _ _ => exact h.execQmCqdb
  | qmQctlEn _ _ _ => exact h.execQmQctlEn
  | qmQctlRestart _ => exact h.execQmQctlRestart
  | qmWinbase _ => exact h.execQmWinbase
  | vioCtlClear => exact h.execVioCtlClear
  | hptFaultClear _ => exact h.execHptFaultClear
  | registerWrite _ _ => exact h.execRegisterWrite
  | commandMessage _ => exact h.execCommandMessage
  | echoReq _ => exact h.execEchoReq
  | neighbourSolicitation _ _ _ mac => exact h.execNeighbourSolicitation (_mac := mac)
  | linkState _ _ => exact h.execLinkState
  | permit _ => exact h.execPermit
  | revoke _ => exact h.execRevoke
  | failover _ => exact h.execFailover
  | hingeGnt _ => exact h.execHingeGnt
  | partnerPulse _ => exact h.execPartnerPulse
  | heartbeat _ => exact h.execHeartbeat
  | hingeLinkLost => exact h.execHingeLinkLost
  | partnerAbsent => exact h.execPartnerAbsent
  | handingRegain => exact h.execHandingRegain
  | coldStartTake => exact h.execColdStartTake
  | offer _ => exact h.execOffer
  | ack _ => exact h.execAck
  | nak _ => exact h.execNak
  | resyncEnd _ => exact h.execResyncEnd
  | converterHandoverEnd => exact h.execConverterHandoverEnd
  | hostNotify _ => exact h.execHostNotify
  | hostNotifyRetry _ => exact h.execHostNotifyRetry
  | tw1BlockWrite _ _ _ _ => exact h.execTw1BlockWrite
  | tw1BlockRead _ _ => exact h.execTw1BlockRead
  | tw1ReadWord _ => exact h.execTw1ReadWord
  | illegalStart _ => exact h.execIllegalStart
  | twBusError _ => exact h.execTwBusError
  | twTimeout _ _ => exact h.execTwTimeout
  | attach _ _ => exact h.execAttach
  | rdAbsent _ => exact h.execRdAbsent
  | detach _ _ => exact h.execDetach
  | request _ _ => exact h.execRequest
  | srcTransition _ => exact h.execSrcTransition
  | noPdReply _ => exact h.execNoPdReply
  | contractHardReset _ => exact h.execContractHardReset
  | moistureTest _ _ => exact h.execMoistureTest
  | vconnLimit _ => exact h.execVconnLimit
  | updVerifyDone _ => exact h.execUpdVerifyDone
  | trialConfirm => exact h.execTrialConfirm
  | chOn _ _ => exact .next <| h.rowCmd (fun _ _ hu => hu.cmdChOn)
  | chOff _ _ => exact .next <| h.rowCmd (fun _ _ hu => hu.cmdChOff)
  | chCfg _ _ => exact .next <| h.rowCmd (fun _ _ hu => hu.cmdChCfg)
  | chRead _ _ => exact .next <| h.rowCmd (fun _ _ hu => hu.cmdChRead)
  | chClear _ _ => exact .next <| h.rowCmd (fun _ _ hu => hu.cmdChClear)
  | cvSet _ _ => exact .next <| h.rowCmd (fun _ _ hu => hu.cmdCvSet)
  | cvCfg _ _ => exact .next <| h.rowCmd (fun _ _ hu => hu.cmdCvCfg)
  | auxCfg _ _ => exact .next <| h.rowCmd (fun _ _ hu => hu.cmdAuxCfg)
  | lawCfg _ _ => exact .next <| h.rowCmd (fun _ _ hu => hu.cmdLawCfg)
  | cvRead _ _ => exact .next <| h.rowCmd (fun _ _ hu => hu.cmdCvRead)
  | capSet _ _ => exact .next <| h.rowCmd (fun _ _ hu => hu.cmdCapSet)
  | huCfg _ _ => exact .next <| h.rowCmd (fun _ _ hu => hu.cmdHuCfg)
  | shedOrder _ _ => exact .next <| h.rowCmd (fun _ _ hu => hu.cmdShedOrder)
  | zoneRead _ _ => exact .next <| h.rowCmd (fun _ _ hu => hu.cmdZoneRead)
  | huTest _ _ => exact .next <| h.rowCmd (fun _ _ hu => hu.cmdHuTest)
  | stagCfg _ _ => exact .next <| h.rowCmd (fun _ _ hu => hu.cmdStagCfg)
  | batCfg _ _ => exact .next <| h.rowCmd (fun _ _ hu => hu.cmdBatCfg)
  | batRead _ _ => exact .next <| h.rowCmd (fun _ _ hu => hu.cmdBatRead)
  | snsMask _ _ => exact .next <| h.rowCmd (fun _ _ hu => hu.cmdSnsMask)
  | snsGain _ _ => exact .next <| h.rowCmd (fun _ _ hu => hu.cmdSnsGain)
  | snsFilter _ _ => exact .next <| h.rowCmd (fun _ _ hu => hu.cmdSnsFilter)
  | snsInj _ _ => exact .next <| h.rowCmd (fun _ _ hu => hu.cmdSnsInj)
  | snsZone _ _ => exact .next <| h.rowCmd (fun _ _ hu => hu.cmdSnsZone)
  | snsRead _ _ => exact .next <| h.rowCmd (fun _ _ hu => hu.cmdSnsRead)
  | capCfg _ _ => exact .next <| h.rowCmd (fun _ _ hu => hu.cmdCapCfg)
  | capArm _ _ => exact .next <| h.rowCmd (fun _ _ hu => hu.cmdCapArm)
  | capTrig _ _ => exact .next <| h.rowCmd (fun _ _ hu => hu.cmdCapTrig)
  | capRelease _ _ => exact .next <| h.rowCmd (fun _ _ hu => hu.cmdCapRelease)
  | capRead _ _ => exact .next <| h.rowCmd (fun _ _ hu => hu.cmdCapRead)
  | capNetStart _ _ => exact .next <| h.rowCmd (fun _ _ hu => hu.cmdCapNet)
  | capNetStop _ _ => exact .next <| h.rowCmd (fun _ _ hu => hu.cmdCapNet)
  | iceRead _ _ => exact .next <| h.rowCmd (fun _ _ hu => hu.cmdIceRead)
  | iceFlush _ _ => exact .next <| h.rowCmd (fun _ _ hu => hu.cmdIceFlush)
  | iceClear _ _ => exact .next <| h.rowCmd (fun _ _ hu => hu.cmdIceClear)
  | fence _ _ => exact .next <| h.rowCmd (fun _ _ hu => hu.cmdFence)
  | reset _ _ => exact .next <| h.rowCmd (fun _ _ hu => hu.cmdReset)
  | dormant _ _ => exact .next <| h.rowCmd (fun _ _ hu => hu.cmdDormant)
  | wakeCfg _ _ => exact .next <| h.rowCmd (fun _ _ hu => hu.cmdWakeCfg)
  | ownerMap _ _ => exact .next <| h.rowCmd (fun _ _ hu => hu.cmdOwnerMap)
  | ownerRes _ _ => exact .next <| h.rowCmd (fun _ _ hu => hu.cmdOwnerRes)
  | qCfg _ _ => exact .next <| h.rowCmd (fun _ _ hu => hu.cmdQCfg)
  | qCtlDisable _ _ => exact .next <| h.rowCmd (fun _ _ hu => hu.cmdQCtl)
  | qCtlEnable _ _ => exact .next <| h.rowCmd (fun _ _ hu => hu.cmdQCtl)
  | qCtlRestart _ _ => exact .next <| h.rowCmd (fun _ _ hu => hu.cmdQCtl)
  | vioClear _ _ => exact .next <| h.rowCmd (fun _ _ hu => hu.cmdVioClear)
  | idRead _ _ => exact .next <| h.rowCmd (fun _ _ hu => hu.cmdIdRead)
  | hingeCfg _ _ => exact .next <| h.rowCmd (fun _ _ hu => hu.cmdHingeCfg)
  | hingeHandover _ _ => exact .next <| h.rowCmd (fun _ _ hu => hu.cmdHingeCmd)
  | hingeResync _ _ => exact .next <| h.rowCmd (fun _ _ hu => hu.cmdHingeCmd)
  | hingeCounterClear _ _ => exact .next <| h.rowCmd (fun _ _ hu => hu.cmdHingeCmd)
  | hingeRead _ _ => exact .next <| h.rowCmd (fun _ _ hu => hu.cmdHingeRead)
  | pdCfg _ _ => exact .next <| h.rowCmd (fun _ _ hu => hu.cmdPdCfg)
  | pdReadvertise _ _ => exact .next <| h.rowCmd (fun _ _ hu => hu.cmdPdCtl)
  | pdHardReset _ _ => exact .next <| h.rowCmd (fun _ _ hu => hu.cmdPdCtl)
  | pdMoistureTestNow _ _ => exact .next <| h.rowCmd (fun _ _ hu => hu.cmdPdCtl)
  | pdClearFault _ _ => exact .next <| h.rowCmd (fun _ _ hu => hu.cmdPdCtl)
  | pdClearCorrosion _ _ => exact .next <| h.rowCmd (fun _ _ hu => hu.cmdPdCtl)
  | pdRead _ _ => exact .next <| h.rowCmd (fun _ _ hu => hu.cmdPdRead)
  | updBegin _ _ => exact .next <| h.rowCmd (fun _ _ hu => hu.cmdUpdBegin)
  | updData _ _ => exact .next <| h.rowCmd (fun _ _ hu => hu.cmdUpdData)
  | updEnd _ _ => exact .next <| h.rowCmd (fun _ _ hu => hu.cmdUpdEnd)
  | updActivate _ _ => exact .next <| h.rowCmd (fun _ _ hu => hu.cmdUpdActivate)
  | updRead _ _ => exact .next <| h.rowCmd (fun _ _ hu => hu.cmdUpdRead)
  | injStart _ _ => exact .next <| h.rowCmd (fun _ _ hu => hu.cmdInjStart)
  | injStop _ _ => exact .next <| h.rowCmd (fun _ _ hu => hu.cmdInjStop)
  | injRead _ _ => exact .next <| h.rowCmd (fun _ _ hu => hu.cmdInjRead)
  | ceStat _ _ => exact .next <| h.rowCmd (fun _ _ hu => hu.cmdCeStat)
  | rdReturn _ => exact h.execRdReturn
  | pdReceivedMessage _ _ => exact h.execPdReceivedMessage
  | vconnInputLow => exact h.execVconnInputLow
  | mkaFrame _ _ => exact h.execMkaFrame
  | transmitOpportunity => exact h.execTransmitOpportunity
  | flashWriteDone => exact h.execFlashWriteDone
  | firnWriteDone _ => exact h.execFirnWriteDone
  | neighbourAdvertisement _ _ _ => exact h.execNeighbourAdvertisement
  | ambFallback _ => exact h.execAmbFallback
  | powerUp | keepAlivePor | logicPor | logicPorRelease | resetN | resetNRelease | lockstepMismatch | pllLockLoss | commandedReset
  | crystalFault | pllRelock | pllLock | ceRelease _ | frameTick _ | frameOverrun _ | ceRestart | periodBoundary _ | hkRound _
  | comparatorTrip _ | wake _ | tw0BlockRead _ | tw0QuickCommand | keyringWakeInterval | dormantEntryStep | keyringSeal _
  | keyringEnable | expire | eccDouble _ _ _ => cases hc

end Sys2Proof.Machine
end

section
/-! The power invariant (R59, R62, R556, R569, R599): what keeps the supply state keeps it, and each operation that moves the
supply state restores it. -/

namespace Sys2Proof.Stated

open Sys2Proof Sys2Proof.Machine

section
variable {s t : State}

/-! ### What keeps and what restores the invariant -/

theorem PowerInv.kept (hp : PowerInv s) (k : Kept false s t) : PowerInv t := by
  obtain ⟨hmode, hrun, hrec, hsafe, hdown⟩ := hp
  refine ⟨fun hl => ?_, fun hf => ?_, fun hr => ?_, fun hk => ?_, fun hm => ?_⟩
  · exact k.mode.elim (fun e => e ▸ hmode (k.logic ▸ hl)) .inr
  · obtain ⟨hl, hstep⟩ := hrun (k.fr ▸ hf)
    exact ⟨k.logic.trans hl, k.step hstep⟩
  · rw [k.fr]
    exact hrec (k.recovery ▸ hr)
  · rw [k.logic]
    exact hsafe (k.krg ▸ hk)
  · have hm₀ : s.pw.mode = .shutdown := k.mode.elim (fun e => e ▸ hm) fun e => by rw [hm] at e; cases e
    rw [k.recovery, k.krg]
    exact hdown hm₀

/-- Where no Frames run, the invariant is about the mode, the logic die and Keyring alone. -/
theorem PowerInv.of_stopped (hfr : t.fr.running = false) (hmode : t.pw.logic = .running → t.pw.mode = .start ∨ t.pw.mode = .run)
    (hsafe : t.krg.st = .safe → t.pw.logic ≠ .running)
    (hdown : t.pw.mode = .shutdown → t.upd.recovery = false ∧ t.krg.st ≠ .safe) : PowerInv t :=
  ⟨hmode, fun h => absurd (hfr.symm.trans h) (by decide), fun _ => hfr, hsafe, hdown⟩

theorem PowerInv.updFr {f : Machine.Frm → Machine.Frm} (hp : PowerInv s) (e : (f s.fr).running = s.fr.running) :
    PowerInv (s.updFr f) := by
  obtain ⟨hmode, hrun, hrec, hsafe, hdown⟩ := hp
  exact ⟨hmode, fun hf => hrun (e ▸ hf), fun hr => e.trans (hrec hr), hsafe, hdown⟩

/-- The clocks are no part of the invariant. -/
theorem PowerInv.updClk {f : Clk → Clk} (hp : PowerInv s) : PowerInv (s.updClk f) := hp

/-- RECOVERY may end at any time. -/
theorem PowerInv.leaveRecovery {f : Upd → Upd} (hp : PowerInv s) (e : (f s.upd).recovery = false) : PowerInv (s.updUpd f) := by
  obtain ⟨hmode, hrun, -, hsafe, hdown⟩ := hp
  exact ⟨hmode, hrun, fun hr => absurd (e.symm.trans hr) (by decide), hsafe, fun hm => ⟨e, (hdown hm).2⟩⟩

/-- Keyring may leave SAFE at any time. -/
theorem PowerInv.updKrg {f : Krg → Krg} (hp : PowerInv s) (e : (f s.krg).st ≠ .safe) : PowerInv (s.updKrg f) := by
  obtain ⟨hmode, hrun, hrec, -, hdown⟩ := hp
  exact ⟨hmode, hrun, hrec, fun hk => absurd hk e, fun hm => ⟨(hdown hm).1, e⟩⟩

/-- Before Frames run the start may be at any step. -/
theorem PowerInv.updPw_of_stopped {f : Power → Power} (hp : PowerInv s) (hfr : s.fr.running = false)
    (hlogic : (f s.pw).logic = s.pw.logic) (hmode : (f s.pw).mode = s.pw.mode) : PowerInv (s.updPw f) := by
  obtain ⟨hm, -, -, hsafe, hdown⟩ := hp
  refine .of_stopped hfr (fun hl => ?_) (fun hk hl => hsafe hk (hlogic.symm.trans hl)) fun h => hdown (hmode.symm.trans h)
  exact (hm (hlogic.symm.trans hl)).imp hmode.trans hmode.trans

theorem PowerInv.ite {c : Prop} [Decidable c] (hs : c → PowerInv s) (ht : ¬ c → PowerInv t) : PowerInv (if c then s else t) := by
  split
  · exact hs ‹_›
  · exact ht ‹_›

theorem PowerInv.not_running (hp : PowerInv s) (hl : s.pw.logic ≠ .running) : s.fr.running = false := by
  obtain ⟨-, hrun, -, -, -⟩ := hp
  cases hf : s.fr.running with
  | false => rfl
  | true => exact absurd (hrun hf).1 hl

theorem PowerInv.logic_of_mode (hp : PowerInv s) (hs : s.pw.mode ≠ .start) (hr : s.pw.mode ≠ .run) : s.pw.logic ≠ .running :=
  fun hl => (hp.1 hl).elim hs hr

theorem PowerInv.not_safe (hp : PowerInv s) (hl : s.pw.logic = .running) : s.krg.st ≠ .safe := by
  obtain ⟨-, -, -, hsafe, -⟩ := hp
  exact fun hk => hsafe hk hl

theorem PowerInv.recovery_of_live (hp : PowerInv s) (hlive : s.live = true) : s.upd.recovery = false := by
  obtain ⟨-, -, hrec, -, -⟩ := hp
  simp only [State.live, Bool.and_eq_true] at hlive
  cases hr : s.upd.recovery with
  | false => rfl
  | true => exact absurd ((hrec hr).symm.trans hlive.2) (by decide)

end

end Sys2Proof.Stated

namespace Sys2Proof.Machine

open Sys2Proof

section
variable {s t : State} {cause step : Nat} {die : LogicDie}

/-! ### Logic-die resets (R79-R82, Tables 2.9 and 2.10) -/

/-- A logic-die reset with its cause: the start goes on with the given step and logic die; Frames, RECOVERY and everything queued
are gone, and Keyring registers anew. -/
structure Restarted (s t : State) (cause : Nat) (die : LogicDie) (step : Nat) : Prop where
  mode : t.pw.mode = .start
  logic : t.pw.logic = die
  step : t.pw.step = step
  cause : t.pw.cause = cause
  resetNLow : t.pw.resetNLow = s.pw.resetNLow
  running : t.fr.running = false
  recovery : t.upd.recovery = false
  krg : t.krg.st = if s.krg.st = .run then .boot else s.krg.st
  adm : t.adm = []
  outs : t.outs = []
  zone : t.zone.restore = []
  th : t.th.restore = []
  vis : ∀ q : Fin 32, (t.qs[q]).vis = []

@[simp] theorem Upd.loadRec_recovery (u : Upd) : u.loadRec.recovery = u.recovery := by
  unfold Upd.loadRec
  extract_lets x
  split
  · rfl
  · rfl

/-- The slots are tried with what a start keeps. -/
theorem Kept.bootTry {s₀ : State} {l : List Bool} (h : Kept false s₀ s) : Kept false s₀ (s.bootTry l).2 := by
  induction l generalizing s with
  | nil => exact h
  | cons b l ih =>
    unfold State.bootTry
    extract_lets s1 r
    have h1 : Kept false s₀ s1 := .ite h.slotTo h
    rw [apply_ite Prod.snd]
    exact .ite h1 (ih h1.slotTo)

theorem Krg.atReset_st (k : Krg) : k.atReset.st = if k.st = .run then .boot else k.st := by
  unfold Krg.atReset
  cases h : k.st <;> simp [h]

/-- A released Keyring is in BOOT. -/
theorem Krg.atReset_st_boot {k : Krg} (h : k.st = .boot) : k.atReset.st = .boot := by
  rw [Krg.atReset_st, h]
  rfl

theorem State.logicReset_restarted (hmode : s.pw.mode = .start ∨ s.pw.mode = .run) (hlogic : s.pw.logic ≠ .off) :
    Restarted s (s.logicReset cause die step) cause die step := by
  have hacts : ¬ (s.pw.mode == .off || s.pw.mode == .shutdown || s.pw.mode == .dormant || s.pw.logic == .off) = true := by
    rcases hmode with e | e <;> simp [e, hlogic]
  unfold State.logicReset
  rw [if_neg hacts]
  extract_lets pair ref s0 heads s1 s2
  have moved : Kept false s s1 := .ite (Kept.refl s).compPending (Kept.refl s).compPending.other.placeSinks
  refine ⟨rfl, rfl, rfl, rfl, rfl, rfl, rfl, ?_, rfl, rfl, rfl, rfl, fun q => ?_⟩
  · rw [Krg.atReset_st, show s2.krg.st = s.krg.st from moved.krg]
  · show ((s1.boundQs.map Queue.carry)[q]).vis = []
    rw [Fin.getElem_fin, Vector.getElem_map]
    rfl

/-- A reset to step 4 acts only while the logic die runs (Table 2.9). -/
theorem State.resetTo4_restarted (hmode : s.pw.mode = .start ∨ s.pw.mode = .run) (hlogic : s.pw.logic = .running) :
    Restarted s (s.resetTo4 cause) cause .running 3 := by
  unfold State.resetTo4
  rw [if_pos (beq_iff_eq.mpr hlogic)]
  exact State.logicReset_restarted hmode (by simp [hlogic])

/-- With the logic die off, or held in SHUTDOWN, there is nothing to reset. -/
theorem State.logicReset_eq_self (h : ¬ ((s.pw.mode = .start ∨ s.pw.mode = .run) ∧ s.pw.logic ≠ .off)) :
    s.logicReset cause die step = s := by
  unfold State.logicReset
  refine if_pos ?_
  by_contra hacts
  simp only [Bool.or_eq_true, beq_iff_eq, not_or] at hacts
  obtain ⟨⟨⟨hoff, hdown⟩, hdormant⟩, hlogic⟩ := hacts
  refine h ⟨?_, hlogic⟩
  cases hm : s.pw.mode with
  | start => exact .inl rfl
  | run => exact .inr rfl
  | off => exact absurd hm hoff
  | shutdown => exact absurd hm hdown
  | dormant => exact absurd hm hdormant

end

end Sys2Proof.Machine

namespace Sys2Proof.Stated

open Sys2Proof Sys2Proof.Machine

section
variable {s t : State} {cause step : Nat} {die : LogicDie}

/-! ### The operations that move the supply state -/

theorem PowerInv.restarted (h : Restarted s t cause die step) (hsafe : s.krg.st = .safe → die ≠ .running) : PowerInv t := by
  refine .of_stopped h.running (fun _ => .inl h.mode) (fun hk => ?_) (fun hm => ?_)
  · rw [h.krg] at hk
    rw [h.logic]
    refine hsafe ?_
    split at hk
    · cases hk
    · exact hk
  · rw [h.mode] at hm
    cases hm

theorem PowerInv.logicReset (hp : PowerInv s) (hsafe : s.krg.st = .safe → die ≠ .running) :
    PowerInv (s.logicReset cause die step) := by
  by_cases h : (s.pw.mode = .start ∨ s.pw.mode = .run) ∧ s.pw.logic ≠ .off
  · exact .restarted (State.logicReset_restarted h.1 h.2) hsafe
  · rw [State.logicReset_eq_self h]
    exact hp

theorem PowerInv.resetTo4 (hp : PowerInv s) : PowerInv (s.resetTo4 cause) :=
  .ite (fun hl => hp.logicReset fun hk => absurd hk (hp.not_safe (beq_iff_eq.mp hl))) fun _ => hp

theorem powerInv_porReset (s : State) : PowerInv s.porReset :=
  .of_stopped rfl (fun hl => by cases hl) (fun hk => by cases hk) fun hm => by cases hm

/-- The block leaves DORMANT with the logic die off. -/
theorem PowerInv.wakeNow {src : Nat} (hfr : s.fr.running = false) : PowerInv (s.wakeNow src) := by
  unfold State.wakeNow
  refine PowerInv.kept ?_ (Kept.refl _).keepEvent
  exact .of_stopped hfr (fun hl => by cases hl) (fun _ hl => by cases hl) fun hm => by cases hm

theorem PowerInv.wakeFire {src : Nat} (hp : PowerInv s) : PowerInv (s.wakeFire src) := by
  unfold State.wakeFire
  refine .ite (fun hm => ?_) fun _ => hp.kept ?_
  · have hd : s.pw.mode = .dormant := beq_iff_eq.mp hm
    exact .wakeNow (hp.not_running (hp.logic_of_mode (by simp [hd]) (by simp [hd])))
  · exact .ite (.refl s) (.ite (Kept.refl s).dormAbandon ((Kept.refl s).updPw (by exact ⟨rfl, rfl, rfl⟩)))

theorem PowerInv.tw0Away (hp : PowerInv s) : PowerInv s.tw0Away := by
  have hn : PowerInv (s.twNack .tw0) := hp.kept (Kept.refl s).twNack
  exact .ite (fun _ => hn) fun _ => hn.wakeFire

/-- Step 7 of the Dormant entry (Table 2.11). -/
theorem PowerInv.dormOff : PowerInv s.dormOff := by
  unfold State.dormOff
  extract_lets ref s0 held s1 s2
  split
  · exact .wakeNow rfl
  · exact .of_stopped rfl (fun hl => by cases hl) (fun hk => by cases hk) fun hm => by cases hm

/-- A thermal shutdown ends Frames, outside RECOVERY and SAFE, which a live block is in neither of. -/
theorem PowerInv.thShutdown {code src : Nat} {v : Int} (hp : PowerInv s) (hlive : s.live = true) :
    PowerInv (s.thShutdown code src v) := by
  have hl : s.pw.logic = .running := State.running_of_live hlive
  unfold State.thShutdown
  refine .ite (fun _ => hp) fun _ => ?_
  extract_lets release s1 s2 s3 s4 pl s5 _ s6
  have h5 : Kept false s s5 := (Kept.refl s).updTh.setFault.cvFault.iceRecord.iceRecord.postOnly.iceFlushed.allOff
  have h6 : Kept false s s6 := .ite h5.other h5.updZone
  refine .of_stopped rfl (fun hr => by cases hr) (fun _ => by simp) fun _ => ⟨?_, ?_⟩
  · exact h6.recovery.trans (hp.recovery_of_live hlive)
  · rw [show s6.krg.st = s.krg.st from h6.krg]
    exact hp.not_safe hl

theorem PowerInv.thPeriod (hp : PowerInv s) (hlive : s.live = true) : PowerInv s.thPeriod := by
  unfold State.thPeriod
  extract_lets s1
  have h1 : Kept false s s1 := (Kept.refl s).other.thSense.thNtc
  have hp1 : PowerInv s1 := hp.kept h1
  have hlive1 : s1.live = true := by
    unfold State.live
    rw [h1.logic, h1.fr]
    exact hlive
  split
  · exact hp1.thShutdown hlive1
  · refine .ite (fun _ => hp1.thShutdown hlive1) fun _ => hp.kept h1.thLevel.thRestore

theorem PowerInv.period {p : PeriodIn} (hp : PowerInv s) (hlive : s.live = true) : PowerInv (s.period p) := by
  unfold State.period
  extract_lets s1 s2 s3
  have h0 : Kept false s (s.hingeTest.applyDue .period).periodDone := (Kept.refl s).hingeTest.applyDue.periodDone
  have hlive0 : ((s.hingeTest.applyDue .period).periodDone).live = true := by
    unfold State.live
    rw [h0.logic, h0.fr]
    exact hlive
  have hp1 : PowerInv s1 := (hp.kept h0).thPeriod hlive0
  have h3 : Kept false s1 s3 :=
    (Kept.refl s1).meterPeriod.energyPeriod.creepPeriod.slicePeriod.overL fun _ _ hu => hu.supplyCheck
  exact .ite (fun _ => hp1) fun _ => hp1.kept h3.snapPeriod.snapRecord.figures.hingePeriod.commands

/-- The release of the CE starts Frames, which the step and the absence of RECOVERY allow. -/
theorem PowerInv.startBase {off : Nat} (hp : PowerInv s) (hl : s.pw.logic = .running) (hr : s.upd.recovery = false) :
    PowerInv (s.startBase off) := by
  unfold State.startBase
  extract_lets masks s1 s2 _ _ _ _ _ s3 s4
  have h2 : Kept false s s2 := (Kept.refl s).settingsStart.burnAtStart.tmbLock
  have hp2 : PowerInv s2 := hp.kept h2
  have hp3 : PowerInv s3 := by
    obtain ⟨hmode, -, -, hsafe, hdown⟩ := hp2
    exact ⟨hmode, fun _ => ⟨h2.logic.trans hl, Nat.le_refl 7⟩,
      fun hrec => absurd (h2.recovery.symm.trans hrec) (by simp [hr]), hsafe, hdown⟩
  have h4 : Kept false s3 s4 := .ite (Kept.refl s3).cvConfigure (.refl s3)
  exact hp3.kept h4.grpStart

/-- RECOVERY begins before Frames run (R598). -/
theorem PowerInv.enterRecovery (hp : PowerInv s) (hfr : s.fr.running = false) (hmode : s.pw.mode ≠ .shutdown) :
    PowerInv s.enterRecovery := by
  obtain ⟨hm, -, -, hsafe, -⟩ := hp
  unfold State.enterRecovery
  extract_lets old open' s1 evs s2
  have hp2 : PowerInv s2 := .of_stopped hfr hm hsafe fun h => absurd h hmode
  exact hp2.kept ((Kept.refl s2).overL fun _ _ hu => hu.postRec)

/-- The CE's halt, or at its second occurrence a reset (R47). -/
theorem PowerInv.ceHalt (hp : PowerInv s) : PowerInv s.ceHalt := by
  have halted : PowerInv (State.ceHalt.halt s) := (hp.updFr rfl).kept (Kept.refl _).cvFault
  unfold State.ceHalt
  split
  · exact .ite (fun _ => hp.resetTo4) fun _ => halted
  · exact halted

theorem PowerInv.overrunCount (hp : PowerInv s) : PowerInv s.overrunCount := by
  unfold State.overrunCount
  refine .ite (fun _ => hp) fun _ => ?_
  extract_lets s1
  have hp1 : PowerInv s1 := hp.updFr rfl
  exact .ite (fun _ => ((hp1.updFr rfl).kept (Kept.refl _).setFault).ceHalt) fun _ => hp1

/-- The fourth Keyring fault makes SAFE, which holds the logic die; the others restart it (R556). -/
theorem PowerInv.krgFault {kind c : Nat} {miss bad : BitVec 16} (hp : PowerInv s) (hl : s.pw.logic = .running) :
    PowerInv (s.krgFault kind c miss bad) := by
  unfold State.krgFault
  extract_lets k clean n payload s1 s2
  have h2 : Kept false s s2 := ((Kept.refl s).updKrg (by rfl)).setFault.keepKrgFault
  refine .ite (fun _ => ?_) fun _ => (hp.kept h2).resetTo4
  have h3 : Kept false s (s2.keepEvent 0x0F13 rDevice (le 1 n)) := h2.keepEvent
  have hr := State.logicReset_restarted (cause := 3) (die := .inReset) (step := 3) ((hp.kept h3).1 (h3.logic.trans hl))
    (by rw [h3.logic, hl]; decide)
  refine .of_stopped hr.running (fun _ => .inl hr.mode) (fun _ hrun => ?_) fun hm => ?_
  · exact absurd (hr.logic.symm.trans hrun) (by decide)
  · exact absurd (hr.mode.symm.trans hm) (by decide)

theorem PowerInv.krgGood {c : Nat} (hp : PowerInv s) : PowerInv (s.krgGood c) := by
  unfold State.krgGood
  extract_lets k run s1 good s2
  have hp1 : PowerInv s1 := hp.kept ((Kept.refl s).when fun _ hu => hu.iceRecord)
  have hp2 : PowerInv s2 := hp1.updKrg fun hk => by cases hk
  exact .ite (fun _ => hp2.kept (Kept.refl s2).other) fun _ => hp2

end

end Sys2Proof.Stated

namespace Sys2Proof.Machine

open Sys2Proof

/-! ### The Frame -/

theorem Frm.advance_running (f : Machine.Frm) (r c : Bool) : (f.advance r c).running = f.running := rfl

theorem Frm.cycles_running (f : Machine.Frm) (a b : Nat) : (f.cycles a b).running = f.running := rfl

/-- What takes effect at the tick comes after the advance of the Frame count. -/
theorem State.atTick_kept (s : State) (carry : Bool) :
    Kept false (s.updFr fun f => f.advance s.clk.relocking carry) (s.atTick carry) := by
  unfold State.atTick
  extract_lets s1 s2 s3 s3' s4 s5 s6 s7
  have h1 : Kept false (s.updFr fun f => f.advance s.clk.relocking carry) s1 := (Kept.refl _).wholePeriods.hardHolds.groupSteps
  have h3 : Kept false (s.updFr fun f => f.advance s.clk.relocking carry) s3 :=
    (h1.updClk (by rfl)).refill.hingeTick.coldOutputs.applyGates.applyCodes.iceTick
  have h3' : Kept false (s.updFr fun f => f.advance s.clk.relocking carry) s3' := .ite h3.applyDue h3
  have h4 : Kept false (s.updFr fun f => f.advance s.clk.relocking carry) s4 :=
    h3'.applyDue.capBudget.cvStarts.zoneTick.cvTick.auxTick.zoneStart.injTick.probeWords
  have h5 : Kept false (s.updFr fun f => f.advance s.clk.relocking carry) s5 := (h4.overL fun _ _ hu => hu.injTimer).fireCount
  have h6 : Kept false (s.updFr fun f => f.advance s.clk.relocking carry) s6 := .ite h5 h5.other
  exact h6.tickDone.pdTick.startsDue.krgTick.other

end Sys2Proof.Machine

namespace Sys2Proof.Stated

open Sys2Proof Sys2Proof.Machine

section
variable {s t : State}

theorem PowerInv.frame {i : FrameIn} (hp : PowerInv s) : PowerInv (s.frame i) := by
  unfold State.frame
  extract_lets s0 s1 s2 s3
  have h0 : Kept false s (s0.lastS5 i.s5Carry) := (Kept.refl s).fireRecord.senseFrame.switchFrame.arcFeed.lastS5
  have ticked : Kept false ((s0.lastS5 i.s5Carry).updFr fun f => f.advance (s0.lastS5 i.s5Carry).clk.relocking i.s5Carry) s1 :=
    (State.atTick_kept _ _).s0.s1
  have hp1 : PowerInv s1 := ((hp.kept h0).updFr (Frm.advance_running ..)).kept ticked
  have hp2 : PowerInv s2 := (hp1.kept (Kept.refl s1).ceSlots).updFr (Frm.cycles_running ..)
  have sent : Kept false s2 (when s3.drives State.placeSinks s3).netTick :=
    ((Kept.refl s2).sendCodes.when fun _ hu => hu.placeSinks).netTick
  exact hp2.kept sent.other

/-! ### The commands -/

/-- A command completes in a state of the invariant. -/
def PowerSafe (o : Host.Outcome State Fault Refusal) : Prop := ∃ t, o = .next t ∧ PowerInv t

theorem PowerSafe.next (hp : PowerInv t) : PowerSafe (.next t) := ⟨t, rfl, hp⟩

theorem PowerInv.execPowerUp (hp : PowerInv s) : PowerSafe (execPowerUp s) := by
  refine .next (.ite (fun hoff => ?_) fun _ => hp)
  simp only [Bool.and_eq_true, beq_iff_eq] at hoff
  obtain ⟨hoff, -⟩ := hoff
  have hfr := hp.not_running (hp.logic_of_mode (by simp [hoff]) (by simp [hoff]))
  exact .of_stopped hfr (fun hl => by cases hl) (fun _ hl => by cases hl) fun hm => by cases hm

/-- The release leaves the logic die in reset where Keyring is in SAFE. -/
theorem PowerInv.execLogicPorRelease (hp : PowerInv s) : PowerSafe (execLogicPorRelease s) := by
  refine .next (.ite (fun hstart => ?_) fun _ => hp)
  simp only [Bool.and_eq_true, beq_iff_eq] at hstart
  obtain ⟨⟨hmode, hoff⟩, -⟩ := hstart
  extract_lets held
  refine .of_stopped (hp.not_running (by simp [hoff])) (fun _ => .inl hmode) (fun hk hl => ?_)
    fun hm => absurd (hmode.symm.trans hm) (by decide)
  have hl' : (if held then LogicDie.inReset else .running) = .running := hl
  have hsafe : s.krg.st ≠ .safe := fun e => by simp [held, e] at hl'
  have hk' : (if s.krg.st == .dormant then ({ s.krg with st := .boot } : Krg).atReset else s.krg).st = .safe := hk
  split at hk'
  · exact absurd ((Krg.atReset_st_boot rfl).symm.trans hk') (by decide)
  · exact hsafe hk'

/-- The pin releases SAFE, and resets in any other state. -/
theorem PowerInv.execResetN (hp : PowerInv s) : PowerSafe (execResetN s) := by
  unfold Machine.execResetN
  extract_lets s1
  have hp1 : PowerInv s1 := hp.kept ((Kept.refl s).updPw (by exact ⟨rfl, rfl, rfl⟩))
  refine .next (.ite (fun _ => hp1.updKrg ?_) fun _ => hp1.logicReset fun _ => by decide)
  rw [Krg.atReset_st_boot rfl]
  decide

theorem PowerInv.execResetNRelease (hp : PowerInv s) : PowerSafe (execResetNRelease s) := by
  unfold Machine.execResetNRelease
  extract_lets starts
  refine .next ?_
  cases hstarts : starts with
  | false => exact hp
  | true =>
    simp only [starts, Bool.and_eq_true, beq_iff_eq, bne_iff_ne] at hstarts
    obtain ⟨⟨hmode, hreset⟩, hsafe⟩ := hstarts
    refine .of_stopped (hp.not_running (by simp [hreset])) (fun _ => .inl hmode) (fun hk => absurd hk hsafe) fun hm => ?_
    exact absurd (hmode.symm.trans hm) (by decide)

/-- A crystal fault changes the freeze alone of what Frames hold. -/
theorem PowerInv.execCrystalFault (hp : PowerInv s) : PowerSafe (execCrystalFault s) := by
  unfold Machine.execCrystalFault
  refine .next (.ite (fun _ => hp) fun _ => .ite (fun _ => ?_) fun _ => ?_)
  · exact hp.updClk.kept (Kept.refl _).setFault.keepEvent.keepEvent
  · extract_lets s0 s1 s2
    have hp1 : PowerInv s1 := (hp.kept (Kept.refl s).other.gensToRc).updClk.updFr (f := fun f => { f with freeze := true }) rfl
    exact hp1.kept (Kept.refl s1).setFault.iceRecord.iceRecord.linkTo.linkTo

/-- At step 4 no Frames run, so that RECOVERY may begin. -/
theorem PowerInv.execPllLock (hp : PowerInv s) : PowerSafe (execPllLock s) := by
  unfold Machine.execPllLock
  refine .next (.ite (fun hstart => ?_) fun _ => hp)
  simp only [Bool.and_eq_true, beq_iff_eq] at hstart
  obtain ⟨⟨hmode, -⟩, hstep⟩ := hstart
  have hfr : s.fr.running = false := by
    obtain ⟨-, hrun, -, -, -⟩ := hp
    cases hf : s.fr.running with
    | false => rfl
    | true => exact absurd (hrun hf).2 (by omega)
  extract_lets s0 s1
  have h0 : Kept false s s0 := (Kept.refl s).updKrg (by rfl)
  have tried : Kept false s (s1.bootTry s1.upd.tryOrder).2 := (h0.updUpd (Upd.loadRec_recovery _)).slotsAtBoot.bootTry
  split
  case h_1 s2 e =>
    have hs2 : Kept false s s2 := by rwa [e] at tried
    have hm2 : s2.pw.mode ≠ .shutdown := fun hm => by rcases hs2.mode with m | m <;> simp [m, hmode] at hm
    exact (hp.kept hs2).enterRecovery (hs2.fr ▸ hfr) hm2
  case h_2 b s2 e =>
    have hs2 : Kept false s s2 := by rwa [e] at tried
    extract_lets img s3 _ s4
    have hs3 : Kept false (s2.updUpd fun u => { u with booted := b, recovery := false, trialPeriods := 0 }) s3 :=
      (Kept.refl _).provision
    have hs4 : PowerInv s4 := ((hp.kept hs2).leaveRecovery rfl).kept hs3.other
    have hfr4 : s4.fr = s.fr := hs3.fr.trans hs2.fr
    exact hs4.updPw_of_stopped (hfr4 ▸ hfr) rfl rfl

/-- At step 5, outside RECOVERY, Frames start. -/
theorem PowerInv.execCeRelease {off : Nat} (hp : PowerInv s) : PowerSafe (execCeRelease off s) := by
  refine .next (.ite (fun hstart => ?_) fun _ => hp)
  simp only [Bool.and_eq_true, beq_iff_eq, Bool.not_eq_true'] at hstart
  obtain ⟨⟨⟨⟨-, hrun⟩, -⟩, hrec⟩, -⟩ := hstart
  exact (hp.startBase hrun hrec).kept (Kept.refl _).startRecords

theorem PowerInv.execFrameTick {i : FrameIn} (hp : PowerInv s) : PowerSafe (execFrameTick i s) :=
  .next (.ite (fun _ => hp.frame) fun _ => hp)

theorem PowerInv.execFrameOverrun {slot : Fin 4} (hp : PowerInv s) : PowerSafe (execFrameOverrun slot s) := by
  unfold Machine.execFrameOverrun
  refine .next (.ite (fun _ => ?_) fun _ => hp)
  extract_lets s1 s2
  have hs1 : PowerInv s1 := hp.kept (Kept.refl s).iceRecord
  have hs2 : PowerInv s2 := (hs1.updFr rfl).kept (Kept.refl _).updHinge
  exact hs2.overrunCount

theorem PowerInv.execCeRestart (hp : PowerInv s) : PowerSafe (execCeRestart s) := by
  unfold Machine.execCeRestart
  refine .next (.ite (fun _ => ?_) fun _ => hp)
  extract_lets s1 s2
  have hs1 : PowerInv s1 := hp.updFr rfl
  have hs2 : Kept false s1 s2 := .ite (Kept.refl s1).injEnd (Kept.refl s1).initLaw
  exact hs1.kept (hs2.overL fun _ _ hu => hu.auxReinit)

theorem PowerInv.execPeriodBoundary {p : PeriodIn} (hp : PowerInv s) : PowerSafe (execPeriodBoundary p s) := by
  refine .next (.ite (fun hdue => ?_) fun _ => hp)
  simp only [Bool.and_eq_true] at hdue
  exact hp.period hdue.1

theorem PowerInv.execHkRound {i : HkIn} (hp : PowerInv s) : PowerSafe (execHkRound i s) := by
  unfold Machine.execHkRound
  extract_lets s1 s2
  have hs2 : Kept false s s2 := .ite (Kept.refl s).other.iceRecord (Kept.refl s).other
  refine .next (.ite (fun hlive => ?_) fun _ => hp)
  have hlive2 : s2.live = true := by
    unfold State.live
    rw [hs2.logic, hs2.fr]
    exact hlive
  split
  · exact (hp.kept hs2).thShutdown hlive2
  · exact hp.kept hs2

theorem PowerInv.execComparatorTrip {x : CmpSeen} (hp : PowerInv s) : PowerSafe (execComparatorTrip x s) := by
  unfold Machine.execComparatorTrip
  extract_lets n
  have latched : PowerInv (s.compLatch n) := hp.kept (Kept.refl s).compLatch
  have tripped : PowerInv (s.compHeld n).placeSinks := hp.kept (Kept.refl s).compHeld.placeSinks
  refine .next (.ite (fun _ => hp) fun _ => .ite (fun _ => .ite (fun _ => ?_) fun _ => ?_) fun _ => .ite (fun _ => hp) fun _ => ?_)
  · exact .ite (fun _ => latched.wakeFire) fun _ => latched
  · exact hp.kept (Kept.refl s).noteDecisions
  · exact .ite (fun _ => tripped.wakeFire) fun _ => tripped

theorem PowerInv.execWake {src : WakeSrc} (hp : PowerInv s) : PowerSafe (execWake src s) := by
  refine .next ?_
  cases src with
  | wakeIn => exact .ite (fun _ => hp) fun _ => hp.wakeFire
  | t1s => exact .ite (fun _ => hp) fun _ => hp.wakeFire
  | tw0 => exact .ite (fun _ => hp) fun _ => hp.tw0Away

theorem PowerInv.execTw0BlockRead {code : Byte} (hp : PowerInv s) : PowerSafe (execTw0BlockRead code s) := by
  refine .next ?_
  split
  · exact hp.kept (Kept.refl s).twOut
  · exact .ite (fun _ => hp.tw0Away) fun _ => hp.kept (Kept.refl s).twOut

theorem PowerInv.execTw0QuickCommand (hp : PowerInv s) : PowerSafe (execTw0QuickCommand s) := by
  refine .next ?_
  split
  · exact hp.kept (Kept.refl s).twOut
  · exact .ite (fun _ => hp.tw0Away) fun _ => hp.kept (Kept.refl s).twOut

theorem PowerInv.execKeyringWakeInterval (hp : PowerInv s) : PowerSafe (execKeyringWakeInterval s) :=
  .next (.ite (fun _ => (hp.kept ((Kept.refl s).updKrg (by rfl))).wakeFire) fun _ => hp)

/-- The steps of the Dormant entry but the last keep the supply state. -/
theorem PowerInv.execDormantEntryStep (hp : PowerInv s) : PowerSafe (execDormantEntryStep s) := by
  have h : Kept false s s := .refl s
  unfold Machine.execDormantEntryStep
  refine .next (.ite (fun _ => hp) fun _ => ?_)
  extract_lets to'
  have stepped {k : Nat} {u : State} (hu : Kept false s u) : PowerInv (to' k u) := hp.kept
    (hu.updPw (f := fun p => { p with dormStep := k }) ⟨rfl, rfl, rfl⟩)
  split
  · exact stepped (h.pdSleep.overL fun _ _ hu => hu.auxOff.completeOuts fun _ _ hv => hv.finish)
  · exact stepped (.ite h.cvHalt h.updCv)
  · exact .ite (fun _ => stepped h.dormHold) fun _ => hp
  · exact stepped h.dormStore
  · exact stepped h.dormPumps
  · exact .dormOff
  · exact hp

theorem PowerInv.execEccDouble {r : Region} {addr : Word} {part : FirnPart} (hp : PowerInv s) :
    PowerSafe (execEccDouble r addr part s) := by
  unfold Machine.execEccDouble
  refine .next (.ite (fun _ => hp) fun _ => .ite (fun _ => hp.resetTo4) fun _ => ?_)
  extract_lets s1
  have h1 : Kept false s s1 := (Kept.refl s).iceRecord
  have hp1 : PowerInv s1 := hp.kept h1
  cases r with
  | ceTcm => exact .ite (fun _ => hp1.ceHalt) fun _ => hp1
  | capture => exact hp.kept h1.markSample
  | queueMem => exact hp.kept h1.queueEcc
  | linkBuf => exact hp.kept h1.netDrop
  | firn => exact hp.kept (.ite h1.firnEcc h1)
  | bootRom => exact hp1
  | supSram => exact hp1
  | flashWin => exact hp1
  | blockRegs => exact hp1

theorem State.logic_of_krgCounts (h : s.krgCounts = true) : s.pw.logic = .running := by
  simp only [State.krgCounts, Bool.and_eq_true, beq_iff_eq] at h
  exact h.1

theorem PowerInv.execKeyringSeal {count : Nat} (hp : PowerInv s) : PowerSafe (execKeyringSeal count s) := by
  refine .next (.ite (fun hcounts => ?_) fun _ => hp)
  have fault {kind c : Nat} {miss bad : BitVec 16} : PowerInv (s.krgFault kind c miss bad) :=
    hp.krgFault (State.logic_of_krgCounts hcounts)
  exact .ite (fun _ => fault) fun _ => .ite (fun _ => fault) fun _ => .ite (fun _ => fault) fun _ =>
    .ite (fun _ => fault) fun _ => hp.krgGood

theorem PowerInv.execExpire (hp : PowerInv s) : PowerSafe (execExpire s) :=
  .next (.ite (fun hcounts => hp.krgFault (State.logic_of_krgCounts hcounts)) fun _ => hp)

theorem PowerInv.execKeyringEnable (hp : PowerInv s) : PowerSafe (execKeyringEnable s) :=
  .next (.ite (fun _ => hp.updKrg fun hk => by cases hk) fun _ => hp)

theorem PowerInv.execCommandedReset (hp : PowerInv s) : PowerSafe (execCommandedReset s) := by
  refine .next ?_
  split
  · exact .ite (fun _ => hp.resetTo4) fun _ => hp
  · exact hp

/-- A command that moves the supply state keeps the invariant. -/
theorem powerSafe_of_movesSupply (c : Instr) (hc : movesSupply c = true) (hp : PowerInv s) : PowerSafe (exec c s) := by
  cases c with
  | powerUp => exact hp.execPowerUp
  | keepAlivePor => exact .next (powerInv_porReset s)
  | logicPor => exact .next (hp.logicReset fun _ => by decide)
  | logicPorRelease => exact hp.execLogicPorRelease
  | resetN => exact hp.execResetN
  | resetNRelease => exact hp.execResetNRelease
  | lockstepMismatch => exact .next hp.resetTo4
  | pllLockLoss => exact .next (.ite (fun _ => hp.resetTo4) fun _ => hp)
  | commandedReset => exact hp.execCommandedReset
  | crystalFault => exact hp.execCrystalFault
  | pllRelock => exact .next (.ite (fun _ => hp.updClk) fun _ => hp)
  | pllLock => exact hp.execPllLock
  | ceRelease off => exact hp.execCeRelease
  | frameTick i => exact hp.execFrameTick
  | frameOverrun slot => exact hp.execFrameOverrun
  | ceRestart => exact hp.execCeRestart
  | periodBoundary p => exact hp.execPeriodBoundary
  | hkRound i => exact hp.execHkRound
  | comparatorTrip x => exact hp.execComparatorTrip
  | wake src => exact hp.execWake
  | tw0BlockRead code => exact hp.execTw0BlockRead
  | tw0QuickCommand => exact hp.execTw0QuickCommand
  | keyringWakeInterval => exact hp.execKeyringWakeInterval
  | dormantEntryStep => exact hp.execDormantEntryStep
  | keyringSeal count => exact hp.execKeyringSeal
  | keyringEnable => exact hp.execKeyringEnable
  | expire => exact hp.execExpire
  | eccDouble r addr part => exact hp.execEccDouble
  | _ => cases hc

theorem powerSafe_exec (c : Instr) (hp : PowerInv s) : PowerSafe (exec c s) := by
  cases hc : movesSupply c with
  | true => exact powerSafe_of_movesSupply c hc hp
  | false =>
    obtain ⟨t, e, k⟩ := exec_keeps c s hc
    exact ⟨t, e, hp.kept k⟩

theorem powerInv_step (hp : PowerInv s) : PowerSafe (step s) := by
  unfold step
  split
  · exact .next hp
  · exact powerSafe_exec _ hp

theorem powerInv_reset : PowerInv State.reset :=
  .of_stopped rfl (fun hl => by cases hl) (fun hk => by cases hk) fun hm => by cases hm

end

/-- Settles O4: the supply state is kept by every operation but those of a start, a reset, a shutdown, a wake and Keyring, and each of
these restores the invariant. -/
theorem everyStepKeepsThePowerInvariant : Obligations.EveryStepKeepsThePowerInvariant := by
  refine And.intro powerInv_reset fun s t hp h => ?_
  obtain ⟨u, e, hu⟩ := powerInv_step hp
  rw [e] at h
  cases h
  exact hu

end Sys2Proof.Stated
end

section
/-! ## The power-up state, the deferred commands, and the supply and reset rows -/
namespace Sys2Proof.Stated
open Sys2Proof Sys2Proof.Machine

/-- Settles O5: every clause is a value of the reset state, which the finite parts spell out. -/
theorem resetState : Obligations.ResetState := by
  refine ⟨rfl, rfl, rfl, rfl, rfl, rfl, rfl, rfl, fun n => ?_, fun g => ?_, fun q => ?_, fun q => ?_⟩
  · revert n; decide
  · revert g; decide
  · revert q; decide
  · revert q; decide

end Sys2Proof.Stated

namespace Sys2Proof.Stated
open Sys2Proof Sys2Proof.Machine

/-! ### Deferred commands (R84, R283, R336, R347, R511, R518, R589) -/

theorem firstStatus_eq_none {cs : List (Nat × Bool)} (hpassed : ∀ p ∈ cs, p.2 = false) : firstStatus cs = none := by
  unfold firstStatus
  rw [List.find?_eq_none]
  intro c _ hany
  obtain ⟨p, hp, hfails⟩ := List.any_eq_true.mp hany
  simp [hpassed p hp] at hfails

theorem State.guarded_eq_effect {s : State} {t : Taken} {extra : List (Nat × Bool)} {r : OpRow} (hr : opRow t.op.toNat = some r)
    (hst : firstStatus (baseChecks r t s ++ extra) = none) (eff : State → State) : s.guarded t extra eff = eff s := by
  simp [State.guarded, hr, hst]

section
variable {c : Instr} {s : State} {q : Fin 32} {op : Nat} {d : CmdArgs}

/-- An accepted command has its effect on the state that its descriptor was taken in. -/
theorem exec_accepted {f : Taken → State → State} {eff : State → State} (haccepted : Accepted c s q op d)
    (hexec : exec c s = .next (s.rowCmd f op q d))
    (hchecks : f (taken s q op d) (entered s q op d) =
      (entered s q op d).guarded (taken s q op d) (ownChecks c (taken s q op d) (entered s q op d)) eff) :
    exec c s = .next (eff (entered s q op d)) := by
  obtain ⟨hready, r, hr, hpassed⟩ := haccepted
  rw [hexec, rowCmd_atOnce hready, hchecks, State.guarded_eq_effect (opRow_ofNat hr) (firstStatus_eq_none hpassed)]

/-- A command of the Hinge pair other than HANDOVER waits for the next tick. -/
theorem hingeCmd_stages {a : Nat} (haccepted : Accepted c s q 0x0802 (withAction d a))
    (hexec : exec c s = .next (s.rowCmd cmdHingeCmd 0x0802 q (withAction d a))) (hown : ownChecks c = chkHingeCmd)
    (haction : (taken s q 0x0802 (withAction d a)).p 16 1 = a) (ha : a ≠ 0) :
    exec c s = .next (withStaged (entered s q 0x0802 (withAction d a)) (taken s q 0x0802 (withAction d a)) .tick
      [(⟨kHinge, rDevice, a, 0⟩, 0)] []) := by
  refine exec_accepted (eff := fun e => e.stage (taken s q 0x0802 (withAction d a)) .tick [(⟨kHinge, rDevice, a, 0⟩, 0)])
    haccepted hexec ?_
  rw [hown]
  simp only [cmdHingeCmd, haction, beq_iff_eq, ha, if_false]

/-- The five actions of PD_CTL wait for the next tick. -/
theorem pdCtl_stages {a : Nat} (haccepted : Accepted c s q 0x0902 (withAction d a))
    (hexec : exec c s = .next (s.rowCmd cmdPdCtl 0x0902 q (withAction d a))) (hown : ownChecks c = chkPdCtl)
    (haction : (taken s q 0x0902 (withAction d a)).p 16 1 = a) :
    exec c s = .next (withStaged (entered s q 0x0902 (withAction d a)) (taken s q 0x0902 (withAction d a)) .tick
      [(⟨kPd, (pdIx (taken s q 0x0902 (withAction d a))).val, a, 0⟩, 0)] []) := by
  refine exec_accepted (eff := fun e => e.stage (taken s q 0x0902 (withAction d a)) .tick
    [(⟨kPd, (pdIx (taken s q 0x0902 (withAction d a))).val, a, 0⟩, 0)]) haccepted hexec ?_
  rw [hown]
  simp only [cmdPdCtl, haction]

@[simp] theorem entered_fr : (entered s q op d).fr = s.fr := by
  unfold entered
  dsimp only
  split
  · rfl
  · rfl

end

/-- Settles O20: each is an accepted command whose effect is to wait, or to stage writes. -/
theorem deferredCommandsWait : Obligations.DeferredCommandsWait := by
  refine ⟨⟨fun q d s ha => ?cvSet, fun q d s ha => ?huTest, fun q d s ha => ?shedOrder, fun q d s ha => ?dormant,
    fun q d s ha => ?reset⟩, ⟨fun q d s ha => ?handover, fun q d => ⟨fun s ha => ?resync, fun s ha => ?clear⟩⟩, fun q d => ?pd⟩
  case cvSet => exact exec_accepted (eff := fun e => e.await (taken s q 0x0201 d) .start) ha rfl rfl
  case huTest => exact exec_accepted (eff := fun e => e.await (taken s q 0x0305 d) .start) ha rfl rfl
  case shedOrder =>
    refine exec_accepted (f := cmdShedOrder) (eff := fun e => e.stage (taken s q 0x0303 d) .period _) ha rfl ?_
    rfl
  case dormant =>
    exact exec_accepted (eff := fun e => (e.await (taken s q 0x0703 d) .start).updPw fun p =>
      { p with dormStep := 1, admOpen := false }) ha rfl rfl
  case reset =>
    rw [← entered_fr (s := s) (q := q) (op := 0x0702) (d := d)]
    exact exec_accepted (eff := fun e => (e.await (taken s q 0x0702 d) (.tick 0 [])).updPw fun p =>
      { p with resetDue := some (e.fr.count + 251) }) ha rfl rfl
  case handover =>
    exact exec_accepted (f := cmdHingeCmd) (eff := fun e => e.await (taken s q 0x0802 (withAction d 0)) .handover) ha rfl rfl
  case resync => exact hingeCmd_stages ha rfl rfl rfl (by decide)
  case clear => exact hingeCmd_stages ha rfl rfl rfl (by decide)
  case pd =>
    exact ⟨fun s ha => pdCtl_stages ha rfl rfl rfl, fun s ha => pdCtl_stages ha rfl rfl rfl,
      fun s ha => pdCtl_stages ha rfl rfl rfl, fun s ha => pdCtl_stages ha rfl rfl rfl, fun s ha => pdCtl_stages ha rfl rfl rfl⟩

end Sys2Proof.Stated

namespace Sys2Proof.Stated
open Sys2Proof Sys2Proof.Machine

/-! ### Supply and reset (R58, R59, R79-R81, Tables 2.6, 2.9 and 2.10) -/

section
variable {s : State}

theorem exec_powerUp (hmode : s.pw.mode = .off) (hreset : s.pw.resetNLow = false) : ∃ t, exec .powerUp s = .next t ∧
    t.pw.mode = .start ∧ t.pw.step = 2 ∧ t.pw.logic = .off ∧
    t.krg.st = (if s.otp.kstart = some true then .off else .boot) ∧ t.ch = s.ch ∧ t.settings = s.settings := by
  simp only [exec, execPowerUp, hmode, hreset, beq_self_eq_true, Bool.not_false, Bool.and_self, if_true]
  refine ⟨_, rfl, rfl, rfl, rfl, ?_, rfl, rfl⟩
  simp

/-- A keep-alive POR leaves what Firn, OTP and settings hold. -/
theorem porReset_ch_off (n : Fin 64) : (s.porReset.ch[n]).st = .off := by
  show ((s.ch.map fun c => ({ (default : Chan) with creep := c.creep.carry } : Chan))[n]).st = .off
  rw [Fin.getElem_fin, Vector.getElem_map]
  rfl

theorem exec_logicPor (hmode : s.pw.mode = .start ∨ s.pw.mode = .run) (hlogic : s.pw.logic ≠ .off) :
    ∃ t, exec .logicPor s = .next t ∧ Restarted s t 1 .off 2 :=
  ⟨_, rfl, State.logicReset_restarted hmode hlogic⟩

theorem exec_logicPorRelease (hmode : s.pw.mode = .start) (hlogic : s.pw.logic = .off) (hstep : s.pw.step = 2) :
    ∃ t, exec .logicPorRelease s = .next t ∧ t.pw.step = 3 ∧
      t.pw.logic = (if s.pw.resetNLow = true ∨ s.krg.st = .safe then .inReset else .running) ∧ t.ch = s.ch := by
  simp only [exec, execLogicPorRelease, hmode, hlogic, hstep, beq_self_eq_true, Bool.and_self, if_true]
  refine ⟨_, rfl, rfl, ?_, rfl⟩
  simp [State.updKrg, State.updPw]

end

/-- Settles O24: the power-up row, the keep-alive POR's image, and the drive die's outputs through a logic-die POR. -/
theorem supplyCommandsActOnTheStart : Obligations.SupplyCommandsActOnTheStart := by
  refine ⟨fun s => exec_powerUp, fun s => ?_, fun s hmode hlogic => ?_, fun s => exec_logicPorRelease⟩
  · exact ⟨s.porReset, rfl, rfl, rfl, fun n => porReset_ch_off n, rfl, rfl, rfl, rfl, rfl, rfl, rfl, rfl, rfl, rfl⟩
  · obtain ⟨t, e, h⟩ := exec_logicPor hmode hlogic
    exact ⟨t, e, h.mode, h.logic, h.step, h.cause, h.outs, h.adm⟩

section
variable {s : State}

/-- RESET_N resets every chip that is not held in SAFE (R80). -/
theorem exec_resetN (hmode : s.pw.mode = .start ∨ s.pw.mode = .run) (hlogic : s.pw.logic ≠ .off) (hsafe : s.krg.st ≠ .safe) :
    ∃ t, exec .resetN s = .next t ∧ Restarted (s.updPw fun p => { p with resetNLow := true }) t 2 .inReset 3 := by
  simp only [exec, execResetN, beq_eq_false_iff_ne.mpr hsafe, Bool.false_and, Bool.false_eq_true, if_false]
  exact ⟨_, rfl, State.logicReset_restarted hmode hlogic⟩

/-- RESET_N releases Keyring from SAFE (R556). -/
theorem exec_resetN_safe (hsafe : s.krg.st = .safe) (hlogic : s.pw.logic = .inReset) :
    ∃ t, exec .resetN s = .next t ∧ t.krg.st = .boot ∧ t.pw.resetNLow = true := by
  simp only [exec, execResetN, hsafe, hlogic, beq_self_eq_true, Bool.and_self, if_true]
  exact ⟨_, rfl, Krg.atReset_st_boot rfl, rfl⟩

theorem exec_resetNRelease (hmode : s.pw.mode = .start) (hlogic : s.pw.logic = .inReset) (hsafe : s.krg.st ≠ .safe) :
    exec .resetNRelease s = .next { s with tw := default, pw := { s.pw with resetNLow := false, logic := .running } } := by
  simp only [exec, execResetNRelease, hmode, hlogic, bne_iff_ne, hsafe, beq_self_eq_true, Bool.and_self, ne_eq, not_false_eq_true,
    Bool.true_and, if_true, State.updPw]

end

/-- Settles O25: each source resets the logic die with its own cause. -/
theorem resetSourcesRestartTheLogicDie : Obligations.ResetSourcesRestartTheLogicDie := by
  refine ⟨fun s hmode hlogic hsafe => ?_, fun s => exec_resetN_safe, fun s => exec_resetNRelease, fun s hmode hlogic => ?_⟩
  · obtain ⟨t, e, h⟩ := exec_resetN hmode hlogic hsafe
    exact ⟨t, e, h.mode, h.logic, h.step, h.cause, h.resetNLow⟩
  · have restarts (cause : Nat) : Restarted s (s.resetTo4 cause) cause .running 3 := State.resetTo4_restarted hmode hlogic
    refine ⟨?_, fun hstep hlocked => ?_, fun f hdue hle => ?_⟩
    · exact ⟨_, rfl, (restarts 4).mode, (restarts 4).logic, (restarts 4).step, (restarts 4).cause⟩
    · refine ⟨s.resetTo4 7, ?_, (restarts 7).mode, (restarts 7).logic, (restarts 7).step, (restarts 7).cause⟩
      simp only [exec, execPllLockLoss, hlocked, ge_iff_le, hstep, decide_true, Bool.not_false, Bool.and_self, if_true]
    · refine ⟨s.resetTo4 8, ?_, (restarts 8).mode, (restarts 8).logic, (restarts 8).step, (restarts 8).cause⟩
      simp only [exec, execCommandedReset, hdue, hle, decide_true, Bool.true_or, if_true]

end Sys2Proof.Stated

namespace Sys2Proof.Machine
open Sys2Proof

/-! ### Table 2.10 -/

/-- The Channels of a chip outside a pair moved by a logic-die reset, from the state u in which no trip is left to make up. -/
def State.resetCh (s u : State) : State := u.mapCh fun n c => c.atReset (s.holds n) (s.lf n Fld.DISCH) s.fr.drive

/-- The Channels of a chip outside a pair as a logic-die reset leaves them on the drive die. -/
def State.atTable210 (s : State) : State := (s.resetCh s.compPending).placeSinks

theorem State.resetCh_ch (s u : State) (n : Fin 64) :
    (s.resetCh u).ch[n] = (u.ch[n]).atReset (s.holds n) (s.lf n Fld.DISCH) s.fr.drive := u.mapCh_get _ n

/-- The drive die keeps a Channel's state and its outputs. -/
theorem State.kept_ch (s : State) (n : Fin 64) :
    (s.kept.ch[n]).st = (s.ch[n]).st ∧ (s.kept.ch[n]).gate = (s.ch[n]).gate ∧ (s.kept.ch[n]).sink = (s.ch[n]).sink := by
  have hget : s.kept.ch[n] = { (s.ch[n]).carry with cmpGain := s.cmpGain n } := Vector.getElem_ofFn n.isLt
  rw [hget]
  exact ⟨rfl, rfl, rfl⟩

/-- A Channel as a logic-die reset leaves it. -/
theorem State.logicReset_ch {s : State} {cause step : Nat} {die : LogicDie} (hmode : s.pw.mode = .start ∨ s.pw.mode = .run)
    (hlogic : s.pw.logic ≠ .off) (hsolo : s.hinge.hen = false) :
    (s.logicReset cause die step).ch = s.atTable210.kept.ch := by
  have hacts : ¬ (s.pw.mode == .off || s.pw.mode == .shutdown || s.pw.mode == .dormant || s.pw.logic == .off) = true := by
    rcases hmode with e | e <;> simp [e, hlogic]
  unfold State.logicReset
  rw [if_neg hacts]
  extract_lets pair ref s0 heads s1 s2
  have hs1 : s1 = s.atTable210 := by
    unfold s1 pair
    simp only [hsolo, Bool.false_and, Bool.false_eq_true, if_false]
    rfl
  show s1.kept.ch = _
  rw [hs1]

/-! ### Trips that S1 has not taken (R192) -/

/-- Operations over a list of Channels, each of which trips its own and leaves every trip, trip the whole list. -/
theorem overL_trips {f : Fin 64 → State → State}
    (hf : ∀ x u (m : Fin 64), m = x ∨ (u.ch[m]).st = .tripped → ((f x u).ch[m]).st = .tripped) (l : List (Fin 64)) (s : State)
    (m : Fin 64) (h : m ∈ l ∨ (s.ch[m]).st = .tripped) : ((overL l f s).ch[m]).st = .tripped := by
  induction l generalizing s with
  | nil => exact h.resolve_left List.not_mem_nil
  | cons x l ih =>
    refine ih (f x s) ?_
    rcases h with hmem | htripped
    · exact (List.mem_cons.mp hmem).elim (fun e => .inr (hf x s m (.inl e))) .inl
    · exact .inr (hf x s m (.inr htripped))

theorem overL_eq_self {α : Type} {l : List α} {f : α → State → State} {s : State} (h : ∀ x ∈ l, f x s = s) : overL l f s = s := by
  induction l with
  | nil => rfl
  | cons x l ih =>
    show overL l f (f x s) = s
    rw [h x (.head l)]
    exact ih fun y hy => h y (.tail x hy)

/-- The drive die trips every member of the set, and leaves the Channels that have tripped. -/
theorem State.compHeld_trips (s : State) (n m : Fin 64) (h : m = n ∨ (s.ch[m]).st = .tripped) :
    ((s.compHeld n).ch[m]).st = .tripped := by
  refine overL_trips (fun x u m hm => ?_) _ s m (h.imp_left fun (e : m = n) => e ▸ s.self_mem_members m)
  rw [State.keepEvent_ch]
  by_cases hx : m = x
  · subst hx
    rw [State.updCh_same]
    rfl
  · rw [State.updCh_other _ _ _ _ hx]
    exact hm.resolve_left hx

theorem State.compPending_trips {s : State} {n : Fin 64} (h : (s.ch[n]).cmpTrip = true) :
    ((s.compPending).ch[n]).st = .tripped := by
  refine overL_trips (fun x u m hm => ?_) _ s n (.inl (List.mem_filter.mpr ⟨List.mem_finRange n, h⟩))
  split
  case isTrue htripped => exact hm.elim (fun (e : m = x) => by rw [e]; exact beq_iff_eq.mp htripped) id
  case isFalse => exact u.compHeld_trips x m hm

/-- Where S1 has taken every trip there is nothing to make up. -/
theorem State.compPending_eq_self {s : State} (h : ∀ m : Fin 64, (s.ch[m]).cmpTrip = true → (s.ch[m]).st = .tripped) :
    s.compPending = s :=
  overL_eq_self fun n hn => if_pos (beq_iff_eq.mpr (h n (List.mem_filter.mp hn).2))

/-! ### The sinks (R164, R165) -/

/-- How placing sinks moves those of Channel n: the sinks alone change, and its own becomes the active one where DISCH is 2. -/
def SinkPlaced (n : Fin 64) (s t : State) : Prop :=
  (∃ v, t = { s with ch := v }) ∧
    ((t.ch[n]).sink = (s.ch[n]).sink ∨ (s.lf n Fld.DISCH = 2 ∧ (t.ch[n]).sink = .active))

theorem SinkPlaced.refl (n : Fin 64) (s : State) : SinkPlaced n s s := ⟨⟨s.ch, rfl⟩, .inl rfl⟩

theorem SinkPlaced.trans {n : Fin 64} {s t u : State} (h : SinkPlaced n s t) (k : SinkPlaced n t u) : SinkPlaced n s u := by
  obtain ⟨⟨v, rfl⟩, hsink⟩ := h
  obtain ⟨⟨w, rfl⟩, ksink⟩ := k
  refine ⟨⟨w, rfl⟩, ksink.elim (fun e => ?_) .inr⟩
  exact hsink.imp e.trans fun ⟨hdisch, hactive⟩ => ⟨hdisch, e.trans hactive⟩

theorem State.sinkOn_placed {s : State} {m : Fin 64} (hdisch : s.lf m Fld.DISCH = 2) (n : Fin 64) :
    SinkPlaced n s (s.updCh m fun c => { c with sink := .active }) := by
  refine ⟨⟨_, rfl⟩, ?_⟩
  by_cases hn : n = m
  · subst hn
    rw [State.updCh_same]
    exact .inr ⟨hdisch, rfl⟩
  · rw [State.updCh_other _ _ _ _ hn]
    exact .inl rfl

/-- R165: a sink that is placed is the active one, of a Channel with DISCH 2. -/
theorem State.placeSinks_placed (s : State) (n : Fin 64) : SinkPlaced n s s.placeSinks := by
  refine overL_rel (SinkPlaced.refl n) SinkPlaced.trans _ _ (fun b u => ?_) s
  extract_lets cs
  split
  · exact .refl n u
  · split
    · exact .refl n u
    case h_2 m l e =>
      have hm : m ∈ cs.filter fun n => u.lf n Fld.DISCH == 2 := e ▸ .head l
      exact u.sinkOn_placed (beq_iff_eq.mp (List.mem_filter.mp hm).2) n

/-- What a reader sees of a Channel through the sinks placed on top of it. -/
theorem State.placeSinks_ch (s : State) (n : Fin 64) : (s.placeSinks.ch[n]).st = (s.ch[n]).st ∧
    (s.placeSinks.ch[n]).gate = (s.ch[n]).gate ∧
    ((s.placeSinks.ch[n]).sink = (s.ch[n]).sink ∨ (s.lf n Fld.DISCH = 2 ∧ (s.placeSinks.ch[n]).sink = .active)) := by
  obtain ⟨-, hsinks⟩ := s.placeSinks_sinksOnly
  obtain ⟨-, hplaced⟩ := s.placeSinks_placed n
  obtain ⟨k, hk⟩ := hsinks n
  exact ⟨by rw [hk], by rw [hk], hplaced⟩

/-! ### A Channel at a reset (Table 2.10) -/

section
variable {c : Chan} {keep : Bool} {disch drive : Nat}

theorem Chan.atReset_on_keep (hst : c.st = .on) : (c.atReset true disch drive).st = .held := by
  unfold Chan.atReset
  rw [hst]
  rfl

theorem Chan.atReset_on_free (hst : c.st = .on) : (c.atReset false disch drive).st = .off ∧
    (c.atReset false disch drive).gate = .low ∧ (c.atReset false disch drive).sink = sinkOf disch := by
  unfold Chan.atReset
  rw [hst]
  exact ⟨rfl, rfl, rfl⟩

theorem Chan.atReset_ramp (hst : c.st = .ramp) :
    (c.atReset keep disch drive).st = .off ∧ (c.atReset keep disch drive).gate = .low := by
  unfold Chan.atReset
  rw [hst]
  exact ⟨rfl, rfl⟩

theorem Chan.atReset_held (hst : c.st = .held) : c.atReset keep disch drive = c := by
  unfold Chan.atReset
  rw [hst]

theorem Chan.atReset_rest (hst : c.st = .tripped ∨ c.st = .lockout ∨ c.st = .fetFault ∨ c.st = .off) :
    (c.atReset keep disch drive).st = c.st ∧ (c.atReset keep disch drive).gate = .low := by
  unfold Chan.atReset
  rcases hst with e | e | e | e <;> rw [e] <;> exact ⟨rfl, rfl⟩

end

/-- A Channel's parameters in force come from the settings and from what is burnt into its Tumbler. -/
theorem State.lf_congr {s t : State} (hset : t.settings = s.settings) (htmb : ∀ n : Fin 64, (t.ch[n]).tmb = (s.ch[n]).tmb)
    (n : Fin 64) (f : Fld) : t.lf n f = s.lf n f := by
  have hfld (g : Fld) (r i : Nat) : t.fld g r i = s.fld g r i := by
    unfold State.fld
    rw [hset]
    by_cases hr : r < 64
    · have htmbr : (t.ch[r]).tmb = (s.ch[r]).tmb := htmb ⟨r, hr⟩
      simp only [hr, dif_pos, htmbr]
    · simp only [hr, dif_neg, not_false_eq_true]
  simp only [State.lf, State.leader, State.leaderOf, State.chf, hfld]

theorem Chan.atReset_tmb (c : Chan) (keep : Bool) (disch drive : Nat) : (c.atReset keep disch drive).tmb = c.tmb := by
  unfold Chan.atReset
  cases c.st
  case on => cases keep <;> rfl
  all_goals rfl

theorem State.resetCh_lf (s u : State) (n : Fin 64) (f : Fld) : (s.resetCh u).lf n f = u.lf n f := by
  refine State.lf_congr (s := u) (t := s.resetCh u) (u.mapCh_settings _) (fun m => ?_) n f
  rw [State.resetCh_ch s u]
  exact Chan.atReset_tmb ..

/-- A trip that the drive die has latched and no S1 has taken makes its Channel TRIPPED. -/
theorem State.atTable210_trips {s : State} {n : Fin 64} (h : (s.ch[n]).cmpTrip = true) : (s.atTable210.ch[n]).st = .tripped := by
  unfold State.atTable210
  rw [(State.placeSinks_ch _ n).1, State.resetCh_ch]
  have htripped := State.compPending_trips h
  rw [(Chan.atReset_rest (.inl htripped)).1, htripped]

/-- The Channels after a reset, where S1 has taken every trip: Table 2.10 with the sinks placed. -/
theorem State.atTable210_ch {s : State} (htaken : ∀ m : Fin 64, (s.ch[m]).cmpTrip = true → (s.ch[m]).st = .tripped) {n : Fin 64}
    {c : Chan} (hc : (s.ch[n]).atReset (s.holds n) (s.lf n Fld.DISCH) s.fr.drive = c) :
    (s.atTable210.ch[n]).st = c.st ∧ (s.atTable210.ch[n]).gate = c.gate ∧
      ((s.atTable210.ch[n]).sink = c.sink ∨ (s.lf n Fld.DISCH = 2 ∧ (s.atTable210.ch[n]).sink = .active)) := by
  unfold State.atTable210
  rw [State.compPending_eq_self htaken]
  obtain ⟨hst, hgate, hsink⟩ := (s.resetCh s).placeSinks_ch n
  rw [State.resetCh_ch s s, hc] at hst hgate hsink
  rw [State.resetCh_lf] at hsink
  exact ⟨hst, hgate, hsink⟩

end Sys2Proof.Machine

namespace Sys2Proof.Stated
open Sys2Proof Sys2Proof.Machine

/-- The Channels after a lockstep mismatch are those of the table. -/
theorem lockstepMismatch_ch {s : State} (hmode : s.pw.mode = .start ∨ s.pw.mode = .run) (hlogic : s.pw.logic = .running)
    (hsolo : s.hinge.hen = false) : (s.resetTo4 4).ch = s.atTable210.kept.ch := by
  unfold State.resetTo4
  rw [if_pos (beq_iff_eq.mpr hlogic)]
  exact State.logicReset_ch hmode (by simp [hlogic]) hsolo

/-- Settles O26: the drive die's Channels follow the table, and all else of a reset is gone. -/
theorem logicResetMovesEachChannelByTable210 : Obligations.LogicResetMovesEachChannelByTable210 := by
  intro s n hmode hlogic hsolo
  have hreset : Restarted s (s.resetTo4 4) 4 .running 3 := State.resetTo4_restarted hmode hlogic
  have hch := lockstepMismatch_ch hmode hlogic hsolo
  obtain ⟨hst, hgate, hsink⟩ := s.atTable210.kept_ch n
  refine ⟨⟨_, rfl, fun htrip => ?_⟩, fun htaken => ⟨_, rfl, ?_⟩⟩
  · rw [hch, hst]
    exact State.atTable210_trips htrip
  · obtain ⟨tst, tgate, tsink⟩ := State.atTable210_ch htaken (n := n) rfl
    rw [hch, hst, hgate, hsink, tst, tgate]
    refine ⟨fun hon => ⟨fun hhold => ?_, fun hfree => ?_⟩, Chan.atReset_ramp, Chan.atReset_rest, fun hheld => ?_,
      hreset.adm, hreset.zone, hreset.th, hreset.outs, hreset.vis⟩
    · rw [hhold]
      exact Chan.atReset_on_keep hon
    · rw [hfree] at tsink ⊢
      obtain ⟨hoff, hlow, hdisch⟩ := Chan.atReset_on_free hon (disch := s.lf n Fld.DISCH) (drive := s.fr.drive)
      rw [hdisch] at tsink
      exact ⟨hoff, hlow, tsink⟩
    · rw [Chan.atReset_held hheld]
      exact ⟨hheld, rfl⟩

end Sys2Proof.Stated
end

section
/-! ## The timed checks of a Channel -/
namespace Sys2Proof.Stated
open Sys2Proof Sys2Proof.Machine

section
variable {s : State} {n : Fin 64}

/-! ### When each check is due (R150, R154, R157-R159) -/

theorem tumblerDue_iff : s.tumblerDue n = true ↔
    ((s.ch[n]).st = .ramp ∧ (s.ch[n]).t0 + frames01ms * (s.ch[n]).tmb.tInrush ≤ s.fr.count) ∨
      ((s.ch[n]).st = .on ∧ (s.ch[n]).tmbOff = true) := by
  simp [State.tumblerDue, State.rampOver]

theorem rampLate_iff : s.rampLate n = true ↔ (s.ch[n]).st = .ramp ∧ s.live = true ∧ s.clk.relocking = false ∧
    (s.ch[n]).t0 + frames01ms * s.lf n Fld.TRAMP ≤ s.fr.count := by
  simp [State.rampLate, and_assoc]

theorem gateFails_iff : s.gateFails n = true ↔ s.live = true ∧ s.clk.relocking = false ∧
    (((s.ch[n]).st = .ramp ∨ (s.ch[n]).st = .on) ∧
        ((s.ch[n]).gateBad = true ∨ ((s.ch[n]).gateDue = some s.fr.count ∧ (s.ch[n]).gateMin = false)) ∨
      ((s.ch[n]).st = .on ∧ 13 ≤ (s.ch[n]).minRun)) := by
  simp only [State.gateFails, Bool.and_eq_true, Bool.or_eq_true, Bool.not_eq_true', beq_iff_eq, decide_eq_true_eq, ge_iff_le]
  tauto

theorem fetTestDue_of_offAt {f : Nat} (hoff : (s.ch[n]).offAt = some f) :
    s.fetTestDue n = true ↔ s.live = true ∧ s.clk.relocking = false ∧ f + 50 ≤ s.fr.count := by
  simp only [State.fetTestDue, hoff, Bool.and_eq_true, Bool.not_eq_true', decide_eq_true_eq, and_assoc]

theorem fetShorted_iff : s.fetShorted n = true ↔ s.live = true ∧ s.clk.relocking = false ∧ 250 ≤ (s.ch[n]).fetRun ∧
    (s.ch[n]).offAt = none ∧ ((s.ch[n]).st = .off ∨ (s.ch[n]).st = .tripped ∨ (s.ch[n]).st = .lockout) := by
  simp [State.fetShorted, and_assoc, or_assoc]

theorem restState_iff {c : ChState} : restState c = true ↔ c = .off ∨ c = .tripped ∨ c = .lockout := by
  simp [restState, or_assoc]

/-! ### What the test after an off command finds (R158, R160) -/

theorem fetTest_gateHigh (hrest : restState (s.ch[n]).st = true) (hgate : (s.ch[n]).gateLow = false) :
    s.fetTest n = [⟨n, .gateFail, .fetFault, 1, 0⟩] := by
  simp only [State.fetTest, hrest, hgate, Bool.not_true, Bool.not_false, Bool.false_eq_true, if_false, if_true]

theorem fetTest_shorted (hrest : restState (s.ch[n]).st = true) (hgate : (s.ch[n]).gateLow = true)
    (hvolt : s.vsup n < (s.ch[n]).vP * 5) (hcur : s.lf n Fld.HOLDCAP = 0 ∨ s.fetLevel n ≤ (s.ch[n]).iP) :
    s.fetTest n = [⟨n, .fetShort, .fetFault, 0, 0⟩] := by
  have hshort : (decide ((s.ch[n]).vP * 5 > s.vsup n) &&
      (s.lf n Fld.HOLDCAP == 0 || decide ((s.ch[n]).iP ≥ s.fetLevel n))) = true := by
    simpa using ⟨hvolt, hcur⟩
  simp only [State.fetTest, hrest, hgate, hshort, Bool.not_true, Bool.false_eq_true, if_false, if_true]

theorem fetTest_good (hgate : (s.ch[n]).gateLow = true) (hvolt : (s.ch[n]).vP * 5 ≤ s.vsup n) : s.fetTest n = [] := by
  have hfine : decide ((s.ch[n]).vP * 5 > s.vsup n) = false := decide_eq_false (not_lt.mpr hvolt)
  simp only [State.fetTest, hgate, hfine, Bool.not_true, Bool.false_and, Bool.false_eq_true, if_false, ite_self]

/-- Nothing raised moves no Channel. -/
theorem resolve_nil : (s.resolve []).ch = s.ch ∧ (s.resolve []).fr = s.fr ∧ (s.resolve []).outs = s.outs := by
  unfold State.resolve
  split
  · simp [overL]
  · exact ⟨rfl, rfl, rfl⟩

/-- A test that is due disarms, and raises what it finds. -/
theorem exec_fetShortTest {f : Nat} (hlive : s.live = true) (hrelock : s.clk.relocking = false) (hoff : (s.ch[n]).offAt = some f)
    (hdue : f + 50 ≤ s.fr.count) :
    exec (.fetShortTest n) s = .next ((s.updCh n fun c => { c with offAt := none, fetRun := 0 }).resolve (s.fetTest n)) :=
  congrArg _ (if_pos ((fetTestDue_of_offAt hoff).mpr ⟨hlive, hrelock, hdue⟩))

/-- R55: no check acts in a relock. -/
theorem exec_checks_relocking (h : s.clk.relocking = true) : exec (.rampTimeout n) s = .next s ∧ exec (.gateFail n) s = .next s ∧
    exec (.fetShortTest n) s = .next s ∧ exec (.fetShort n) s = .next s := by
  refine ⟨congrArg _ (if_neg ?_), congrArg _ (if_neg ?_), congrArg _ (if_neg ?_), congrArg _ (if_neg ?_)⟩
  · simp [State.rampLate, h]
  · simp [State.gateFails, h]
  · simp [State.fetTestDue, h]
  · simp [State.fetShorted, h]

end

/-- Settles O33: each check acts where it is due. -/
theorem channelChecksRaiseTheirCauses : Obligations.ChannelChecksRaiseTheirCauses := by
  refine ⟨fun s n hramp hover => ?_, fun s n hramp hlive hrelock hlate => ?_, fun s n hon hlast => ?_,
    fun s n hlive hrelock hst hbad => ?_, fun s n hlive hrelock hon hrun => ?_, fun s n f hlive hrelock hoff hdue hst => ?_,
    fun s n => exec_checks_relocking, fun s n hlive hrelock hrun hoff hst => ?_, fun s n hramp => ⟨?_, fun hon => ?_⟩⟩
  · exact congrArg _ (if_pos (tumblerDue_iff.mpr (.inl ⟨hramp, hover⟩)))
  · exact congrArg _ (if_pos (rampLate_iff.mpr ⟨hramp, hlive, hrelock, hlate⟩))
  · exact congrArg _ (if_pos (tumblerDue_iff.mpr (.inr ⟨hon, hlast⟩)))
  · exact congrArg _ (if_pos (gateFails_iff.mpr ⟨hlive, hrelock, .inl ⟨hst, hbad⟩⟩))
  · exact congrArg _ (if_pos (gateFails_iff.mpr ⟨hlive, hrelock, .inr ⟨hon, hrun⟩⟩))
  · have htest := exec_fetShortTest hlive hrelock hoff hdue
    have hrest := restState_iff.mpr hst
    refine ⟨fun hgate => ?_, fun hgate hvolt hcur => ?_, fun hgate hvolt => ⟨_, htest, ?_⟩⟩
    · rw [htest, fetTest_gateHigh hrest hgate]
      rfl
    · rw [htest, fetTest_shorted hrest hgate hvolt hcur]
      rfl
    · rw [fetTest_good hgate hvolt]
      exact resolve_nil
  · exact congrArg _ (if_pos (fetShorted_iff.mpr ⟨hlive, hrelock, hrun, hoff, hst⟩))
  · exact congrArg _ (if_neg fun e => hramp (rampLate_iff.mp e).1)
  · refine congrArg _ (if_neg fun e => ?_)
    rcases tumblerDue_iff.mp e with ⟨hst, -⟩ | ⟨hst, hlast⟩
    · exact hramp hst
    · exact hon.elim (absurd hst) fun hfree => absurd (hlast.symm.trans hfree) (by decide)

end Sys2Proof.Stated
end

section
/-! ## The power-fail warning, the wake sources and the entry to Dormant -/
namespace Sys2Proof.Stated
open Sys2Proof Sys2Proof.Machine

section
variable {s : State}

/-! ### The power-fail warning (R75, R76, R78) -/

theorem exec_powerFailWarning (hlive : s.live = true) (hmode : s.pw.mode ≠ .off) (hpfw : s.pw.pfw = false) :
    ∃ t, exec .powerFailWarning s = .next t ∧ t.pw.pfw = true ∧ t.pw.batDue = true ∧ t.ice.flushing = true ∧ t.ch = s.ch ∧
      t.cv = s.cv := by
  have hacts : ¬ (s.pw.mode == .off || s.pw.pfw) = true := by simp [hmode, hpfw]
  simp only [exec, execPowerFailWarning, if_neg hacts, if_pos hlive]
  refine ⟨_, rfl, ?_, ?_, rfl, ?_, ?_⟩ <;> simp [State.updPw]

/-- The settings go to Firn, and nothing else moves. -/
theorem storeSettings_writes (s : State) :
    s.storeSettings.pw = s.pw ∧ s.storeSettings.ch = s.ch ∧ s.storeSettings.ccountFirn = s.ccountFirn := by
  unfold State.storeSettings
  split <;> exact ⟨rfl, rfl, rfl⟩

/-- A confirmation writes the update store and the fuses. -/
theorem when_confirmWrites_writes (b : Bool) (s : State) : (when b State.confirmWrites s).pw = s.pw ∧
    (when b State.confirmWrites s).ch = s.ch ∧ (when b State.confirmWrites s).ccountFirn = s.ccountFirn := by
  cases b <;> exact ⟨rfl, rfl, rfl⟩

/-- The Firn writes that resume after a warning: the Charge count is among them, and of a Channel its Creep results alone. -/
theorem firnResume_writes (s : State) : s.firnResume.pw = s.pw ∧ s.firnResume.ccountFirn = s.ccount ∧
    ∀ n : Fin 64, ∃ k, s.firnResume.ch[n] = { s.ch[n] with creep := k } := by
  unfold State.firnResume
  extract_lets s1 s2
  obtain ⟨spw, sch, scount⟩ : s1.pw = s.pw ∧ s1.ch = s.ch ∧ s1.ccountFirn = s.ccount := by
    unfold s1
    exact ⟨by rw [State.updUpd_pw], by rw [State.updUpd_ch], by rw [State.updUpd_ccountFirn]⟩
  obtain ⟨hpw, hch, hcount⟩ := storeSettings_writes (when s1.upd.confirmLate State.confirmWrites s1)
  obtain ⟨kpw, kch, kcount⟩ := when_confirmWrites_writes s1.upd.confirmLate s1
  have hch2 : s2.ch = s.ch := (hch.trans kch).trans sch
  refine ⟨?_, ?_, fun n => ⟨(s.ch[n]).creep.resume, ?_⟩⟩
  · rw [State.mapCh_pw, ← spw, ← kpw, ← hpw]
  · rw [State.mapCh_ccountFirn, ← scount, ← kcount, ← hcount]
  · rw [State.mapCh_get, hch2]

theorem exec_powerFailClear (hpfw : s.pw.pfw = true) : ∃ t, exec .powerFailClear s = .next t ∧ t.pw = { s.pw with pfw := false } ∧
    (∀ n : Fin 64, ∃ k, t.ch[n] = { s.ch[n] with creep := k }) ∧ (s.live = true → t.ccountFirn = s.ccount) := by
  simp only [exec, execPowerFailClear, if_pos hpfw]
  obtain ⟨i, hi⟩ := (s.updPw fun p => { p with pfw := false }).iceRecord_ex 0x0722 rDevice 2 [1]
  rw [hi]
  refine ⟨_, rfl, ?_⟩
  unfold when
  split
  case isTrue hlive =>
    obtain ⟨hpw, hcount, hch⟩ := firnResume_writes { s.updPw fun p => { p with pfw := false } with ice := i }
    exact ⟨hpw, hch, fun _ => hcount⟩
  case isFalse hdead => exact ⟨rfl, fun n => ⟨_, rfl⟩, fun hlive => absurd hlive hdead⟩

/-! ### The wake sources (R85, R87, R480, Table 2.12) -/

/-- A block that a wake source starts is at step 2, its logic die off and its Channels as they were. -/
structure Woken (s t : State) (src : Nat) : Prop where
  mode : t.pw.mode = .start
  step : t.pw.step = 2
  logic : t.pw.logic = .off
  wakeSrc : t.pw.wakeSrc = src
  cause : t.pw.cause = 9
  ch : t.ch = s.ch
  krg : t.krg = s.krg

theorem wakeNow_woken (s : State) (src : Nat) : Woken s (s.wakeNow src) src := by
  unfold State.wakeNow State.keepEvent
  split <;> exact ⟨rfl, rfl, rfl, rfl, rfl, rfl, rfl⟩

theorem wakeFire_woken (hdormant : s.pw.mode = .dormant) (src : Nat) : Woken s (s.wakeFire src) src := by
  unfold State.wakeFire
  rw [if_pos (beq_iff_eq.mpr hdormant)]
  exact wakeNow_woken s src

theorem exec_keyringWakeInterval (hkrg : s.krg.st = .dormant) (hmode : s.pw.mode = .dormant) (hleft : s.krg.wakeLeft ≠ 0) :
    ∃ t, exec .keyringWakeInterval s = .next t ∧ t.pw.mode = .start ∧ t.pw.step = 2 ∧ t.pw.wakeSrc = 1 ∧ t.krg.wakeLeft = 0 := by
  have hdue : (s.krg.st == .dormant && s.pw.mode == .dormant && s.krg.wakeLeft != 0) = true := by simp [hkrg, hmode, hleft]
  simp only [exec, execKeyringWakeInterval, if_pos hdue]
  have h : Woken _ _ 1 := wakeFire_woken (s := s.updKrg fun k => { k with wakeLeft := 0 }) hmode 1
  exact ⟨_, rfl, h.mode, h.step, h.wakeSrc, by rw [h.krg]; rfl⟩

/-- The bit of WAKE_CFG that masks a source. -/
def wakeBit : WakeSrc → Nat
  | .wakeIn => 0
  | .t1s => 1
  | .tw0 => 2

/-- A masked source of the keep-alive domain does nothing. -/
theorem exec_wake_masked {w : WakeSrc} (hown : w ≠ .tw0)
    (hmask : s.krg.wakeMask.getLsbD (wakeBit w) = true) :
    exec (.wake w) s = .next s := by
  cases w with
  | wakeIn => exact congrArg _ (if_pos hmask)
  | t1s => exact congrArg _ (if_pos hmask)
  | tw0 => exact absurd rfl hown

/-- R480: TW0 without an address, or in service, wakes nothing. -/
theorem exec_wake_tw0_serves (h : s.otp.tw0Addr = none ∨ (s.live = true ∧ s.pw.dormStep = 0)) : exec (.wake .tw0) s = .next s := by
  refine congrArg _ (if_pos ?_)
  rcases h with haddr | ⟨hlive, hstep⟩
  · simp [State.twAddr, haddr]
  · simp [State.tw0Serves, hlive, hstep]

/-- R480: out of service the address byte of TW0 is NACKed, whatever the mask. -/
theorem exec_wake_tw0_away (haddr : s.otp.tw0Addr.isSome = true) (hlive : s.live = false) :
    exec (.wake .tw0) s = .next s.tw0Away := by
  refine congrArg _ (if_neg ?_)
  simp [State.twAddr, State.tw0Serves, hlive, Option.isSome_iff_ne_none.mp haddr]

theorem exec_wake_tw0_masked (haddr : s.otp.tw0Addr.isSome = true) (hlive : s.live = false)
    (hmask : s.krg.wakeMask.getLsbD 2 = true) : ∃ t, exec (.wake .tw0) s = .next t ∧
      t.pw = s.pw ∧ t.ch = s.ch ∧ t.tw.c0.nackWake = inc16 s.tw.c0.nackWake := by
  refine ⟨_, exec_wake_tw0_away haddr hlive, ?_⟩
  unfold State.tw0Away
  rw [if_pos hmask]
  exact ⟨rfl, rfl, rfl⟩

/-- In Dormant each source that is not masked starts the block. -/
theorem exec_wake_woken {w : WakeSrc}
    (hmask : s.krg.wakeMask.getLsbD (wakeBit w) = false) (hdormant : s.pw.mode = .dormant)
    (hown : w = .tw0 → s.otp.tw0Addr.isSome = true ∧ s.live = false) :
    ∃ t, exec (.wake w) s = .next t ∧ Woken s t (2 + wakeBit w) := by
  have hopen {b : Nat} (h : s.krg.wakeMask.getLsbD b = false) : ¬ s.krg.wakeMask.getLsbD b = true := by simp [h]
  cases w with
  | wakeIn => exact ⟨s.wakeFire 2, congrArg Host.Outcome.next (if_neg (hopen hmask)), wakeFire_woken hdormant 2⟩
  | t1s => exact ⟨s.wakeFire 3, congrArg Host.Outcome.next (if_neg (hopen hmask)), wakeFire_woken hdormant 3⟩
  | tw0 =>
    obtain ⟨haddr, hlive⟩ := hown rfl
    refine ⟨_, exec_wake_tw0_away haddr hlive, ?_⟩
    unfold State.tw0Away
    rw [if_neg (hopen (b := 2) hmask)]
    have h : Woken (s.twNack .tw0) _ 4 := wakeFire_woken (s := s.twNack .tw0) hdormant 4
    exact ⟨h.mode, h.step, h.logic, h.wakeSrc, h.cause, h.ch, h.krg⟩

/-! ### The entry to Dormant (R84, R164, Table 2.11) -/

theorem exec_dormantEntryStep_idle (hlive : s.live = true) (hstep : s.pw.dormStep = 3) (hidle : s.cv.mode = .idle)
    (hfree : s.fr.freeze = false) :
    exec .dormantEntryStep s = .next { s.dormHold with pw := { s.dormHold.pw with dormStep := 4 } } := by
  have hends : (s.cv.mode == .idle && !s.fr.freeze) = true := by simp [hidle, hfree]
  simp only [exec, execDormantEntryStep, hlive, hstep, hends, Bool.not_true, Bool.false_eq_true, if_false, if_true, State.updPw]

/-- R45: step 3 waits for the converter, and for a freeze that holds the gates. -/
theorem exec_dormantEntryStep_waits (hlive : s.live = true) (hstep : s.pw.dormStep = 3)
    (hbusy : s.cv.mode ≠ .idle ∨ s.fr.freeze = true) : exec .dormantEntryStep s = .next s := by
  have hends : (s.cv.mode == .idle && !s.fr.freeze) = false := by
    rcases hbusy with h | h <;> simp [h]
  simp only [exec, execDormantEntryStep, hlive, hstep, hends, Bool.not_true, Bool.false_eq_true, if_false]

theorem exec_dormantEntryStep_last (hlive : s.live = true) (hstep : s.pw.dormStep = 6) :
    exec .dormantEntryStep s = .next s.dormOff := by
  simp only [exec, execDormantEntryStep, hlive, hstep, Bool.not_true, Bool.false_eq_true, if_false]

/-- Step 7 without a wake source latched: the drive die keeps its Channels, with every sink released. -/
theorem dormOff_sleeps (hlatch : s.pw.wakeLatch = none)
    (htaken : ∀ m : Fin 64, (s.ch[m]).cmpTrip = true → (s.ch[m]).st = .tripped) :
    s.dormOff.pw.mode = .dormant ∧ s.dormOff.pw.logic = .off ∧ s.dormOff.krg.st = .dormant ∧
      s.dormOff.krg.wakeLeft = s.krg.wakeS ∧ s.dormOff.outs = [] ∧
      ∀ n : Fin 64, (s.dormOff.ch[n]).st = (s.ch[n]).st ∧ (s.dormOff.ch[n]).gate = (s.ch[n]).gate ∧
        (s.dormOff.ch[n]).sink = .none := by
  unfold State.dormOff
  extract_lets ref s0 held s1 s2
  rw [hlatch]
  refine ⟨rfl, rfl, rfl, rfl, rfl, fun n => ?_⟩
  have hch : s1.ch[n] = { s0.kept.ch[n] with sink := .none } := State.mapCh_get _ _ n
  have hs0 : s0 = s := State.compPending_eq_self htaken
  obtain ⟨hst, hgate, -⟩ := s.kept_ch n
  rw [hs0] at hch
  generalize s.kept.ch[n] = c at hch hst hgate
  show (s1.ch[n]).st = _ ∧ (s1.ch[n]).gate = _ ∧ (s1.ch[n]).sink = _
  rw [hch]
  exact ⟨hst, hgate, rfl⟩

/-- A wake source latched from step 6 on takes the block out of Dormant at once. -/
theorem dormOff_wakes {src : Nat} (hlatch : s.pw.wakeLatch = some src) : ∃ u, Woken u s.dormOff src := by
  unfold State.dormOff
  rw [hlatch]
  exact ⟨_, wakeNow_woken _ src⟩

end

/-- Settles O30: the warning, the wake sources, and the entry step by step. -/
theorem powerFailWakeAndDormantEntryAct : Obligations.PowerFailWakeAndDormantEntryAct := by
  refine ⟨⟨fun s => exec_powerFailWarning, fun s => exec_powerFailClear, fun s w => ?wake, fun s => exec_keyringWakeInterval⟩,
    fun s => exec_dormantEntryStep_idle, fun s => exec_dormantEntryStep_waits, fun s hlive hstep => ?store,
    fun s hlive hstep => ?pumps, fun s hlive hstep hlatch htaken => ⟨_, exec_dormantEntryStep_last hlive hstep, ?_⟩,
    fun s w hlive hstep hlatch => ⟨_, exec_dormantEntryStep_last hlive hstep, ?_⟩⟩
  case wake =>
    intro b
    have hb : b = wakeBit w := by cases w <;> rfl
    rw [hb]
    refine ⟨exec_wake_masked, ?_, ?_, fun hmask hdormant hown => ?_⟩
    · rintro rfl
      exact exec_wake_tw0_serves
    · rintro rfl
      exact exec_wake_tw0_masked
    · obtain ⟨t, e, h⟩ := exec_wake_woken hmask hdormant hown
      exact ⟨t, e, h.mode, h.step, h.logic, h.wakeSrc, h.cause, h.ch⟩
  case store =>
    simp only [exec, execDormantEntryStep, hlive, hstep, Bool.not_true, Bool.false_eq_true, if_false, State.updPw]
  case pumps =>
    simp only [exec, execDormantEntryStep, hlive, hstep, Bool.not_true, Bool.false_eq_true, if_false, State.updPw]
  · exact dormOff_sleeps hlatch htaken
  · obtain ⟨u, h⟩ := dormOff_wakes hlatch
    exact ⟨h.mode, h.step, h.wakeSrc⟩

end Sys2Proof.Stated
end

section
/-! ## Frames: the tick, the service slot, overruns and the restart of the CE -/
namespace Sys2Proof.Stated
open Sys2Proof Sys2Proof.Machine

section
variable {s t : State}

theorem running_fr_of_live (hlive : s.live = true) : s.fr.running = true := by
  simp only [State.live, Bool.and_eq_true] at hlive
  exact hlive.2

/-! ### The tick (R40, R42, R46) -/

/-- A tick leaves of the Frames what their advance and the cycle counts say. -/
theorem frame_fr (s : State) (i : FrameIn) :
    (s.frame i).fr = (s.fr.advance s.clk.relocking i.s5Carry).cycles i.s2Cycles i.s3Cycles := by
  unfold State.frame
  extract_lets s0 s1 s2 s3
  have h0 : Kept false s (s0.lastS5 i.s5Carry) := (Kept.refl s).fireRecord.senseFrame.switchFrame.arcFeed.lastS5
  have h1 : Kept false ((s0.lastS5 i.s5Carry).updFr fun f => f.advance (s0.lastS5 i.s5Carry).clk.relocking i.s5Carry) s1 :=
    (State.atTick_kept _ _).s0.s1
  have h2 : s2.fr = (s1.ceSlots.fr).cycles i.s2Cycles i.s3Cycles := State.updFr_fr ..
  have h3 : Kept false s2 { (when s3.drives State.placeSinks s3).netTick with linkLost := [] } :=
    ((Kept.refl s2).sendCodes.when fun _ hu => hu.placeSinks).netTick.other
  have hce : Kept false s1 s1.ceSlots := (Kept.refl s1).ceSlots
  refine h3.fr.trans (h2.trans ?_)
  rw [hce.fr, h1.fr, State.updFr_fr, h0.fr, h0.relocking]

theorem exec_frameTick {i : FrameIn} (hlive : s.live = true) : exec (.frameTick i) s = .next (s.frame i) :=
  congrArg Host.Outcome.next (if_pos hlive)

/-! ### The Class A service slot (R401, R409) -/

theorem le_foldl_max {l : List Nat} {a x : Nat} (h : x ≤ a ∨ x ∈ l) : x ≤ l.foldl max a := by
  induction l generalizing a with
  | nil => exact h.resolve_right List.not_mem_nil
  | cons y l ih =>
    refine ih ?_
    rcases h with hle | hmem
    · exact .inl (hle.trans (le_max_left a y))
    · rcases List.mem_cons.mp hmem with rfl | htail
      · exact .inl (le_max_right a x)
      · exact .inr htail

/-- Work over a list that does nothing but at one place does the work of that place. -/
theorem overL_single {α : Type} {l : List α} {f : α → State → State} {q : α} (hnodup : l.Nodup) (hq : q ∈ l)
    (hbefore : ∀ x ∈ l, x ≠ q → f x s = s) (hafter : ∀ x ∈ l, x ≠ q → f x (f q s) = f q s) : overL l f s = f q s := by
  induction l with
  | nil => exact absurd hq List.not_mem_nil
  | cons x l ih =>
    obtain ⟨hx, hnodup'⟩ := List.nodup_cons.mp hnodup
    show overL l f (f x s) = f q s
    rcases List.mem_cons.mp hq with e | hmem
    · subst e
      exact overL_eq_self fun y hy => hafter y (.tail _ hy) fun e => hx (e ▸ hy)
    · rw [hbefore x (.head l) fun e => hx (e ▸ hmem)]
      exact ih hnodup' hmem (fun y hy => hbefore y (.tail _ hy)) fun y hy => hafter y (.tail _ hy)

/-- With nothing behind a FENCE no command of a Queue goes on. -/
theorem runWaiting_eq_self {q : Fin 32} (h : (s.qs[q]).waiting = []) : s.runWaiting q = s := by
  unfold State.runWaiting
  rw [h]
  rfl

theorem runWaiting_all {l : List (Fin 32)} (h : ∀ q : Fin 32, (s.qs[q]).waiting = []) : overL l (fun q s => s.runWaiting q) s = s :=
  overL_eq_self fun q _ => runWaiting_eq_self (h q)

/-- A descriptor that was not visible at the tick is not taken. -/
theorem takeVisible_eq_self {q : Fin 32} (h : ∀ v ∈ (s.qs[q]).vis, s.fr.count ≤ v.frame) : s.takeVisible q = s := by
  unfold State.takeVisible
  split
  · rfl
  next v hv => exact if_neg (not_lt.mpr (h v (List.mem_of_mem_head? hv)))

theorem takeAll_eq_self {l : List (Fin 32)} (h : ∀ q ∈ l, ∀ v ∈ (s.qs[q]).vis, s.fr.count ≤ v.frame) : s.takeAll l = s :=
  overL_eq_self fun _ _ => overL_eq_self fun q hq => takeVisible_eq_self (h q hq)

/-- A state with the list of taken commands that it has. -/
theorem withRest_eq_self {r : List Taken} (h : s.rest = r) : { s with rest := r } = s := by
  subst h
  rfl

/-- With one descriptor visible among the Queues of a list, it alone is taken. -/
theorem takeAll_single {l : List (Fin 32)} {q : Fin 32} {v : Vis} (hnodup : l.Nodup) (hq : q ∈ l) (hvis : (s.qs[q]).vis = [v])
    (hothers : ∀ p ∈ l, p ≠ q → (s.qs[p]).vis = []) (hdone : ((s.takeVisible q).qs[q]).vis = [])
    (hkeeps : ∀ p, p ≠ q → ((s.takeVisible q).qs[p]).vis = (s.qs[p]).vis) : s.takeAll l = s.takeVisible q := by
  have hnone {u : State} {p : Fin 32} (h : (u.qs[p]).vis = []) : u.takeVisible p = u :=
    takeVisible_eq_self fun w hw => absurd (h ▸ hw) List.not_mem_nil
  have hgone {p : Fin 32} (hp : p ∈ l) : ((s.takeVisible q).qs[p]).vis = [] := by
    by_cases e : p = q
    · rw [e]
      exact hdone
    · exact (hkeeps p e).trans (hothers p hp e)
  obtain ⟨k, hk⟩ : ∃ k, s.rounds l = k + 1 := by
    have hone : 1 ≤ s.rounds l := le_foldl_max (.inr (List.mem_map.mpr ⟨q, hq, by rw [hvis]; rfl⟩))
    exact ⟨s.rounds l - 1, by omega⟩
  have hround : overL l (fun q s => s.takeVisible q) s = s.takeVisible q :=
    overL_single hnodup hq (fun p hp e => hnone (hothers p hp e)) fun p hp _ => hnone (hgone hp)
  unfold State.takeAll
  rw [hk, List.range_succ_eq_map]
  show overL _ _ (overL l (fun q s => s.takeVisible q) s) = _
  rw [hround]
  exact overL_eq_self fun _ _ => overL_eq_self fun p hp => hnone (hgone hp)

theorem took_untaken (s : State) (t : Taken) : Untaken s (s.took t) := by
  unfold State.took
  extract_lets s1
  have h1 : Untaken s s1 := s.updQ_untaken t.q (fun k => { k with nTaken := k.nTaken + 1 })
    (fun _ => rfl) fun _ => rfl
  split
  · exact h1.trans (.of_qs rfl)
  · exact h1

theorem took_outs (s : State) (t : Taken) : (s.took t).outs = s.outs ∧ (s.took t).rest = s.rest := by
  unfold State.took
  extract_lets s1
  split <;> exact ⟨rfl, rfl⟩

/-- The descriptor at the head of a ring that holds one visible descriptor is taken. -/
theorem takeRing_single {q : Fin 32} {v : Vis} (hvis : (s.qs[q]).vis = [v]) (htake : s.takeable q = true) :
    ∃ t, s.takeRing q = some (t, s.updQ q fun k => { k with sqHead := (k.sqHead + 1) % k.depth, vis := [] }) ∧ t.vis = v ∧
      t.q = q := by
  simp only [State.takeRing, hvis, htake, if_true]
  exact ⟨_, rfl, rfl, rfl⟩

/-- A descriptor that was visible at the tick is taken, and its command waits for its turn. -/
theorem takeVisible_single {q : Fin 32} {v : Vis} {t : Taken} {e : State} (hvis : (s.qs[q]).vis = [v]) (hframe : v.frame < s.fr.count)
    (he : s.takeRing q = some (t, e)) : s.takeVisible q = { e.took t with rest := e.rest ++ [t] } := by
  simp only [State.takeVisible, hvis, List.head?_cons, hframe, if_true, he]

/-- The commands taken in a service slot are executed in its own turn: one of them, where no other waits. -/
theorem classASlot_single {t : Taken} {u : State} (hrest : s.rest = []) (hu : u.rest = [])
    (h : s.takeAll (s.queuesOf .a) = { u with rest := [t] }) : s.classASlot = u.begin t perform := by
  have hs : ({ s with rest := [] } : State) = s := withRest_eq_self hrest
  unfold State.classASlot
  extract_lets s1
  have hs1 : s1 = { u with rest := [t] } := by
    unfold s1
    rw [hs, h]
  rw [hs1, hrest]
  show ({ u with rest := [] } : State).begin t perform = _
  rw [withRest_eq_self hu]

theorem updQ_congr {q : Fin 32} {f g : Queue → Queue} (h : f s.qs[q] = g s.qs[q]) : s.updQ q f = s.updQ q g := by
  unfold State.updQ
  rw [h]

/-- R401: the slot takes the one visible descriptor of Class A. -/
theorem exec_classAServiceSlot_single {q : Fin 32} {v : Vis} (hlive : s.live = true) (hslot : s.fr.count % 25 = 0) (hrest : s.rest = [])
    (hwait : ∀ p : Fin 32, (s.qs[p]).waiting = []) (hcls : (s.qs[q]).cls = .a) (hvis : (s.qs[q]).vis = [v])
    (hframe : v.frame < s.fr.count) (htake : s.takeable q = true)
    (hothers : ∀ p : Fin 32, p ≠ q → (s.qs[p]).cls = .a → (s.qs[p]).vis = []) :
    ∃ t e, s.takeRing q = some (t, e) ∧ t.vis = v ∧ (e.qs[q]).vis = [] ∧
      (e.qs[q]).sqHead = ((s.qs[q]).sqHead + 1) % (s.qs[q]).depth ∧
      (s.fenced q = false → exec .classAServiceSlot s = .next (perform t (e.took t))) ∧
      (s.fenced q = true → exec .classAServiceSlot s = .next ((e.took t).updQ q fun k => { k with waiting := [t] })) := by
  obtain ⟨t, he, htvis, htq⟩ := takeRing_single hvis htake
  generalize hE : (s.updQ q fun k => { k with sqHead := (k.sqHead + 1) % k.depth, vis := [] }) = e at he
  have heq : e.qs[q] = { s.qs[q] with sqHead := ((s.qs[q]).sqHead + 1) % (s.qs[q]).depth, vis := [] } := by
    rw [← hE]
    exact s.updQ_same ..
  have heother (p : Fin 32) (hp : p ≠ q) : e.qs[p] = s.qs[p] := by
    rw [← hE]
    exact s.updQ_other _ _ _ hp
  obtain ⟨heouts, herest⟩ : e.outs = s.outs ∧ e.rest = [] := by
    rw [← hE]
    exact ⟨rfl, hrest⟩
  obtain ⟨htvisAll, htwait⟩ := took_untaken e t
  obtain ⟨htouts, htrest⟩ := took_outs e t
  have hnext : s.takeVisible q = { e.took t with rest := [t] } := by
    rw [takeVisible_single hvis hframe he, herest]
    rfl
  have hmem {p : Fin 32} : p ∈ s.queuesOf .a → (s.qs[p]).cls = .a := fun hp => by
    simp only [State.queuesOf, List.mem_filter, Bool.and_eq_true, beq_iff_eq] at hp
    exact hp.2.1
  have hq : q ∈ s.queuesOf .a := by
    simp only [State.takeable, Bool.and_eq_true] at htake
    simp only [State.queuesOf, List.mem_filter, Bool.and_eq_true, beq_iff_eq, hcls, true_and]
    exact ⟨List.mem_finRange q, htake.1.1.1.2⟩
  have hall : s.takeAll (s.queuesOf .a) = { e.took t with rest := [t] } := by
    rw [← hnext]
    refine takeAll_single ((List.nodup_finRange 32).filter _) hq hvis (fun p hp e => hothers p e (hmem hp)) ?_ fun p hp => ?_
    · rw [hnext]
      exact (htvisAll q).trans (by rw [heq])
    · rw [hnext]
      exact (htvisAll p).trans (by rw [heother p hp])
  have hdue : (s.live && s.fr.count % 25 == 0) = true := by simp [hlive, hslot]
  have hexec : exec .classAServiceSlot s = .next ((e.took t).begin t perform) := by
    refine congrArg Host.Outcome.next ((if_pos hdue).trans ?_)
    rw [runWaiting_all hwait]
    exact classASlot_single hrest (htrest.trans herest) hall
  have hfence : (e.took t).fenced t.q = s.fenced q := by
    unfold State.fenced
    rw [htouts, heouts, htq]
  have hnone : ((e.took t).qs[t.q]).waiting = [] := by
    rw [htwait, htq, heq]
    exact hwait q
  refine ⟨t, e, he, htvis, by rw [heq], by rw [heq], fun hfree => ?_, fun hheld => ?_⟩
  · have hopen : ((e.took t).fenced t.q || !((e.took t).qs[t.q]).waiting.isEmpty) = false := by
      rw [hfence, hfree, hnone]
      rfl
    rw [hexec, State.begin, if_neg (Bool.eq_false_iff.mp hopen)]
  · have hupd : ((e.took t).updQ t.q fun k => { k with waiting := k.waiting ++ [t] }) =
        (e.took t).updQ t.q fun k => { k with waiting := [t] } := by
      refine updQ_congr ?_
      rw [hnone]
      rfl
    rw [hexec, State.begin, if_pos (by simp [hfence, hheld]), hupd, htq]

theorem exec_classAServiceSlot_none (hwait : ∀ p : Fin 32, (s.qs[p]).waiting = [])
    (hvis : ∀ p : Fin 32, (s.qs[p]).cls = .a → ∀ v ∈ (s.qs[p]).vis, s.fr.count ≤ v.frame) :
    exec .classAServiceSlot s = .next s := by
  refine congrArg Host.Outcome.next ?_
  split
  · rw [runWaiting_all hwait]
    have hall : ({ s with rest := [] } : State).takeAll (s.queuesOf .a) = { s with rest := [] } := by
      refine takeAll_eq_self fun p hp => ?_
      simp only [State.queuesOf, List.mem_filter, Bool.and_eq_true, beq_iff_eq] at hp
      exact hvis p hp.2.1
    unfold State.classASlot
    rw [hall]
    rfl
  · rfl

/-! ### Overruns, and the restart of the CE (R44, R45, R47, R296) -/

/-- R45: the overrun's record and its freeze, before it is counted. -/
def overrunSeen (s : State) (k : Fin 4) : State :=
  ((s.iceRecord 0x0721 rDevice 2 (le 4 (k.val + 1) ++ le 4 s.fr.count)).updFr fun f => { f with freeze := true, cleanRun := 0 }).updHinge
    fun h => { h with badPeriod := true }

theorem exec_frameOverrun (hlive : s.live = true) (k : Fin 4) :
    exec (.frameOverrun k) s = .next (overrunSeen s k).overrunCount := congrArg Host.Outcome.next (if_pos hlive)

theorem overrunSeen_keeps (s : State) (k : Fin 4) : (overrunSeen s k).fr = { s.fr with freeze := true, cleanRun := 0 } ∧
    (overrunSeen s k).ch = s.ch ∧ (overrunSeen s k).cv = s.cv := by
  obtain ⟨i, hi⟩ := s.iceRecord_ex 0x0721 rDevice 2 (le 4 (k.val + 1) ++ le 4 s.fr.count)
  unfold overrunSeen
  rw [hi]
  exact ⟨rfl, rfl, rfl⟩

/-- A second overrun in its Frame is not counted. -/
theorem overrunCount_again (h : s.fr.overNow = true) : s.overrunCount = s := if_pos h

theorem overrunCount_first (h : s.fr.overNow = false) (hrun : s.fr.overRun < 63) :
    s.overrunCount = s.updFr fun f => { f with overNow := true, overRun := f.overRun + 1 } := by
  unfold State.overrunCount
  rw [if_neg (by simp [h])]
  exact if_neg (not_le.mpr (Nat.succ_lt_succ hrun))

/-- The 64th Frame in a row with an overrun halts the CE. -/
theorem overrunCount_last (h : s.fr.overNow = false) (hrun : s.fr.overRun = 63) : s.overrunCount =
    ((s.updFr fun f => { f with overNow := true, overRun := 0 }).setFault 1).ceHalt := by
  unfold State.overrunCount
  rw [if_neg (by simp [h])]
  exact if_pos (by simp [State.updFr, hrun])

/-- A cause that does not end in IDLE is recorded, and sets no fault of its own. -/
theorem cvFault_hpt {cause ph : Nat} (hidle : respIdle cause = false) : (s.cvFault cause ph).hpt = s.hpt := by
  obtain ⟨i, hi⟩ := s.iceRecord_ex 0x0220 rConv 2 (le 2 cause ++ le 2 ph ++ le 4 ((s.cv.faultNewest cause).seq + 1))
  have hend (u : State) (a : Bool) : (u.injEnd a).hpt = u.hpt := by
    unfold State.injEnd
    split <;> rfl
  unfold State.cvFault
  extract_lets old seq s1 s2 _ s3
  have hs3 : s3.hpt = s.hpt := by
    refine (hend _ true).trans ?_
    unfold s2 s1
    rw [hi]
    split <;> rfl
  rw [hidle]
  exact hs3

/-- The halt of a CE that had none within the last second. -/
theorem ceHalt_halts (h : s.fr.ceFaultAt = none) : s.ceHalt.fr.ceHalted = true ∧ s.ceHalt.fr.freeze = true ∧
    s.ceHalt.fr.count = s.fr.count ∧ s.ceHalt.hpt = s.hpt := by
  have hhalt : s.ceHalt = (s.updFr fun f => { f with
      ceHalted := true, freeze := true, cleanRun := 0, ceFaultAt := some f.count }).cvFault 10 0xFFFF := by
    unfold State.ceHalt
    rw [h]
    rfl
  rw [hhalt, (Kept.cvFault (.refl _)).fr, cvFault_hpt rfl]
  exact ⟨rfl, rfl, rfl, rfl⟩

/-- A restart of the CE leaves Frames, Channels and the converter to the law that starts again; the AUX laws start again after it. -/
theorem auxReinit_keeps (s : State) : (overL allAux (fun r s => s.auxReinit r) s).fr = s.fr ∧
    (overL allAux (fun r s => s.auxReinit r) s).ch = s.ch ∧ (overL allAux (fun r s => s.auxReinit r) s).cv = s.cv := by
  refine overL_rel (R := fun s t => t.fr = s.fr ∧ t.ch = s.ch ∧ t.cv = s.cv) (fun _ => ⟨rfl, rfl, rfl⟩) ?_ _ _ (fun r u => ?_) s
  · rintro s t u ⟨hfr, hch, hcv⟩ ⟨kfr, kch, kcv⟩
    exact ⟨kfr.trans hfr, kch.trans hch, kcv.trans hcv⟩
  · unfold State.auxReinit
    split <;> exact ⟨rfl, rfl, rfl⟩

theorem injEnd_keeps (s : State) (a : Bool) : (s.injEnd a).fr = s.fr ∧ (s.injEnd a).ch = s.ch ∧ (s.injEnd a).cv = s.cv := by
  unfold State.injEnd
  split <;> exact ⟨rfl, rfl, rfl⟩

/-- R296: the law of a mode starts from the latched currents, its generator at rest at the latched output. -/
theorem initLaw_starts (s : State) (m : CvMode) (target : ℚ) : (s.initLaw m target).fr = s.fr ∧ (s.initLaw m target).ch = s.ch ∧
    (s.initLaw m target).cv.law = m ∧
    (s.initLaw m target).cv.integ = single ((s.switching.map fun p => if m = .boost then |s.iPh p| else s.iFlow m p).sum) ∧
    (s.initLaw m target).cv.gen = s.cv.gen.restAt (s.cvOut m) target := by
  unfold State.initLaw
  extract_lets dff sum start init
  obtain ⟨hfr, hch, hcv⟩ := injEnd_keeps (s.updCv fun c => { c with
    law := m, integ := single start, e1 := 0, e2 := 0, x1 := 0, x2 := 0, demand := sum, d1 := sum, d2 := sum
    vfb := s.cvOut m, err := 0, dff := dff, vffen := s.cvf Fld.VFFEN == 1
    gen := c.gen.restAt (s.cvOut m) target, iff' := 0, profiles := [], addRun := 0, dwell := 0, skip := false, skipRun := 0
    ph := c.ph.map init }) true
  rw [hfr, hch, hcv]
  refine ⟨rfl, rfl, rfl, ?_, rfl⟩
  show single start = _
  unfold start sum
  by_cases hb : m = .boost <;> simp [hb]

theorem exec_ceRestart (hlive : s.live = true) (hhalt : s.fr.ceHalted = true) : ∃ t, exec .ceRestart s = .next t ∧
    t.fr = { s.fr with ceHalted := false, cleanRun := 0 } ∧ t.ch = s.ch ∧ t.cv.law = s.cv.law ∧
    (s.cv.law ≠ .idle → t.cv.integ = single ((s.switching.map fun p =>
        if s.cv.law = .boost then |s.iPh p| else s.iFlow s.cv.law p).sum) ∧
      t.cv.gen = s.cv.gen.restAt (s.cvOut s.cv.law) s.cv.gen.target) := by
  have hdue : (s.live && s.fr.ceHalted) = true := by simp [hlive, hhalt]
  refine ⟨_, congrArg Host.Outcome.next (if_pos hdue), ?_⟩
  extract_lets s1 s2
  obtain ⟨hfr, hch, hcv⟩ := auxReinit_keeps s2
  rw [hfr, hch, hcv]
  unfold s2
  split
  next hidle =>
    obtain ⟨kfr, kch, kcv⟩ := injEnd_keeps s1 true
    rw [kfr, kch, kcv]
    exact ⟨rfl, rfl, rfl, fun h => absurd (beq_iff_eq.mp hidle) h⟩
  next =>
    obtain ⟨kfr, kch, klaw, kinteg, kgen⟩ := initLaw_starts s1 s1.cv.law s1.cv.gen.target
    rw [kfr, kch, klaw, kinteg, kgen]
    exact ⟨rfl, rfl, rfl, fun _ => ⟨rfl, rfl⟩⟩

end
end Sys2Proof.Stated
end

section
/-! ## The Period boundary, and what it, the tick, the slots and overruns do -/
namespace Sys2Proof.Stated
open Sys2Proof Sys2Proof.Machine

section
variable {s t : State}

/-- What an operation of a Period's work keeps, any operation keeps, the figures apart. -/
theorem kept_any {m : Bool} (h : Kept m s t) : Kept false s t := { h with metered := nofun }

theorem live_kept {m : Bool} (h : Kept m s t) : t.live = s.live := by
  unfold State.live
  rw [h.logic, h.fr]

/-! ### Staged writes at a boundary (R437) -/

theorem hingeEnter_staged (s : State) (dst : HingeState) (cause : Nat) : (s.hingeEnter dst cause).staged = s.staged := by
  unfold State.hingeEnter State.sendStatus
  extract_lets s1
  split
  · rw [State.sendMsg_staged, State.postRec_staged]
    rfl
  · rw [State.postRec_staged]
    rfl

theorem hingeTest_staged (s : State) : s.hingeTest.staged = s.staged := by
  unfold State.hingeTest
  extract_lets mask s1 s2 h
  have hs2 : s2.staged = s.staged := by
    unfold s2
    split
    · rfl
    · rw [State.postRec_staged]
      rfl
  clear_value s2
  split
  · rfl
  · split
    · split
      · split
        · exact (hingeEnter_staged ..).trans hs2
        · split <;> exact hs2
      · split
        · exact (hingeEnter_staged ..).trans hs2
        · exact hs2
    · rfl

/-- Where nothing is staged the settings in force go to Firn, and that is all. -/
theorem applyDue_nil {due : DueAt} (h : s.staged = []) : s.applyDue due = s.storeSettings := by
  have hs : ({ s with staged := [] } : State) = s := by
    rw [← h]
  unfold State.applyDue
  extract_lets s1 s2
  have hs2 : s2 = s.storeSettings := by
    unfold s2 s1
    rw [h]
    exact congrArg State.storeSettings hs
  have hcvf (f : Fld) : s2.cvf f = s.cvf f := by
    rw [hs2]
    unfold State.storeSettings
    generalize s.upd.storeSet s.settings = u
    split <;> rfl
  rw [hcvf, hcvf, if_pos (by simp), hs2]

/-! ### The thermal work of a Period -/

/-- The thermal shutdown ends Frames, and holds the logic die (R574). -/
structure ShutDown (s t : State) : Prop where
  mode : t.pw.mode = .shutdown
  live : t.live = false
  fr : t.fr = { s.fr with running := false }

theorem thShutdown_outcome (s : State) (code src : Nat) (v : Int) :
    Kept true s (s.thShutdown code src v) ∨ ShutDown s (s.thShutdown code src v) := by
  unfold State.thShutdown
  split
  · exact .inl (.refl s)
  · refine .inr ?_
    extract_lets release s1 s2 s3 s4 pl s5 _ s6
    have h5 : Kept false s s5 := (Kept.refl s).updTh.setFault.cvFault.iceRecord.iceRecord.postOnly.iceFlushed.allOff
    have h6 : Kept false s s6 := .ite h5.other h5.updZone
    clear_value s6
    exact ⟨rfl, rfl, congrArg (fun f : Machine.Frm => { f with running := false }) h6.fr⟩

theorem ShutDown.of_kept {m : Bool} (k : Kept m s t) {u : State} (h : ShutDown t u) : ShutDown s u :=
  ⟨h.mode, h.live, by rw [h.fr, k.fr]⟩

theorem thPeriod_outcome (s : State) : Kept true s s.thPeriod ∨ ShutDown s s.thPeriod := by
  unfold State.thPeriod
  extract_lets s1
  have h1 : Kept true s s1 := (Kept.refl s).aside.thSense.thNtc
  have shutdown (code src : Nat) (v : Int) : Kept true s (s1.thShutdown code src v) ∨ ShutDown s (s1.thShutdown code src v) :=
    (thShutdown_outcome s1 code src v).imp h1.trans (.of_kept h1)
  split
  · exact shutdown ..
  · split
    · exact shutdown ..
    · exact .inl h1.thLevel.thRestore

/-! ### The meters (R171) and the commands of a Period -/

/-- The figures of a Channel whose Period ends. -/
def closedFigures (c : Chan) : ℚ × ℚ × ℚ × ℚ × Nat := (c.sumI / 250, c.sumV / 250, 0, 0, 0)

theorem meterPeriod_figures (p : PeriodIn) (hheld : s.s5Held = []) :
    Untaken s (s.meterPeriod p) ∧ (s.meterPeriod p).rest = s.rest ∧
      ∀ n : Fin 64, ((s.meterPeriod p).ch[n]).figures = closedFigures s.ch[n] := by
  have hs : s.meterHeld = s := by
    unfold State.meterHeld
    rw [hheld]
    show { s with s5Held := [] } = s
    rw [← hheld]
  unfold State.meterPeriod
  rw [hs]
  extract_lets u frames ch
  have hch (n : Fin 64) : (ch[n]).figures = closedFigures s.ch[n] := by
    rw [show ch[n] = s.chanPeriod n from Vector.getElem_ofFn n.isLt]
    rfl
  have k : Kept true { s with ch := ch } ((({ s with ch := ch } : State).imbalance frames).ttlPeriod) :=
    (Kept.refl _).imbalance.ttlPeriod
  clear_value ch frames
  obtain ⟨htaken, hfigures, -, hrest⟩ := k.metered rfl
  exact ⟨(Untaken.of_qs (s := s) (t := { s with ch := ch }) rfl).trans htaken, hrest, fun n => (hfigures n).trans (hch n)⟩

/-- With nothing visible, nothing behind a FENCE and nothing left of a batch, the boundary executes no command. -/
theorem commands_eq_self (hrest : s.rest = []) (hvis : ∀ q : Fin 32, (s.qs[q]).vis = [])
    (hwait : ∀ q : Fin 32, (s.qs[q]).waiting = []) : s.commands = s := by
  have hall (l : List (Fin 32)) : s.takeAll l = s :=
    takeAll_eq_self fun q _ v hv => absurd (hvis q ▸ hv) List.not_mem_nil
  have hbatch : s.batch = s := by
    unfold State.batch
    rw [hall, hall]
    unfold State.runRest
    rw [hrest]
    rfl
  unfold State.commands
  rw [runWaiting_all hwait]
  extract_lets s1
  have hs1 : s1 = s := hbatch
  rw [hs1]
  exact runWaiting_all hwait

/-- The work that goes before the meters keeps the figures, and what is still to be executed. -/
theorem beforeThermal_kept (hstaged : s.staged = []) : Kept true s ((s.hingeTest.applyDue .period).periodDone) := by
  rw [applyDue_nil ((hingeTest_staged s).trans hstaged)]
  exact (Kept.refl s).hingeTest.storeSettings.periodDone

/-- The work of Table 2.2 behind the thermal work and before the commands. -/
def metersAndAfter (s : State) (p : PeriodIn) : State :=
  let s2 := (s.meterPeriod p).energyPeriod.creepPeriod
  let s3 := overL (List.finRange 4) (fun (b : Fin 4) s => s.supplyCheck b) (s2.slicePeriod p)
  s3.snapPeriod.snapRecord.figures.hingePeriod

theorem metersAndAfter_kept (s : State) (p : PeriodIn) : Kept true (s.meterPeriod p) (metersAndAfter s p) :=
  ((Kept.refl _).energyPeriod.creepPeriod.slicePeriod.overL fun _ _ hu => hu.supplyCheck).snapPeriod.snapRecord.figures.hingePeriod

theorem period_eq (s : State) (p : PeriodIn) : s.period p =
    if (((s.hingeTest.applyDue .period).periodDone).thPeriod).live then
      (metersAndAfter ((s.hingeTest.applyDue .period).periodDone).thPeriod p).commands
    else ((s.hingeTest.applyDue .period).periodDone).thPeriod := by
  unfold State.period metersAndAfter
  extract_lets s1 s2 s3
  by_cases h : s1.live = true
  · rw [if_pos h, if_neg (by simp [h])]
  · rw [if_neg h, if_pos (by simp [h])]

theorem period_fr (hlive : s.live = true) (p : PeriodIn) : (s.period p).fr = { s.fr with running := (s.period p).live } ∧
    ((s.period p).live = false → (s.period p).pw.mode = .shutdown) := by
  have hrun : s.fr.running = true := running_fr_of_live hlive
  have hkeep {t : State} (k : Kept false s t) :
      t.fr = { s.fr with running := t.live } ∧ (t.live = false → t.pw.mode = .shutdown) := by
    rw [live_kept k, hlive, k.fr, ← hrun]
    exact ⟨rfl, fun h => absurd (hrun.symm.trans h) (by decide)⟩
  have h0 : Kept false s ((s.hingeTest.applyDue .period).periodDone) := (Kept.refl s).hingeTest.applyDue.periodDone
  rw [period_eq]
  split
  next hl =>
    refine hkeep ?_
    rcases thPeriod_outcome ((s.hingeTest.applyDue .period).periodDone) with hth | hdown
    · have h1 := h0.trans (kept_any hth)
      exact (h1.meterPeriod.trans (kept_any (metersAndAfter_kept _ p))).commands
    · exact absurd hl (by simp [hdown.live])
  next hl =>
    rcases thPeriod_outcome ((s.hingeTest.applyDue .period).periodDone) with hth | hdown
    · exact absurd (((live_kept hth).trans (live_kept h0)).trans hlive) hl
    · have hdown' : ShutDown s _ := .of_kept h0 hdown
      exact ⟨by rw [hdown'.live, hdown'.fr], fun _ => hdown'.mode⟩

theorem period_figures (hheld : s.s5Held = []) (hstaged : s.staged = []) (hrest : s.rest = [])
    (hidle : ∀ q : Fin 32, (s.qs[q]).vis = [] ∧ (s.qs[q]).waiting = []) (p : PeriodIn) (hl : (s.period p).live = true) (n : Fin 64) :
    ((s.period p).ch[n]).figures = closedFigures s.ch[n] := by
  have h0 := beforeThermal_kept hstaged
  rw [period_eq] at hl ⊢
  generalize (s.hingeTest.applyDue .period).periodDone = u at h0 hl ⊢
  split at hl
  next hlu =>
    rcases thPeriod_outcome u with hth | hdown
    · obtain ⟨⟨hvis, hwait⟩, hfigures, hheld', hrest'⟩ := (h0.trans hth).metered rfl
      rw [if_pos hlu]
      obtain ⟨hmeters, hmrest, hmfig⟩ := meterPeriod_figures p (hheld'.trans hheld)
      obtain ⟨⟨kvis, kwait⟩, kfigures, -, krest⟩ := (metersAndAfter_kept u.thPeriod p).metered rfl
      rw [commands_eq_self (krest.trans (hmrest.trans (hrest'.trans hrest)))
        (fun q => (kvis q).trans ((hmeters.vis q).trans ((hvis q).trans (hidle q).1)))
        fun q => (kwait q).trans ((hmeters.waiting q).trans ((hwait q).trans (hidle q).2))]
      refine (kfigures n).trans ((hmfig n).trans ?_)
      have hsums := hfigures n
      simp only [Chan.figures, Prod.mk.injEq] at hsums
      obtain ⟨-, -, hi, hv, -⟩ := hsums
      rw [closedFigures, closedFigures, hi, hv]
    · exact absurd hlu (by simp [hdown.live])
  next hlu => exact absurd hl hlu

theorem exec_periodBoundary (hlive : s.live = true) (hdue : s.fr.count % 250 = 0) (p : PeriodIn) :
    exec (.periodBoundary p) s = .next (s.period p) := by
  refine congrArg Host.Outcome.next (if_pos ?_)
  simp [hlive, hdue]

end

/-- Settles O31: the tick from the advance of the Frames, the boundary from the operations that keep a Channel's figures, the service
slot from the one visible descriptor, and the overruns from their count. -/
theorem ticksRunTheSlotsAndOverrunsFreeze : Obligations.TicksRunTheSlotsAndOverrunsFreeze := by
  refine ⟨⟨fun s i hlive => ⟨_, exec_frameTick hlive, ?tick⟩, fun s i hlive => exec_frameTick hlive,
      fun s i hdead => congrArg _ (if_neg (by simp [hdead])), fun s p hlive hdue => ⟨_, exec_periodBoundary hlive hdue p, ?boundary⟩,
      fun s p hnot => congrArg _ (if_neg ?notDue), fun s q v hlive hslot hrest hwait hcls hvis hframe htake hothers =>
        exec_classAServiceSlot_single hlive hslot hrest hwait hcls hvis hframe htake hothers,
      fun s => exec_classAServiceSlot_none, fun s hnot => congrArg _ (if_neg ?noSlot)⟩,
    fun s k hlive hfirst hrun => ⟨_, exec_frameOverrun hlive k, ?first⟩, fun s k hlive hagain => ⟨_, exec_frameOverrun hlive k, ?again⟩,
    fun s k hlive hfirst hrun hfault => ⟨_, exec_frameOverrun hlive k, ?last⟩,
    fun s k hdead => congrArg _ (if_neg (by simp [hdead])), fun s => exec_ceRestart, fun s hnot => congrArg _ (if_neg ?noRestart)⟩
  case tick =>
    rw [frame_fr]
    refine ⟨rfl, rfl, rfl, running_fr_of_live hlive, rfl, rfl, rfl, rfl, ?_, rfl⟩
    simp only [Frm.cycles, Frm.advance, Bool.and_eq_true, Bool.not_eq_true', Bool.and_eq_false_iff, decide_eq_false_iff_not,
      Bool.not_eq_false', not_le, ge_iff_le, or_assoc]
  case boundary =>
    obtain ⟨hfr, hmode⟩ := period_fr hlive p
    refine ⟨hfr, hmode, fun hheld hstaged _ hrest hidle hl n => ?_⟩
    have hn := period_figures hheld hstaged hrest hidle p hl n
    simp only [Chan.figures, closedFigures, Prod.mk.injEq] at hn
    exact hn
  case notDue => rcases hnot with h | h <;> simp [h]
  case noSlot => rcases hnot with h | h <;> simp [h]
  case noRestart => rcases hnot with h | h <;> simp [h]
  case first =>
    obtain ⟨hfr, hch, hcv⟩ := overrunSeen_keeps s k
    rw [overrunCount_first (by rw [hfr]; exact hfirst) (by rw [hfr]; exact hrun)]
    exact ⟨by rw [State.updFr_fr, hfr], hch, hcv⟩
  case again =>
    obtain ⟨hfr, hch, hcv⟩ := overrunSeen_keeps s k
    rw [overrunCount_again (by rw [hfr]; exact hagain)]
    exact ⟨hfr, hch, hcv⟩
  case last =>
    obtain ⟨hfr, -, -⟩ := overrunSeen_keeps s k
    rw [overrunCount_last (by rw [hfr]; exact hfirst) (by rw [hfr]; exact hrun)]
    obtain ⟨hhalt, hfreeze, hcount, hhpt⟩ := ceHalt_halts (s := ((overrunSeen s k).updFr fun f =>
      { f with overNow := true, overRun := 0 }).setFault 1) (by show (overrunSeen s k).fr.ceFaultAt = none; rw [hfr]; exact hfault)
    refine ⟨hhalt, hfreeze, hcount.trans ?_, ?_⟩
    · show (overrunSeen s k).fr.count = _
      rw [hfr]
    · rw [hhpt]
      show ((overrunSeen s k).hpt ||| (1#9 <<< 1)).getLsbD 1 = true
      simp

end Sys2Proof.Stated
end

section
/-! ## Commands that stage writes: owners, Queues, the violation log, wake sources, sense and capture -/
namespace Sys2Proof.Stated
open Sys2Proof Sys2Proof.Machine

/-! ### Accepted commands and the writes that they stage (R437) -/

theorem stage_eq_withStaged (e : State) (t : Taken) (due : DueAt) (writes : List (FKey × Nat)) (result : List Byte) :
    e.stage t due writes result = withStaged e t due writes result := by
  cases due with
  | tick => rfl
  | block => rfl
  | period => rfl

/-- A command that comes after its own checks and whose effect is to stage writes stages them whenever it is accepted. -/
theorem stages_of_guarded {c : Instr} {op : Nat} {q : Fin 32} {d : CmdArgs} {f : Taken → State → State} {due : DueAt}
    {writes : Taken → List (FKey × Nat)} (hexec : ∀ s, exec c s = .next (s.rowCmd f op q d))
    (heff : ∀ s, f (taken s q op d) (entered s q op d) = (entered s q op d).guarded (taken s q op d)
      (ownChecks c (taken s q op d) (entered s q op d)) fun e => e.stage (taken s q op d) due (writes (taken s q op d))) :
    Stages c op q d (fun _ _ => due) (fun t _ => writes t) fun _ => [] := by
  intro s haccepted t e
  rw [← stage_eq_withStaged]
  exact exec_accepted (eff := fun e => e.stage t due (writes t)) haccepted (hexec s) (heff s)

/-- R443, R444: an accepted command that needs a credential has one that verifies, and spends its count. -/
theorem State.guardedCred_eq_effect {s : State} {t : Taken} {need : Bool} {extra : List (Nat × Bool)} {r : OpRow}
    (hr : opRow t.op.toNat = some r)
    (hpassed : ∀ p ∈ baseChecks r t s ++ (0x10, need && !s.credOk t) :: extra, p.2 = false) (eff : State → State) :
    s.guardedCred t need extra eff = eff (if need then s.takeCount t else s) := by
  have hcred : (need && !s.credOk t) = false := hpassed (0x10, _) (List.mem_append_right _ List.mem_cons_self)
  rw [hcred] at hpassed
  have hall : firstStatus (baseChecks r t s ++ (0x10, false) :: extra) = none := firstStatus_eq_none hpassed
  have hearly : firstStatus (baseChecks r t s ++ extra) = none := (firstStatus_skip_passed ..).symm.trans hall
  cases need with
  | false =>
    simp only [State.guardedCred, Bool.false_and, Bool.false_eq_true, if_false]
    exact State.guarded_eq_effect hr hall eff
  | true =>
    have hok : s.credOk t = true := by simpa using hcred
    simp only [State.guardedCred, hok, hr, hearly, Bool.and_self, Bool.not_true, Bool.not_false, Bool.and_false, if_true]
    exact State.guarded_eq_effect (s := s.takeCount t) hr hall eff

/-- OWNER_RES (R381, R443): a move of a Class A Channel spends the count of its credential. -/
theorem exec_ownerRes_accepted {q : Fin 32} {d : CmdArgs} {s : State} (haccepted : Accepted (.ownerRes q d) s q 0x0706 d) :
    let t := taken s q 0x0706 d
    let e := entered s q 0x0706 d
    let moves := (ownedUnits t.target).any fun r =>
      if h : r < 64 then (e.ch[r]).tmb.classA && (e.ownerOf r).val != t.p 16 1 else false
    exec (.ownerRes q d) s = .next (withStaged (if moves then e.takeCount t else e) t .tick
      [(⟨kOwnerRes, t.target, 0, 0⟩, t.p 16 1)] []) := by
  obtain ⟨hready, r, hr, hpassed⟩ := haccepted
  intro t e moves
  have hrow : exec (.ownerRes q d) s = .next (cmdOwnerRes t e) := congrArg Host.Outcome.next (rowCmd_atOnce hready ..)
  rw [hrow, ← stage_eq_withStaged]
  exact congrArg Host.Outcome.next (State.guardedCred_eq_effect (opRow_ofNat hr) hpassed
    fun e => e.stage t .tick [(⟨kOwnerRes, t.target, 0, 0⟩, t.p 16 1)])

/-- Settles O16: each is an accepted command whose effect is to stage its writes (of Q_CTL, log 105); OWNER_RES comes after its
credential. -/
theorem ownerQueueAndSenseCommandsStageTheirWrites : Obligations.OwnerQueueAndSenseCommandsStageTheirWrites := by
  refine ⟨⟨fun q d => ⟨?ownerMap, ?qCfg, ?disable, ?enable, ?restart, ?vioClear, ?wakeCfg⟩,
    fun q d s haccepted => exec_ownerRes_accepted haccepted⟩, fun q d => ⟨?mask, ?gain, ?filter, ?inj, ?zone⟩⟩
  case ownerMap => exact stages_of_guarded (f := cmdOwnerMap) (fun _ => rfl) fun _ => rfl
  case qCfg => exact stages_of_guarded (f := cmdQCfg) (fun _ => rfl) fun _ => rfl
  case disable => exact stages_of_guarded (f := cmdQCtl) (fun _ => rfl) fun _ => rfl
  case enable => exact stages_of_guarded (f := cmdQCtl) (fun _ => rfl) fun _ => rfl
  case restart => exact stages_of_guarded (f := cmdQCtl) (fun _ => rfl) fun _ => rfl
  case vioClear => exact stages_of_guarded (f := cmdVioClear) (fun _ => rfl) fun _ => rfl
  case wakeCfg => exact stages_of_guarded (f := cmdWakeCfg) (fun _ => rfl) fun _ => rfl
  case mask => exact stages_of_guarded (f := cmdSnsMask) (fun _ => rfl) fun _ => rfl
  case gain => exact stages_of_guarded (f := cmdSnsGain) (fun _ => rfl) fun _ => rfl
  case filter => exact stages_of_guarded (f := cmdSnsFilter) (fun _ => rfl) fun _ => rfl
  case inj => exact stages_of_guarded (f := cmdSnsInj) (fun _ => rfl) fun _ => rfl
  case zone => exact stages_of_guarded (f := cmdSnsZone) (fun _ => rfl) fun _ => rfl

/-! ### Capture (R124-R129, R468) -/

@[simp] theorem entered_cap (s : State) (q : Fin 32) (op : Nat) (d : CmdArgs) : (entered s q op d).cap = s.cap := by
  unfold entered
  dsimp only
  split
  · rfl
  · rfl

/-- CAP_READ completes with the words of its stream (R125, R128). -/
theorem exec_capRead_accepted {s : State} {q : Fin 32} {d : CmdArgs} (haccepted : Accepted (.capRead q d) s q 0x0514 d) :
    let t := taken s q 0x0514 d
    let e := entered s q 0x0514 d
    let c := e.cap[streamIx t]
    exec (.capRead q d) s = .next (e.complete t 0 (some e.fr.count) (le 4 c.words.length ++ le 4 c.trigIdx)
      (capBytes c.src (c.words.drop (t.p 16 4)))) := by
  intro t e c
  refine exec_accepted (f := cmdCapRead) (eff := fun u => u.complete t 0 (some u.fr.count)
    (le 4 c.words.length ++ le 4 c.trigIdx) (capBytes c.src (c.words.drop (t.p 16 4)))) haccepted rfl ?_
  dsimp only [cmdCapRead, ownChecks]

/-- CAP_NET puts the stream at the end of the sending list, or takes it from the list (R468). -/
theorem capNet_acts {c : Instr} {s : State} {q : Fin 32} {d : CmdArgs} (haccepted : Accepted c s q 0x0515 d)
    (hexec : exec c s = .next (s.rowCmd cmdCapNet 0x0515 q d)) (hown : ownChecks c = chkCapNet) :
    let t := taken s q 0x0515 d
    let e := entered s q 0x0515 d
    let rest := e.net.capNet.filter fun x => x.1 != streamIx t
    exec c s = .next (withStaged { e with net := { e.net with
      capNet := if t.p 16 1 == 1 then rest ++ [(streamIx t, t.p 18 2, (s.cap[streamIx t]).gone)] else rest } } t .tick [] []) := by
  intro t e rest
  rw [← stage_eq_withStaged, ← entered_cap s q 0x0515 d]
  refine exec_accepted (eff := fun e => State.stage { e with net := { e.net with
    capNet := if t.p 16 1 == 1 then (e.net.capNet.filter fun x => x.1 != streamIx t) ++
        [(streamIx t, t.p 18 2, (e.cap[streamIx t]).gone)]
      else e.net.capNet.filter fun x => x.1 != streamIx t } } t .tick []) haccepted hexec ?_
  rw [hown]
  rfl

/-- Settles O17: four commands stage their writes, CAP_READ completes at once, and CAP_NET changes the sending list. -/
theorem captureCommandsAct : Obligations.CaptureCommandsAct := by
  refine ⟨fun q d => ⟨?cfg, ?arm, ?trig, ?release⟩, fun q d s haccepted => ?read, fun q d s haccepted => ?start,
    fun q d s haccepted => ?stop⟩
  case cfg => exact stages_of_guarded (f := cmdCapCfg) (fun _ => rfl) fun _ => rfl
  case arm => exact stages_of_guarded (f := cmdCapArm) (fun _ => rfl) fun _ => rfl
  case trig => exact stages_of_guarded (f := cmdCapTrig) (fun _ => rfl) fun _ => rfl
  case release => exact stages_of_guarded (f := cmdCapRelease) (fun _ => rfl) fun _ => rfl
  case read => simpa only [entered_cap, entered_fr] using exec_capRead_accepted haccepted
  case start => exact capNet_acts haccepted rfl rfl
  case stop => exact capNet_acts haccepted rfl rfl

end Sys2Proof.Stated
end

section
/-! ## Injected conversions, housekeeping rounds and captures -/
namespace Sys2Proof.Stated
open Sys2Proof Sys2Proof.Machine

/-! ### The edge that a definition names (R107, Table 3.8) -/

/-- A conversion that is due takes one place in the list; the others keep their order (R110). -/
theorem injInsert_eq_split (x : Fin 8 × Int) (l : List (Fin 8 × Int)) : ∃ a b, l = a ++ b ∧ injInsert x l = a ++ x :: b := by
  induction l with
  | nil => exact ⟨[], [], rfl, rfl⟩
  | cons y l ih =>
    unfold injInsert
    split
    · exact ⟨[], y :: l, rfl, rfl⟩
    · obtain ⟨a, b, hl, hins⟩ := ih
      exact ⟨y :: a, b, by rw [hl]; rfl, by rw [hins]; rfl⟩

section
variable {s : State} {g : Fin 5} {k : Fin 8} {r : Fin 20} {ns : Fin 200}

theorem exec_injectedConversion_due (hconv : s.converts g = true) (hen : injEn (s.grp[g]).inj[k] = true)
    (hedge : s.trigEdge (injTrig (s.grp[g]).inj[k]) (200 * r.val + ns.val) = true) :
    exec (.injectedConversion g k r ns) s = .next (s.updGrp g fun x => x.trigger k (200 * r.val + ns.val)) :=
  congrArg Host.Outcome.next (if_pos (by rw [hconv, hen, hedge]; rfl))

theorem exec_injectedConversion_none (hnone : s.converts g = false ∨ injEn (s.grp[g]).inj[k] = false ∨
    s.trigEdge (injTrig (s.grp[g]).inj[k]) (200 * r.val + ns.val) = false) :
    exec (.injectedConversion g k r ns) s = .next s := by
  refine congrArg Host.Outcome.next (if_neg ?_)
  rcases hnone with hconv | hen | hedge
  · simp [hconv]
  · simp [hen, -Fin.getElem_fin]
  · simp [hedge, -Fin.getElem_fin]

end

theorem risesAt_iff (x : SwPeriod) (t : Nat) : x.risesAt t = true ↔ x.on ≠ 0 ∧ (t : ℚ) ≤ x.start ∧ x.start < t + 1 := by
  simp [SwPeriod.risesAt, and_assoc]

/-- A TRIG of 0 to 15 names the rise of a Phase's drive. -/
theorem trigEdge_phase_iff (s : State) (p : Fin 16) (t : Nat) :
    s.trigEdge p.val t = true ↔ ∃ x ∈ s.phDrive p, x.on ≠ 0 ∧ (t : ℚ) ≤ x.start ∧ x.start < t + 1 := by
  have hp : finOf 16 p.val (by decide) = p := Fin.ext (Nat.mod_eq_of_lt p.isLt)
  simp only [State.trigEdge, p.isLt, if_true, hp, List.any_eq_true, risesAt_iff]

/-! ### A conversion without a slot (R108, R109) -/

/-- R109: a conversion of G0 to G3 that no free slot takes within 200 ns is lost, and none other is due. -/
theorem claims_lost {x : Group} {d : Fin 8} {due : Int} {r : Nat} (hreq : x.injReq = [(d, due)])
    (hbusy : ∀ i, i < 32 → planFree x.plan i = true → 4 * due ≤ 25 * (32 * r + i : Nat) →
      4 * (due + 200) < 25 * (32 * r + i : Nat))
    (hround : 4 * (due + 200) < 25 * (32 * r + 32 : Nat)) : (x.claims false r).lost = [d] ∧ (x.claims false r).taken = [] := by
  have hfind : ((List.range 32).find? fun i => decide (4 * due ≤ 25 * ((32 * r + i : Nat) : Int)) &&
      !([] : List (Nat × Fin 8)).any (fun t => t.1 == i) &&
      (false || (planFree x.plan i && decide (25 * ((32 * r + i : Nat) : Int) ≤ 4 * (due + 200))))) = none := by
    rw [List.find?_eq_none]
    intro i hi hfits
    obtain ⟨hdue, hfree, hnear⟩ : 4 * due ≤ 25 * ((32 * r + i : Nat) : Int) ∧ planFree x.plan i = true ∧
        25 * ((32 * r + i : Nat) : Int) ≤ 4 * (due + 200) := by simpa [and_assoc] using hfits
    exact absurd hnear (not_le.mpr (hbusy i (List.mem_range.mp hi) hfree hdue))
  simp only [Group.claims, hreq, List.foldl_cons, List.foldl_nil, Claims.claim, hfind, Bool.not_false, Bool.true_and,
    decide_eq_true_eq, if_pos hround, List.nil_append, and_self]

/-! ### The mailbox (R111) -/

/-- One result on its way is the one that is posted. -/
theorem injPost_single {x : Group} {d : Fin 8} {w : Half} {f : Nat} (hnew : x.injNew = [(d, w, f)]) :
    x.injPost = { x with injWord := x.injWord.set d w, injFrame := x.injFrame.set d f, injNew := [] } := by
  simp only [Group.injPost, hnew, List.foldl_cons, List.foldl_nil]

section
variable {x : Group} (hnew : x.injNew = []) (f : Nat) (d : Fin 8)
include hnew

theorem injPost_injTake_some (v : Int) : (x.injTake f d (some v)).injPost =
    { x with injWord := x.injWord.set d (rawWord v 2), injFrame := x.injFrame.set d f, injNew := [] } :=
  injPost_single (x := x.injTake f d (some v)) (congrArg (· ++ [(d, rawWord v 2, f)]) hnew)

/-- A late conversion, or one in a vacant position, repeats the value that its input had in the scan (log 146). -/
theorem injPost_injTake_none : (x.injTake f d none).injPost =
    { x with injWord := x.injWord.set d (rawWord (x.flt[injInput x.inj[d]]).prev 1), injFrame := x.injFrame.set d f, injNew := [] } :=
  injPost_single (x := x.injTake f d none) (congrArg (· ++ [(d, rawWord (x.flt[injInput x.inj[d]]).prev 1, f)]) hnew)

end

/-! ### The thermal shutdown (R565, R568) -/

@[simp] theorem injEnd_th (s : State) (a : Bool) : (s.injEnd a).th = s.th := by
  unfold State.injEnd
  split
  · rfl
  · rfl

@[simp] theorem cvToIdle_th (s : State) : s.cvToIdle.th = s.th := by
  unfold State.cvToIdle
  split
  · rfl
  · rfl

@[simp] theorem cvFault_th (s : State) (cause ph : Nat) : (s.cvFault cause ph).th = s.th := by
  unfold State.cvFault
  extract_lets old seq s1 s2 _ s3 s4
  have h2 : s2.th = s1.th := by
    unfold s2
    split
    · rfl
    · rfl
  have h3 : s3.th = s.th := (injEnd_th ..).trans (h2.trans (State.iceRecord_th ..))
  split
  · exact h3
  · exact (cvToIdle_th _).trans h3

@[simp] theorem iceFlushed_th (s : State) : s.iceFlushed.th = s.th := by
  unfold State.iceFlushed
  extract_lets cmds
  obtain ⟨ice, hgap⟩ := State.iceGap_ex (s.updIce fun i => { i.commit with flushCmds := [] })
  refine ((told_overL _ _ (fun t u => u.cmdDone_told t 0 []) _).posted.th).trans ?_
  rw [hgap]
  rfl

theorem allOff_th (s : State) : s.allOff.th = s.th := by
  unfold State.allOff
  extract_lets ph
  rw [State.mapCh_th]

/-- R565, R568: a shutdown that is not latched yet latches, and holds the logic die in reset. -/
theorem thShutdown_shutsDown {s : State} (hlatch : s.th.latch = false) (code src : Nat) (v : Int) :
    (s.thShutdown code src v).th.latch = true ∧ (s.thShutdown code src v).th.level = 3 ∧
      (s.thShutdown code src v).pw.mode = .shutdown ∧ (s.thShutdown code src v).pw.logic = .inReset := by
  unfold State.thShutdown
  rw [if_neg (by simp [hlatch])]
  extract_lets release s1 s2 s3 s4 pl s5 off s6
  have h3 : s3.th = s1.th := cvFault_th s2 11 0xFFFF
  have h4 : s4.th = s1.th := (State.iceRecord_th ..).trans h3
  have h5 : s5.th = s1.th := (allOff_th _).trans ((iceFlushed_th _).trans
    ((State.postOnly_th ..).trans ((State.iceRecord_th ..).trans h4)))
  clear_value s5
  have h6 : s6.th = s1.th := by
    unfold s6
    split
    · exact h5
    · exact h5
  clear_value s6
  show s6.th.latch = true ∧ s6.th.level = 3 ∧ _
  rw [h6]
  exact ⟨rfl, rfl, rfl, rfl⟩

/-! ### The housekeeping round (R121, R123, R568) -/

theorem take_checkBad (k : Hk) (h : HkIn) :
    (k.take h).checkBad = (k.checkBad || ((hkBadSlot h).isSome && decide (1 ≤ k.checkRun))) := by
  cases hbad : hkBadSlot h <;> simp [Hk.take, hbad]

theorem take_lastCheck {k : Hk} {h : HkIn} {slot : Nat} (hbad : hkBadSlot h = some slot) : (k.take h).lastCheck = slot := by
  simp [Hk.take, hbad]

theorem take_hotRun (k : Hk) (h : HkIn) (i : Fin 24) :
    (k.take h).hotRun[i] = if 10560 ≤ h.ts[i] ∧ h.ts[i] ≤ 12800 then k.hotRun[i] + 1 else 0 := by
  simp [Hk.take]

/-- The state that has taken a housekeeping round, with the record of a self-check fault that the round has set (R123). -/
def hkTaken (s : State) (h : HkIn) : State :=
  if !s.hk.checkBad && (s.hk.take h).checkBad then
    { s with hk := s.hk.take h }.iceRecord 0x0521 rDevice 2 (le 1 (s.hk.take h).lastCheck)
  else { s with hk := s.hk.take h }

/-- A round changes the housekeeping results, and it may add a record. -/
theorem hkTaken_ex (s : State) (h : HkIn) : ∃ ice, hkTaken s h = { s with hk := s.hk.take h, ice := ice } := by
  unfold hkTaken
  split
  · obtain ⟨ice, hrec⟩ := State.iceRecord_ex { s with hk := s.hk.take h } 0x0521 rDevice 2 (le 1 (s.hk.take h).lastCheck)
    exact ⟨ice, hrec⟩
  · exact ⟨s.ice, rfl⟩

theorem hkTaken_eq {s : State} {h : HkIn} (hgood : s.hk.checkBad = true ∨ hkBadSlot h = none) :
    hkTaken s h = { s with hk := s.hk.take h } := by
  refine if_neg ?_
  rw [take_checkBad]
  rcases hgood with hset | hnone
  · simp [hset]
  · simp [hnone]

theorem exec_hkRound_eq {s : State} (hlive : s.live = true) (h : HkIn) : exec (.hkRound h) s =
    .next (match allTs.find? fun i => decide (2 ≤ (hkTaken s h).hk.hotRun[i]) with
      | some i => (hkTaken s h).thShutdown 0 i.val (h.ts[i] / 8)
      | none => hkTaken s h) :=
  congrArg Host.Outcome.next (if_pos hlive)

/-- With every sensor below the shutdown range the round is taken, and no more (R568). -/
theorem exec_hkRound_cool {s : State} {h : HkIn} (hlive : s.live = true) (hcool : ∀ i : Fin 24, h.ts[i] < 10560) :
    exec (.hkRound h) s = .next (hkTaken s h) := by
  obtain ⟨ice, htaken⟩ := hkTaken_ex s h
  have hfind : (allTs.find? fun i => decide (2 ≤ (hkTaken s h).hk.hotRun[i])) = none := by
    rw [List.find?_eq_none]
    intro i _
    rw [htaken]
    simp [take_hotRun, not_le.mpr (hcool i), -Fin.getElem_fin]
  rw [exec_hkRound_eq hlive, hfind]

/-- R123: the second round in a row with a self-check conversion off its value sets the fault, which names the conversion of that
round (log 140). -/
theorem exec_hkRound_checkFails {s : State} {h : HkIn} {slot : Nat} (hlive : s.live = true)
    (hbad : hkBadSlot h = some slot) (hrun : 1 ≤ s.hk.checkRun) (hcool : ∀ i : Fin 24, h.ts[i] < 10560) :
    ∃ t, exec (.hkRound h) s = .next t ∧ t.hk.checkBad = true ∧ t.hk.lastCheck = slot ∧ t.ch = s.ch ∧ t.th = s.th := by
  obtain ⟨ice, htaken⟩ := hkTaken_ex s h
  refine ⟨_, exec_hkRound_cool hlive hcool, ?_⟩
  rw [htaken]
  refine ⟨?_, take_lastCheck hbad, rfl, rfl⟩
  show (s.hk.take h).checkBad = true
  simp [take_checkBad, hbad, hrun]

/-- R568: the second round in a row with a sensor in the shutdown range shuts the block down. -/
theorem exec_hkRound_hot {s : State} {h : HkIn} {i : Fin 24} (hlive : s.live = true) (hhot : 10560 ≤ h.ts[i])
    (hvalid : h.ts[i] ≤ 12800) (hrun : 1 ≤ s.hk.hotRun[i]) (hlatch : s.th.latch = false) :
    ∃ t, exec (.hkRound h) s = .next t ∧ t.th.latch = true ∧ t.th.level = 3 ∧ t.pw.mode = .shutdown ∧
      t.pw.logic ≠ .running ∧ t.live = false := by
  obtain ⟨ice, htaken⟩ := hkTaken_ex s h
  have hfound : (allTs.find? fun j => decide (2 ≤ (hkTaken s h).hk.hotRun[j])).isSome = true := by
    rw [List.find?_isSome]
    refine ⟨i, List.mem_finRange i, ?_⟩
    rw [htaken]
    simp [take_hotRun, hhot, hvalid, hrun, -Fin.getElem_fin]
  obtain ⟨j, hj⟩ := Option.isSome_iff_exists.mp hfound
  rw [exec_hkRound_eq hlive, hj]
  have hunset : (hkTaken s h).th.latch = false := by rw [htaken]; exact hlatch
  obtain ⟨hset, hlevel, hmode, hlogic⟩ := thShutdown_shutsDown hunset 0 j.val (h.ts[j] / 8)
  exact ⟨_, rfl, hset, hlevel, hmode, by rw [hlogic]; decide, by rw [State.live, hlogic]; rfl⟩

/-- Settles O36: the edge puts its conversion on the list of those due (log 197), the search for a slot fails, the mailbox takes the
one result, and a housekeeping round goes by the runs that it continues. -/
theorem senseEventsAct : Obligations.SenseEventsAct := by
  refine ⟨fun s g k r ns hconv hen hedge => ⟨_, exec_injectedConversion_due hconv hen hedge, ?due,
      fun j hj => s.updGrp_other g j _ hj, rfl⟩,
    fun s g k r ns => exec_injectedConversion_none, trigEdge_phase_iff, fun x d due r => claims_lost,
    fun x d f v hnew => ⟨?word, ?frame, ?late, fun e he => ?other⟩,
    fun s h hlive hgood hcool => (exec_hkRound_cool hlive hcool).trans (congrArg _ (hkTaken_eq hgood)),
    fun s h slot hlive _ => exec_hkRound_checkFails hlive, fun s h i => exec_hkRound_hot,
    fun s i hst hleft => congrArg _ (if_pos ?full), fun s i hst => congrArg _ (if_neg ?notFull)⟩
  case due =>
    rw [State.updGrp_same]
    exact injInsert_eq_split ..
  case word => simp [injPost_injTake_some hnew]
  case frame => simp [injPost_injTake_some hnew]
  case late => simp [injPost_injTake_none hnew]
  case other =>
    have hne : d.val ≠ e.val := fun h => he (Fin.ext h.symm)
    simp [injPost_injTake_some hnew, hne]
  case full => simp [hst, hleft, -Fin.getElem_fin]
  case notFull => simp [hst, -Fin.getElem_fin]

end Sys2Proof.Stated
end

section
/-! ## A cause that is raised moves its Channel, or leaves it -/
namespace Sys2Proof.Stated
open Sys2Proof Sys2Proof.Machine

/-! ### What comes with a change of state leaves the Channels alone -/

/-- The Channels, the Frames and the chip's place in its pair are the same. -/
structure ChannelsStand (s t : State) : Prop where
  ch : t.ch = s.ch
  fr : t.fr = s.fr
  hinge : t.hinge = s.hinge

theorem ChannelsStand.refl (s : State) : ChannelsStand s s := ⟨rfl, rfl, rfl⟩

theorem ChannelsStand.trans {s t u : State} (h : ChannelsStand s t) (k : ChannelsStand t u) : ChannelsStand s u :=
  ⟨k.ch.trans h.ch, k.fr.trans h.fr, k.hinge.trans h.hinge⟩

theorem ChannelsStand.of_posted {s t : State} (h : Posted s t) : ChannelsStand s t := ⟨h.ch, h.fr, h.hinge⟩

theorem ChannelsStand.ite {s a b : State} {c : Prop} [Decidable c] (ha : ChannelsStand s a) (hb : ChannelsStand s b) :
    ChannelsStand s (if c then a else b) := by
  split
  · exact ha
  · exact hb

/-- Commands that complete are taken from the list of the outstanding ones, and their entries are posted. -/
theorem completeOuts_posted (s : State) (p : Out → Bool) {f : Out → State → State} (hf : ∀ o u, Posted u (f o u)) :
    Posted s (s.completeOuts p f) :=
  posted_overL _ _ (fun o u => by
    split
    · exact (u.dropOuts_posted _).trans (hf o _)
    · exact Posted.refl u) s

theorem admDrop_stands (s : State) (n : Fin 64) (status : Nat) : ChannelsStand s (s.admDrop n status) := by
  have hleft : ChannelsStand s { s with adm := s.adm.filter fun e => e.ch != n } := ⟨rfl, rfl, rfl⟩
  unfold State.admDrop
  exact hleft.trans (.of_posted (completeOuts_posted _ _ fun _ u => u.complete_posted ..))

/-- The Channel's own part of a change of state (R141-R170). -/
def changedCh (s : State) (n : Fin 64) (dst : ChState) (cause : Cause) (mask detail : Nat) (tag : Word) : State :=
  s.updCh n fun c => c.change s.fr.count s.fr.drive (s.lf n Fld.DISCH) dst cause mask detail tag

/-- A change of state moves its Channel alone; all that comes with it leaves the Channels as the change has them. -/
theorem enterNow_stands (s : State) (n : Fin 64) (dst : ChState) (cause : Cause) (mask detail : Nat) (tag : Word) :
    ChannelsStand (changedCh s n dst cause mask detail tag) (s.enterNow n dst cause mask detail tag) := by
  unfold State.enterNow
  extract_lets _ _ _ _ _ s1 _ s2 s3 s4 s5 s6 s7
  have hs1 : ChannelsStand (changedCh s n dst cause mask detail tag) s1 := ⟨rfl, rfl, rfl⟩
  have hs2 : ChannelsStand (changedCh s n dst cause mask detail tag) s2 :=
    .ite (hs1.trans (.of_posted (State.postRec_told ..).posted)) (hs1.trans (.of_posted (State.postOnly_told ..).posted))
  have hs3 : ChannelsStand (changedCh s n dst cause mask detail tag) s3 := .ite (hs2.trans ⟨rfl, rfl, rfl⟩) hs2
  have hs4 : ChannelsStand (changedCh s n dst cause mask detail tag) s4 := .ite (hs3.trans ⟨rfl, rfl, rfl⟩) hs3
  have hs5 : ChannelsStand (changedCh s n dst cause mask detail tag) s5 := hs4.trans ⟨rfl, rfl, rfl⟩
  have hs6 : ChannelsStand (changedCh s n dst cause mask detail tag) s6 := .ite (hs5.trans (admDrop_stands ..)) hs5
  have hs7 : ChannelsStand (changedCh s n dst cause mask detail tag) s7 := hs6.trans ⟨rfl, rfl, rfl⟩
  exact .ite hs5 (.ite (hs7.trans ⟨rfl, rfl, rfl⟩) (.ite (hs7.trans ⟨rfl, rfl, rfl⟩) hs7))

/-- R495: a driving chip makes the change. -/
theorem enter_stands {s : State} (hdrives : s.drives = true) (n : Fin 64) (dst : ChState) (cause : Cause) (mask detail : Nat)
    (tag : Word) : ChannelsStand (changedCh s n dst cause mask detail tag) (s.enter n dst cause mask detail tag) := by
  rw [State.enter, if_pos hdrives]
  exact enterNow_stands ..

theorem enter_same {s : State} (hdrives : s.drives = true) (n : Fin 64) (dst : ChState) (cause : Cause) (mask detail : Nat)
    (tag : Word) : (s.enter n dst cause mask detail tag).ch[n] =
      (s.ch[n]).change s.fr.count s.fr.drive (s.lf n Fld.DISCH) dst cause mask detail tag := by
  rw [(enter_stands hdrives ..).ch]
  exact State.updCh_same ..

theorem enter_other {s : State} (hdrives : s.drives = true) {n m : Fin 64} (hm : m ≠ n) (dst : ChState) (cause : Cause)
    (mask detail : Nat) (tag : Word) : (s.enter n dst cause mask detail tag).ch[m] = s.ch[m] := by
  rw [(enter_stands hdrives ..).ch]
  exact State.updCh_other _ _ _ _ hm

/-! ### One cause (R141, R144, R506) -/

section
variable {s : State} {r : Raise}

/-- A cause that is kept from every target while a pair hands over is none at all. -/
theorem resolve_single_kept (hmay : s.mayMove r = false) : (s.resolve [r]).ch = s.ch := by
  have hnone : s.resolve [r] = s.resolve [] := by simp [State.resolve, hmay]
  rw [hnone]
  exact resolve_nil.1

/-- A cause of a Channel that leads its set is resolved in that set. -/
theorem resolve_single (hdrives : s.drives = true) (hmay : s.mayMove r = true) (hlead : s.leader r.n = r.n) :
    s.resolve [r] = s.resolveSet r.n [r] := by
  have hset : (allCh.filter fun n => r.n == n) = [r.n] := by
    rw [show (fun n => r.n == n) = (· == r.n) from funext fun n => BEq.comm, List.filter_beq, allCh,
      List.count_eq_one_of_mem (List.nodup_finRange 64) (List.mem_finRange r.n), List.replicate_one]
  simp [State.resolve, hmay, hdrives, hlead, hset, overL]

/-- R141: where Table 4.5 has no such transition, the set stays as it is. -/
theorem resolveSet_single_none {ld : Fin 64} (hmove : canMove (s.ch[r.n]).st r.dst r.cause = false) :
    s.resolveSet ld [r] = s := by
  simp [State.resolveSet, hmove, overL, -Fin.getElem_fin]

/-- A set of one Channel goes to FET_FAULT for the cause raised. -/
theorem resolveSet_single_fetFault (hset : s.members r.n = [r.n]) (hdst : r.dst = .fetFault)
    (hmove : canMove (s.ch[r.n]).st r.dst r.cause = true) :
    s.resolveSet r.n [r] = s.enter r.n .fetFault r.cause (2 ^ causeCode r.cause) r.detail r.tag := by
  have hfree : s.offBlocked r = false := by simp [State.offBlocked, hdst]
  have hfault : canMove (s.ch[r.n]).st .fetFault r.cause = true := hdst ▸ hmove
  simp [State.resolveSet, List.filter_cons, hfree, hfault, hset, hdst, overL, primaryOf, -Fin.getElem_fin]

end

/-- Settles O32: the cause is the only one of its set, so the set takes it as it is, finds no transition for it, or never sees it. -/
theorem raisedCauseMovesItsChannel : Obligations.RaisedCauseMovesItsChannel := by
  intro s n c detail hdrives hset hlead
  refine ⟨fun hmove hmay => ?_, fun hmove => ?_, fun hhand hprot hcmd => ?_⟩
  · have hmay' : s.mayMove ⟨n, c, .fetFault, detail, 0⟩ = true := by simpa [State.mayMove, or_assoc] using hmay
    have hraise : s.raise1 n c .fetFault detail = s.enter n .fetFault c (2 ^ causeCode c) detail 0 :=
      (resolve_single hdrives hmay' hlead).trans (resolveSet_single_fetFault hset rfl hmove)
    refine ⟨_, rfl, ?_⟩
    rw [hraise, enter_same hdrives]
    refine ⟨rfl, rfl, ?_, rfl, rfl, rfl, fun m hm => ?_⟩
    · simp [Chan.change]
    · rw [enter_other hdrives hm]
  · by_cases hmay : s.mayMove ⟨n, c, .tripped, detail, 0⟩ = true
    · exact congrArg State.ch ((resolve_single hdrives hmay hlead).trans (resolveSet_single_none hmove))
    · exact resolve_single_kept (Bool.eq_false_iff.mpr hmay)
  · exact resolve_single_kept (by simp [State.mayMove, hhand, hprot, hcmd])

end Sys2Proof.Stated
end

section
/-! ## CH_ON, CH_OFF and CH_CLEAR -/
namespace Sys2Proof.Stated
open Sys2Proof Sys2Proof.Machine

/-! ### The state in which earlier commands leave a Channel (R404, R405) -/

section
variable {s : State} {n : Fin 64}

theorem stAfter_congr {t : State} (houts : t.outs = s.outs) (hch : t.ch = s.ch) (n : Fin 64) : t.stAfter n = s.stAfter n := by
  unfold State.stAfter State.offPends
  rw [houts, hch]

theorem stAfter_of_noOff (h : ∀ o ∈ s.outs, o.wait ≠ .chOff n ∧ o.wait ≠ .clearCheck n) : s.stAfter n = (s.ch[n]).st := by
  have hnone : (s.outs.filter fun o => o.wait == .chOff n || o.wait == .clearCheck n) = [] :=
    List.filter_eq_nil_iff.mpr (by simpa using h)
  simp [State.stAfter, State.offPends, hnone]

theorem stAfter_of_chOff_last {o : Out} {rest : List Out} (houts : s.outs = rest ++ [o]) (hwait : o.wait = .chOff n)
    (hst : (s.ch[n]).st = .ramp ∨ (s.ch[n]).st = .on ∨ (s.ch[n]).st = .tripped) : s.stAfter n = .off := by
  have hpends : s.offPends n = true := by
    rcases hst with hst | hst | hst <;>
      simp [State.offPends, houts, hwait, hst, List.filter_append, -Fin.getElem_fin]
  rw [State.stAfter, if_pos hpends]

/-! ### The admission queue -/

theorem admAdd_waiting (s : State) (e : AdmEntry) : (s.admAdd e).waiting e.ch = true := by
  unfold State.admAdd
  split
  case isTrue h => exact h
  case isFalse => simp [State.waiting]

theorem waiting_of_sameChannels {l : List AdmEntry} {f : AdmEntry → AdmEntry} (hadm : s.adm = l.map f)
    (hf : ∀ e, (f e).ch = e.ch) : s.waiting n = l.any fun e => e.ch == n := by
  simp [State.waiting, hadm, hf, Function.comp_def]

theorem offInOff_stands (s : State) (n : Fin 64) (tag : Word) : ChannelsStand s (s.offInOff n tag) := by
  have hdrop := admDrop_stands s n 0x30
  exact .ite (.ite (hdrop.trans (.of_posted (State.postOnly_told ..).posted)) hdrop) (.refl s)

/-- A CH_ON that waits for admission does so behind an entry of its Channel, and moves no Channel. -/
theorem chOnQueue_waits (s : State) (n : Fin 64) (t : Taken) : (s.chOnQueue n t).ch = s.ch ∧ (s.chOnQueue n t).waiting n = true ∧
    ∃ o ∈ (s.chOnQueue n t).outs, o.cmd = t ∧ o.wait = .admission n := by
  unfold State.chOnQueue
  extract_lets src s' s1 s2 s3
  have hs' : ChannelsStand s s' := .ite (offInOff_stands ..) (.refl s)
  have hs1 : ChannelsStand s s1 := hs'.trans (.of_posted (completeOuts_posted _ _ fun _ u => u.complete_posted ..))
  have hs2 : ChannelsStand s s2 := hs1.trans ⟨rfl, rfl, rfl⟩
  have hs3 : ChannelsStand s s3 := .ite (hs2.trans ⟨rfl, rfl, rfl⟩) (hs2.trans (.ite (.refl s2) ⟨rfl, rfl, rfl⟩))
  have hentry : s3.waiting n = true := by
    by_cases hwait : s2.waiting n = true
    · have hsame : s3.waiting n = s2.waiting n := by
        simp only [s3, if_pos hwait]
        refine waiting_of_sameChannels rfl fun e => ?_
        split
        · rfl
        · rfl
      exact hsame.trans hwait
    · simp only [s3, if_neg hwait]
      exact admAdd_waiting s2 ⟨n, src, t.vis.frame, false, none, t.d.tag⟩
  exact ⟨hs3.ch, hentry, ⟨t, s3.outs.length, .admission n⟩, List.mem_append_right _ List.mem_cons_self, rfl, rfl⟩

end

/-! ### The off permit (R544) -/

/-- The off permit of a Channel is armed to the end of a Frame. -/
def permitted (f : Nat) (c : Chan) : Chan := { c with tmb := { c.tmb with permit := some f } }

/-- The permit of every Channel of a list, as CH_OFF arms it. -/
def permitAll (l : List (Fin 64)) (s : State) : State :=
  overL l (fun m u => u.updCh m fun c => { c with tmb := { c.tmb with permit := some (u.fr.count + 3) } }) s

theorem permitAll_eq (l : List (Fin 64)) (s : State) :
    permitAll l s = overL l (fun m u => u.updCh m (permitted (s.fr.count + 3))) s := by
  unfold permitAll
  induction l generalizing s with
  | nil => rfl
  | cons x l ih => exact ih (s.updCh x (permitted (s.fr.count + 3)))

theorem permitAll_permit {l : List (Fin 64)} {n : Fin 64} (hn : n ∈ l) (s : State) :
    ((permitAll l s).ch[n]).tmb.permit = some (s.fr.count + 3) := by
  rw [permitAll_eq]
  exact overL_updCh_mem (fun _ => permitted (s.fr.count + 3)) (P := fun c => c.tmb.permit = some (s.fr.count + 3))
    (fun _ _ => rfl) hn s

/-- What an update leaves of a Channel it leaves of every Channel. -/
theorem updCh_keeps {α : Type} (g : Chan → α) {s : State} {m : Fin 64} {f : Chan → Chan} (hf : ∀ c, g (f c) = g c) (n : Fin 64) :
    g ((s.updCh m f).ch[n]) = g s.ch[n] := by
  by_cases hn : n = m
  · subst hn
    rw [State.updCh_same, hf]
  · rw [State.updCh_other _ _ _ _ hn]

theorem permitAll_st (l : List (Fin 64)) (s : State) (n : Fin 64) : ((permitAll l s).ch[n]).st = (s.ch[n]).st := by
  rw [permitAll_eq]
  exact overL_rel (R := fun s t => (t.ch[n]).st = (s.ch[n]).st) (fun _ => rfl) (fun h k => k.trans h) l _
    (fun _ _ => updCh_keeps Chan.st (f := permitted (s.fr.count + 3)) (fun _ => rfl) n) s

theorem permitAll_ccount (l : List (Fin 64)) (s : State) : (permitAll l s).ccount = s.ccount := by
  obtain ⟨v, hv⟩ := overL_updCh_ex (fun _ => permitted (s.fr.count + 3)) l s
  rw [permitAll_eq, hv]

/-! ### The commands -/

section
variable {s : State} {q : Fin 32} {d : CmdArgs}

/-- CH_ON (R146, R147), by the state in which the commands executed before it leave its Channel. -/
theorem exec_chOn_accepted (haccepted : Accepted (.chOn q d) s q 0x0101 d) :
    let t := taken s q 0x0101 d
    let e := entered s q 0x0101 d
    exec (.chOn q d) s = .next (if s.stAfter (chIx t) == .on then e.complete t 0 none
      else if s.stAfter (chIx t) == .ramp then e.complete t 1 none (evt := true) else e.chOnQueue (chIx t) t) := by
  intro t e
  rw [← stAfter_congr (entered_outs s q 0x0101 d) (entered_ch s q 0x0101 d)]
  refine exec_accepted (f := cmdChOn) (eff := fun u => if e.stAfter (chIx t) == .on then u.complete t 0 none
    else if e.stAfter (chIx t) == .ramp then u.complete t 1 none (evt := true) else u.chOnQueue (chIx t) t) haccepted rfl ?_
  dsimp only [cmdChOn, ownChecks]

/-- R387: an accepted command of a Channel names one. -/
theorem targetOk_of_passed {r : OpRow} {t : Taken} {e : State} {extra : List (Nat × Bool)}
    (hpassed : ∀ p ∈ baseChecks r t e ++ extra, p.2 = false) : targetOk r.tk t = true := by
  have htarget := hpassed (0x22, !targetOk r.tk t) (List.mem_append_left _ (by simp [baseChecks]))
  simpa using htarget

theorem opRow_chOff {r : OpRow} (hr : opRow 0x0102 = some r) : r.tk = .channel := by
  have hrow : (opRow 0x0102).map (·.tk) = some .channel := rfl
  rw [hr] at hrow
  exact Option.some.inj hrow

/-- CH_OFF (R27, R28, R544): one of a driven Class A Channel spends the count of its credential and arms the permits of the set. -/
theorem cmdChOff_passed {t : Taken} {e : State} {r : OpRow} (hr : opRow t.op.toNat = some r) (hkind : r.tk = .channel)
    (hpassed : ∀ p ∈ baseChecks r t e ++ ownChecks (.chOff q d) t e, p.2 = false) :
    cmdChOff t e = withWait (if (e.ch[chIx t]).tmb.classA && driven (e.ch[chIx t]).st
      then permitAll ((e.takeCount t).members (chIx t)) (e.takeCount t) else e) t (.chOff (chIx t)) := by
  have htarget : targetOk .channel t = true := hkind ▸ targetOk_of_passed hpassed
  refine (State.guardedCred_eq_effect hr hpassed fun u => withWait (if (e.ch[chIx t]).tmb.classA && driven (e.ch[chIx t]).st
    then permitAll (u.members (chIx t)) u else u) t (.chOff (chIx t))).trans ?_
  rw [htarget, Bool.and_true]
  cases (e.ch[chIx t]).tmb.classA && driven (e.ch[chIx t]).st with
  | false => rfl
  | true => rfl

theorem exec_chOff_accepted (haccepted : Accepted (.chOff q d) s q 0x0102 d) :
    let t := taken s q 0x0102 d
    let e := entered s q 0x0102 d
    exec (.chOff q d) s = .next (withWait (if (s.ch[chIx t]).tmb.classA && driven (s.ch[chIx t]).st
      then permitAll ((e.takeCount t).members (chIx t)) (e.takeCount t) else e) t (.chOff (chIx t))) := by
  obtain ⟨hready, r, hr, hpassed⟩ := haccepted
  intro t e
  have hrow : exec (.chOff q d) s = .next (cmdChOff t e) := congrArg Host.Outcome.next (rowCmd_atOnce hready ..)
  rw [← entered_ch s q 0x0102 d]
  exact hrow.trans (congrArg Host.Outcome.next (cmdChOff_passed (opRow_ofNat hr) (opRow_chOff hr) hpassed))

/-- CH_CLEAR (R162). -/
theorem exec_chClear_accepted (haccepted : Accepted (.chClear q d) s q 0x0105 d) :
    let t := taken s q 0x0105 d
    let e := entered s q 0x0105 d
    let n := chIx t
    exec (.chClear q d) s = .next (if (s.ch[n]).st == .off || (s.ch[n]).st == .ramp || (s.ch[n]).st == .on
      then e.complete t 0 none else withWait e t (.clearCheck n)) := by
  intro t e n
  rw [← entered_ch s q 0x0105 d]
  refine exec_accepted (f := cmdChClear) (eff := fun u => if (e.ch[n]).st == .off || (e.ch[n]).st == .ramp || (e.ch[n]).st == .on
    then u.complete t 0 none else withWait u t (.clearCheck n)) haccepted rfl ?_
  dsimp only [cmdChClear, ownChecks]
  rfl

end

/-- Settles O19: CH_ON goes by the state that the commands before it leave, CH_OFF waits with its permit, CH_CLEAR by the state of
its Channel. -/
theorem channelCommandsAct : Obligations.ChannelCommandsAct := by
  refine ⟨fun q d s haccepted => ?chOn, fun q d s haccepted => ?chOff, fun q d s haccepted => ?chClear⟩
  case chOn =>
    intro t e n
    have hexec := exec_chOn_accepted haccepted
    refine ⟨stAfter_of_noOff, fun o rest => stAfter_of_chOff_last, fun hon => ?_, fun hramp => ?_, fun hon hramp => ?_⟩
    · rw [hexec, if_pos (beq_iff_eq.mpr hon)]
    · have hon : s.stAfter n ≠ .on := by simp [hramp]
      rw [hexec, if_neg (mt beq_iff_eq.mp hon), if_pos (beq_iff_eq.mpr hramp)]
    · replace hexec : exec (.chOn q d) s = .next (e.chOnQueue n t) := by
        rw [hexec, if_neg (mt beq_iff_eq.mp hon), if_neg (mt beq_iff_eq.mp hramp)]
      obtain ⟨hch, hentry, hout⟩ := chOnQueue_waits e n t
      exact ⟨_, hexec, hentry, hout, by rw [hch, entered_ch]⟩
  case chOff =>
    intro t e n
    have hexec := exec_chOff_accepted haccepted
    refine ⟨fun hfree => ?_, fun hdriven => ?_⟩
    · rw [hexec, if_neg (Bool.eq_false_iff.mp hfree)]
    · replace hexec : exec (.chOff q d) s =
          .next (withWait (permitAll ((e.takeCount t).members n) (e.takeCount t)) t (.chOff n)) := by
        rw [hexec, if_pos hdriven]
      refine ⟨_, hexec, permitAll_ccount .., ?_, ?_, ⟨t, _, .chOff n⟩, List.mem_append_right _ List.mem_cons_self, rfl, rfl⟩
      · rw [← entered_fr (s := s) (q := q) (op := 0x0102) (d := d)]
        exact permitAll_permit (State.self_mem_members ..) (e.takeCount t)
      · rw [← entered_ch s q 0x0102 d]
        exact permitAll_st _ (e.takeCount t) n
  case chClear =>
    intro t e n
    have hexec := exec_chClear_accepted haccepted
    refine ⟨fun hst => ?_, fun hoff hramp hon => ?_⟩
    · rw [hexec, if_pos (by simpa [or_assoc] using hst)]
    · have hwaits : ¬((s.ch[n]).st == .off || (s.ch[n]).st == .ramp || (s.ch[n]).st == .on) = true := by
        simp [hoff, hramp, hon, -Fin.getElem_fin]
      rw [hexec, if_neg hwaits]

end Sys2Proof.Stated
end

section
/-! ## Channel timers, arc blocks and Creep probes -/
namespace Sys2Proof.Stated
open Sys2Proof Sys2Proof.Machine

/-! ### A retry that is due (R200, R201, R203) -/

section
variable {s t : State} {n : Fin 64}

theorem drives_congr (hhinge : t.hinge = s.hinge) : t.drives = s.drives := by
  rw [State.drives, hhinge, State.drives]

theorem fld_congr (hset : t.settings = s.settings) (htmb : ∀ n : Fin 64, (t.ch[n]).tmb = (s.ch[n]).tmb) (f : Fld) (r i : Nat) :
    t.fld f r i = s.fld f r i := by
  unfold State.fld
  rw [hset]
  by_cases hr : r < 64
  · have htmbr : (t.ch[r]).tmb = (s.ch[r]).tmb := htmb ⟨r, hr⟩
    simp only [hr, dif_pos, htmbr]
  · simp only [hr, dif_neg, not_false_eq_true]

theorem members_congr (hset : t.settings = s.settings) (htmb : ∀ n : Fin 64, (t.ch[n]).tmb = (s.ch[n]).tmb) (n : Fin 64) :
    t.members n = s.members n := by
  simp only [State.members, State.leaderOf, State.chf, fld_congr hset htmb]

/-- A Channel goes to LOCKOUT, with the primary cause of its trip (R201; detail and mask: log 21). -/
def lockoutCh (detail : Nat) (m : Fin 64) (u : State) : State :=
  u.enter m .lockout (u.ch[m]).cause (2 ^ causeCode (u.ch[m]).cause) detail 0

theorem lockoutCh_drives (hdrives : s.drives = true) (detail : Nat) (m : Fin 64) : (lockoutCh detail m s).drives = true :=
  (drives_congr (enter_stands hdrives ..).hinge).trans hdrives

theorem lockoutCh_notMem {l : List (Fin 64)} (hn : n ∉ l) (detail : Nat) (hdrives : s.drives = true) :
    (overL l (lockoutCh detail) s).ch[n] = s.ch[n] := by
  induction l generalizing s with
  | nil => rfl
  | cons x l ih =>
    obtain ⟨hx, hl⟩ := not_or.mp (List.mem_cons.not.mp hn)
    exact (ih hl (lockoutCh_drives hdrives ..)).trans (enter_other hdrives hx ..)

theorem lockoutCh_mem {l : List (Fin 64)} (hn : n ∈ l) (detail : Nat) (hdrives : s.drives = true) :
    ((overL l (lockoutCh detail) s).ch[n]).st = .lockout ∧
      ((overL l (lockoutCh detail) s).ch[n]).detail = BitVec.ofNat 16 detail ∧
      ((overL l (lockoutCh detail) s).ch[n]).retryAt = none := by
  induction l generalizing s with
  | nil => exact absurd hn List.not_mem_nil
  | cons x l ih =>
    have hnext := lockoutCh_drives hdrives detail x
    by_cases hl : n ∈ l
    · exact ih hl hnext
    · obtain rfl : n = x := (List.mem_cons.mp hn).resolve_right hl
      show ((overL l _ (lockoutCh detail n s)).ch[n]).st = _ ∧ ((overL l _ (lockoutCh detail n s)).ch[n]).detail = _ ∧
        ((overL l _ (lockoutCh detail n s)).ch[n]).retryAt = _
      rw [lockoutCh_notMem hl detail hnext, lockoutCh, enter_same hdrives]
      exact ⟨rfl, rfl, rfl⟩

/-- A retry that is due is taken, and goes to the admission queue or, at the rate of a member, to LOCKOUT. -/
theorem exec_retryDue {a : Nat} (hlive : s.live = true) (hretry : (s.ch[n]).retryAt = some a) (hdue : a ≤ s.fr.count)
    (hst : (s.ch[n]).st = .tripped) (hlead : s.isFollower n = false) :
    exec (.retryDue n) s = .next (if (s.members n).any s.rateFull
      then (s.updCh n fun c => { c with retryAt := none }).lockoutSet n 0x200
      else (s.updCh n fun c => { c with retryAt := none }).admAdd ⟨n, .autoRetry, s.fr.count, false, none, 0⟩) := by
  refine congrArg Host.Outcome.next (if_pos ?_)
  simp [hlive, hretry, hdue, hst, hlead, -Fin.getElem_fin]

theorem admAdd_ch (s : State) (e : AdmEntry) : (s.admAdd e).ch = s.ch := by
  unfold State.admAdd
  split
  · rfl
  · rfl

/-! ### The other timers (R147, R164, R182, R202, R544) -/

theorem exec_tstableExpiry (hlive : s.live = true) (hst : (s.ch[n]).st = .on) (hcool : (s.ch[s.leader n]).hot = false)
    (hdue : (s.ch[n]).tstabFrom + frames01s * s.lf n Fld.TSTABLE ≤ s.fr.count) :
    exec (.tstableExpiry n) s = .next (s.updCh n fun c => { c with k := 0 }) := by
  refine congrArg Host.Outcome.next (if_pos ?_)
  simp [hlive, hst, hcool, hdue, -Fin.getElem_fin]

theorem exec_dischargeTimeout (hsink : (s.ch[n]).sink ≠ .none) (hdue : (s.ch[n]).sinkAt + 3 * frames10s ≤ s.fr.drive) :
    exec (.dischargeTimeout n) s = .next ((s.updCh n fun c => { c with sink := .none }).placeSinks) := by
  refine congrArg Host.Outcome.next (if_pos ?_)
  simp [hsink, hdue, -Fin.getElem_fin]

theorem exec_ambFallback (hlive : s.live = true) (hfb : (s.ambientOf n).2 = true) (hnew : (s.ch[n]).ambFb = false)
    (hlead : s.isFollower n = false) : exec (.ambFallback n) s =
      .next ((s.updCh n fun c => { c with ambFb := true }).postOnly 0x0104 n.val (repS 2 (64 * (s.ambientOf n).1))) := by
  have hfalls : (s.live && (s.ambientOf n).2 && !(s.ch[n]).ambFb && !s.isFollower n) = true := by
    rw [hlive, hfb, hnew, hlead]
    rfl
  exact congrArg Host.Outcome.next (if_pos hfalls)

theorem exec_offPermitLapse {f : Nat} (hpermit : (s.ch[n]).tmb.permit = some f) (hdue : f ≤ s.fr.count) :
    exec (.offPermitLapse n) s = .next (s.updCh n fun c => { c with tmb := { c.tmb with permit := none } }) := by
  refine congrArg Host.Outcome.next (if_pos ?_)
  simp [hpermit, Nat.lt_succ_of_le hdue, -Fin.getElem_fin]

/-! ### Commands taken from the list of the outstanding ones -/

/-- One command's turn: it leaves the list, if it is still there, and completes. -/
def completeRound (f : Out → State → State) (x : Out) (u : State) : State :=
  if u.outs.contains x then f x (u.dropOuts (· == x)) else u

theorem completeOuts_eq (s : State) (p : Out → Bool) (f : Out → State → State) :
    s.completeOuts p f = overL (s.outs.filter p) (completeRound f) s := rfl

section
variable {f : Out → State → State} {o : Out}

theorem open_of_mem_completeRound (hf : ∀ o u, SameOpen u (f o u)) (hopen : o.wait.isDone = false) {x : Out}
    (hmem : o ∈ (completeRound f x s).outs) : o ∈ s.outs ∧ o ≠ x := by
  unfold completeRound at hmem
  split at hmem
  case isTrue =>
    have hsame : o ∈ (f x (s.dropOuts (· == x))).outs.filter fun o => !o.wait.isDone := by simp [hmem, hopen]
    rw [hf x _] at hsame
    simpa [hopen] using hsame
  case isFalse hout => exact ⟨hmem, fun e => hout (by simpa [e] using hmem)⟩

theorem open_of_mem_completeRounds (hf : ∀ o u, SameOpen u (f o u)) (hopen : o.wait.isDone = false) {l : List Out}
    (hmem : o ∈ (overL l (completeRound f) s).outs) : o ∈ s.outs ∧ o ∉ l := by
  induction l generalizing s with
  | nil => exact ⟨hmem, List.not_mem_nil⟩
  | cons x l ih =>
    obtain ⟨hnext, hl⟩ := ih hmem
    obtain ⟨hs, hx⟩ := open_of_mem_completeRound hf hopen hnext
    exact ⟨hs, List.not_mem_cons_of_ne_of_not_mem hx hl⟩

/-- Of the commands that have not finished, completing those of a kind leaves none of the kind and adds none. -/
theorem open_of_mem_completeOuts (hf : ∀ o u, SameOpen u (f o u)) (hopen : o.wait.isDone = false) {p : Out → Bool}
    (hmem : o ∈ (s.completeOuts p f).outs) : o ∈ s.outs ∧ p o = false := by
  rw [completeOuts_eq] at hmem
  obtain ⟨hs, hnot⟩ := open_of_mem_completeRounds hf hopen hmem
  exact ⟨hs, Bool.eq_false_iff.mpr fun hp => hnot (List.mem_filter.mpr ⟨hs, hp⟩)⟩

end

/-- R147: no Class A CH_ON that has waited 75 Frames waits on. -/
theorem exec_classAAcceptTimeout (s : State) (n : Fin 64) : ∃ t, exec (.classAAcceptTimeout n) s = .next t ∧ t.adm = s.adm ∧
    t.ch = s.ch ∧ ∀ o ∈ t.outs, o.wait = .admission n → (s.qs[o.cmd.q]).cls = .a → s.fr.count < o.cmd.vis.frame + 75 := by
  have hposted := completeOuts_posted s
    (fun o => isAdmWait n o && (s.qs[o.cmd.q]).cls == .a && o.cmd.vis.frame + 75 ≤ s.fr.count)
    (f := fun o u => u.complete o.cmd 1 none (evt := true)) fun _ u => u.complete_posted ..
  refine ⟨_, rfl, hposted.adm, hposted.ch, fun o ho hwait hcls => ?_⟩
  obtain ⟨-, hyoung⟩ := open_of_mem_completeOuts (fun _ u => close_sameOpen u ..) (by rw [hwait]; rfl) ho
  simpa [isAdmWait, hwait, hcls, -Fin.getElem_fin] using hyoung

theorem exec_classAAcceptTimeout_single {c : Taken} {k : Nat} (houts : s.outs = [⟨c, k, .admission n⟩])
    (hcls : (s.qs[c.q]).cls = .a) (hdue : c.vis.frame + 75 ≤ s.fr.count) : exec (.classAAcceptTimeout n) s =
      .next (({ s with outs := [] }).complete c 1 none (evt := true)) := by
  refine congrArg Host.Outcome.next ?_
  simp [State.completeOuts, State.dropOuts, houts, overL, isAdmWait, hcls, hdue, -Fin.getElem_fin]

end

/-! ### Arc blocks (R217-R230) -/

/-- A Channel alone may change, and none moves. -/
def ArcOf (n : Fin 64) (s t : State) : Prop :=
  ∀ m : Fin 64, (t.ch[m]).st = (s.ch[m]).st ∧ (m ≠ n → t.ch[m] = s.ch[m])

section
variable {n : Fin 64} {s t u : State}

theorem ArcOf.of_ch (h : t.ch = s.ch) : ArcOf n s t := fun m => ⟨by rw [h], fun _ => by rw [h]⟩

theorem ArcOf.trans (h : ArcOf n s t) (k : ArcOf n t u) : ArcOf n s u :=
  fun m => ⟨(k m).1.trans (h m).1, fun hm => ((k m).2 hm).trans ((h m).2 hm)⟩

theorem ArcOf.updCh {f : Chan → Chan} (h : ArcOf n s t) (hf : ∀ c, (f c).st = c.st) : ArcOf n s (t.updCh n f) :=
  h.trans fun m => ⟨updCh_keeps Chan.st hf m, State.updCh_other _ _ _ _⟩

theorem ArcOf.ite {a b : State} {c : Prop} [Decidable c] (ha : ArcOf n s a) (hb : ArcOf n s b) : ArcOf n s (if c then a else b) := by
  split
  · exact ha
  · exact hb

/-- What an arc detector tells changes its own Channel, and not its state (R222, R225). -/
theorem arcTell_arcOf (n : Fin 64) (s : State) : ArcOf n s (s.arcTell n) := by
  unfold State.arcTell
  extract_lets k degraded half free s0 s1 s2 s3
  have hself : ArcOf n s s := .of_ch rfl
  have hs0 : ArcOf n s s0 := hself.updCh fun _ => rfl
  have hs1 : ArcOf n s s1 := .ite (.ite ((hs0.trans (.of_ch (State.postOnly_ch ..))).updCh (by exact fun _ => rfl)) hs0)
    (.ite (hself.updCh (by exact fun _ => rfl)) hself)
  have hs2 : ArcOf n s s2 := hs1.updCh fun _ => rfl
  have hs3 : ArcOf n s s3 := hs2.trans (.of_ch (State.postRec_ch ..))
  exact .ite (.ite hs2 ((hs3.trans (.of_ch (by exact rfl))).updCh (by exact fun _ => rfl))) hs1

theorem arcTell_notMem {l : List (Fin 64)} (hn : n ∉ l) (s : State) : (overL l (fun m u => u.arcTell m) s).ch[n] = s.ch[n] := by
  induction l generalizing s with
  | nil => rfl
  | cons x l ih =>
    obtain ⟨hx, hl⟩ := not_or.mp (List.mem_cons.not.mp hn)
    exact (ih hl _).trans ((arcTell_arcOf x s n).2 hx)

/-- A detector with no block due stays as it was (R217). -/
theorem arcEval_notDue (hdue : (s.ch[n]).arc.due = false) (missed : BitVec 64) : ((s.arcEval missed).1.ch[n]).arc = (s.ch[n]).arc := by
  unfold State.arcEval
  extract_lets ns tick sets s1
  have hn : n ∉ ns := fun h => by simp [ns, hdue, -Fin.getElem_fin] at h
  rw [arcTell_notMem hn, State.mapCh_get, if_neg (by simpa using hn)]

/-- The evaluation moves no Channel: the trip of a decision is a cause of its own (R224). -/
theorem arcEval_st (s : State) (missed : BitVec 64) (n : Fin 64) : ((s.arcEval missed).1.ch[n]).st = (s.ch[n]).st := by
  unfold State.arcEval
  extract_lets ns tick sets s1
  have htell := overL_rel (R := fun s t => (t.ch[n]).st = (s.ch[n]).st) (fun _ => rfl) (fun h k => k.trans h) ns
    (fun m u => u.arcTell m) (fun m u => (arcTell_arcOf m u n).1) s1
  refine htell.trans ?_
  rw [State.mapCh_get]
  split
  · rfl
  · rfl

end

/-! ### The end of a Creep probe (R235, R236) -/

section
variable {s : State} {n : Fin 64}

theorem updCh_updCh (s : State) (n : Fin 64) (f g : Chan → Chan) : (s.updCh n f).updCh n g = s.updCh n fun c => g (f c) := by
  simp [State.updCh]

/-- Learning a baseline leaves the probe, its time and the window of the ratios. -/
theorem learned_keeps (k old : CreepSt) (pfw : Bool) (plen : Nat) : (k.learned old pfw plen).probe = k.probe ∧
    (k.learned old pfw plen).winZth = k.winZth ∧ (k.learned old pfw plen).lastProbe = k.lastProbe := by
  unfold CreepSt.learned
  split
  · exact ⟨rfl, rfl, rfl⟩
  · exact ⟨rfl, rfl, rfl⟩

/-- The mean current of a probe. -/
def probeDuring (s : State) (n : Fin 64) : ℚ := meanQ ((s.ch[n]).creep.during.map (s.rawAmp n))

/-- The power that a probe with the on-resistance pre before it puts into the FET beyond the power before. -/
def probePower (s : State) (n : Fin 64) (pre : ℚ) : ℚ :=
  probeDuring s n * ((s.lf n Fld.PVDS : ℚ) / 10) - s.probeMean n * pre * s.probeMean n

/-- The window with the ratio of a probe with the on-resistances pre and post. -/
def probeWindow (s : State) (n : Fin 64) (pre post : ℚ) : List ℚ :=
  (s.ch[n]).creep.winZth ++ [(post / pre - 1) / ((s.lf n Fld.TCR : ℚ) / 10000) / probePower s n pre]

/-- What the end of a probe leaves of Creep: no probe, and a value where R235 and R236 have one. -/
structure ProbeEnded (s : State) (n : Fin 64) (k : CreepSt) : Prop where
  ended : k.probe = none
  value : ∀ pre post, s.probeRon n (s.ch[n]).creep.pre = some pre → s.probeRon n (s.ch[n]).creep.post = some post →
    pre ≠ 0 → probePower s n pre ≠ 0 → movedTenth (s.probeMean n) (probeDuring s n) = false →
    k.winZth = (probeWindow s n pre post).drop ((probeWindow s n pre post).length - 16) ∧ k.lastProbe = some s.fr.count
  noValue : s.probeRon n (s.ch[n]).creep.pre = none ∨ s.probeRon n (s.ch[n]).creep.post = none ∨
    movedTenth (s.probeMean n) (probeDuring s n) = true → k.winZth = (s.ch[n]).creep.winZth

/-- The probe ends at its own end, without a value. -/
def probeClosed (s : State) (n : Fin 64) : CreepSt := { (s.ch[n]).creep with probe := none, probeCut := false }

/-- Without two usable resistances, a power and a steady current, a probe ends without a value. -/
theorem probeClosed_ended (hnone : ∀ pre post, s.probeRon n (s.ch[n]).creep.pre = some pre →
    s.probeRon n (s.ch[n]).creep.post = some post →
      pre = 0 ∨ probePower s n pre = 0 ∨ movedTenth (s.probeMean n) (probeDuring s n) = true) :
    ProbeEnded s n (probeClosed s n) where
  ended := rfl
  value := fun pre post hpre hpost h0 hpower hmoved => by simpa [h0, hpower, hmoved] using hnone pre post hpre hpost
  noValue := fun _ => rfl

/-- With them it ends with one value more, whether or not the value completes a baseline. -/
theorem learned_ended {pre post : ℚ} {k : CreepSt} (old : CreepSt) (pfw : Bool) (plen : Nat)
    (hpre : s.probeRon n (s.ch[n]).creep.pre = some pre) (hpost : s.probeRon n (s.ch[n]).creep.post = some post)
    (hsteady : movedTenth (s.probeMean n) (probeDuring s n) = false) (hprobe : k.probe = none)
    (hwin : k.winZth = (probeWindow s n pre post).drop ((probeWindow s n pre post).length - 16))
    (hlast : k.lastProbe = some s.fr.count) : ProbeEnded s n (k.learned old pfw plen) := by
  obtain ⟨hsameProbe, hsameWin, hsameLast⟩ := learned_keeps k old pfw plen
  refine ⟨hsameProbe.trans hprobe, fun p q hp hq _ _ _ => ?_, fun hnone => ?_⟩
  · obtain rfl : pre = p := Option.some.inj (hpre.symm.trans hp)
    obtain rfl : post = q := Option.some.inj (hpost.symm.trans hq)
    exact ⟨hsameWin.trans hwin, hsameLast.trans hlast⟩
  · rw [hpre, hpost, hsteady] at hnone
    simp at hnone

/-- R235, R236: the end of a probe changes Creep alone. -/
theorem exec_probeEnd {f : Nat} (hlive : s.live = true) (hprobe : (s.ch[n]).creep.probe = some f)
    (hdue : f + s.lf n Fld.PLEN + 2 ≤ s.fr.count) :
    ∃ k, exec (.probeEnd n ()) s = .next (s.updCh n fun c => { c with creep := k }) ∧ ProbeEnded s n k := by
  simp only [exec, execProbeEnd, hprobe, hlive, hdue, decide_true, Bool.and_self, if_true]
  rcases hpre : s.probeRon n (s.ch[n]).creep.pre with _ | pre
  case none => exact ⟨probeClosed s n, rfl, probeClosed_ended (by simp [hpre, -Fin.getElem_fin])⟩
  rcases hpost : s.probeRon n (s.ch[n]).creep.post with _ | post
  case none => exact ⟨probeClosed s n, rfl, probeClosed_ended (by simp [hpost, -Fin.getElem_fin])⟩
  by_cases hnone : (pre == 0 || probePower s n pre == 0 || movedTenth (s.probeMean n) (probeDuring s n)) = true
  · refine ⟨probeClosed s n, congrArg Host.Outcome.next (if_pos hnone), probeClosed_ended fun p q hp hq => ?_⟩
    obtain rfl : pre = p := Option.some.inj (hpre.symm.trans hp)
    simpa [or_assoc] using hnone
  · have hsteady : movedTenth (s.probeMean n) (probeDuring s n) = false := by
      simp only [Bool.or_eq_true, not_or, Bool.not_eq_true] at hnone
      exact hnone.2
    exact ⟨_, congrArg Host.Outcome.next ((if_neg hnone).trans (updCh_updCh ..)),
      learned_ended _ _ _ hpre hpost hsteady rfl rfl rfl⟩

end

/-- Settles O35: each timer acts where it is due, an evaluation leaves what it has no block of, and the end of a probe changes Creep
alone. -/
theorem channelTimersArcBlocksAndProbesAct : Obligations.ChannelTimersArcBlocksAndProbesAct := by
  refine ⟨⟨fun s n a hlive hretry hdue hst hlead hrate => ?retry, fun s n a hlive hretry hdue hst hlead hrate hdrives => ?lockout,
    fun s n => exec_tstableExpiry, fun s n => exec_dischargeTimeout, fun s n hlive hfb hnew hlead => ?ambient,
    fun s n f => exec_offPermitLapse, exec_classAAcceptTimeout, fun s n c k => exec_classAAcceptTimeout_single⟩,
    fun s hlive hblock => ⟨?block, fun n => ⟨fun hdue => arcEval_notDue hdue 0, arcEval_st s 0 n⟩⟩,
    fun s n f hlive hprobe hdue => ?probe⟩
  case retry =>
    have hexec := exec_retryDue hlive hretry hdue hst hlead
    rw [if_neg (Bool.eq_false_iff.mp hrate)] at hexec
    refine ⟨_, hexec, ?_, admAdd_waiting .., ?_⟩
    · rw [admAdd_ch, State.updCh_same]
    · rw [admAdd_ch, State.updCh_same]
      exact hst
  case lockout =>
    have hexec := exec_retryDue hlive hretry hdue hst hlead
    rw [if_pos hrate] at hexec
    have hset := members_congr (s := s) (t := s.updCh n fun c => { c with retryAt := none }) rfl
      (updCh_keeps Chan.tmb (f := fun c => { c with retryAt := none }) fun _ => rfl) n
    have hlocked (m : Fin 64) (hm : m ∈ s.members n) :=
      lockoutCh_mem (s := s.updCh n fun c => { c with retryAt := none }) (hset ▸ hm) 0x200 hdrives
    refine ⟨_, hexec, fun m hm => ?_, (hlocked n (s.self_mem_members n)).2.2⟩
    obtain ⟨hst, hdetail, -⟩ := hlocked m hm
    exact ⟨hst, hdetail⟩
  case ambient =>
    refine ⟨_, exec_ambFallback hlive hfb hnew hlead, ?_, ?_⟩
    · rw [State.postOnly_ch, State.updCh_same]
    · rw [State.postOnly_ch, State.updCh_same]
  case block =>
    have hdue : (s.live && s.fr.count % 10 == 0) = true := by simp [hlive, hblock]
    exact congrArg Host.Outcome.next (if_pos hdue)
  case probe =>
    obtain ⟨k, hexec, hended, hvalue, hnone⟩ := exec_probeEnd hlive hprobe hdue
    refine ⟨_, hexec, ?_, ?_, ?_, fun m hm => State.updCh_other _ _ _ _ hm, rfl, ?_, ?_⟩
    all_goals rw [State.updCh_same]
    · exact hended
    · exact hvalue
    · exact hnone

end Sys2Proof.Stated
end

section
/-! ## Applied settings writes -/
namespace Sys2Proof.Stated
open Sys2Proof Sys2Proof.Machine

/-! ### Reading a stored field back -/

theorem lookupSet_storeSet_same (k : FKey) (v : Nat) (l : List (FKey × Nat)) : lookupSet k (storeSet k v l) = some v := by
  induction l with
  | nil => simp [storeSet, lookupSet]
  | cons e r ih =>
    by_cases hk : k = e.1
    · simp [storeSet, lookupSet, hk]
    · simp [storeSet, lookupSet, hk, ih]

theorem lookupSet_storeSet_other {k k' : FKey} (hne : k' ≠ k) (v : Nat) (l : List (FKey × Nat)) :
    lookupSet k' (storeSet k v l) = lookupSet k' l := by
  induction l with
  | nil => simp [storeSet, lookupSet, hne]
  | cons e r ih =>
    by_cases hk : k = e.1
    · simp [storeSet, lookupSet, ← hk, hne]
    · simp [storeSet, lookupSet, hk, ih]

/-! ### What the write of a settings field changes (R182, R437) -/

/-- The ambient source of a Channel (Table 12.4): the one settings field whose write reaches a Channel. -/
def IsAmbSrc (k : FKey) : Prop := k.code = 0x52 ∧ k.ord = 10

/-- Each Channel stays as it was; the Channel res may lose its fallback mark. -/
def AmbEnded (res : Nat) (s : State) (ch : Vector Chan 64) : Prop :=
  ∀ n : Fin 64, ch[n] = s.ch[n] ∨ (n.val = res ∧ ch[n] = { s.ch[n] with ambFb := false })

theorem ambEnded_self (res : Nat) (s : State) : AmbEnded res s s.ch := fun _ => .inl rfl

theorem ambEnded_updCh (m : Fin 64) (s : State) : AmbEnded m.val s (s.updCh m fun c => { c with ambFb := false }).ch := by
  intro n
  by_cases hn : n = m
  · subst hn
    exact .inr ⟨rfl, State.updCh_same ..⟩
  · exact .inl (State.updCh_other _ _ _ _ hn)

section
variable {s : State} {k : FKey}

/-- Every settings field but the ambient source of a Channel is stored, and that is all. -/
theorem applyWrite_stores (v : Nat) (hcode : k.code < 0x100) (hhost : ¬(k.code = 0x52 ∧ k.ord = 12))
    (hsrc : ¬(IsAmbSrc k ∧ k.res < 64)) : s.applyWrite (k, v) = { s with settings := storeSet k v s.settings } := by
  have hhost' : ¬(k.code == 0x52 && k.ord == 12) = true := by simpa using hhost
  have hsrc' : ¬(k.code == 0x52 && k.ord == 10 && k.res < 64) = true := by simpa [IsAmbSrc] using hsrc
  exact (if_neg hhost').trans ((if_neg hsrc').trans (if_pos hcode))

/-- The ambient source of a Channel is stored, and a new one ends the Channel's fallback (R182). -/
theorem applyWrite_ambSrc (v : Nat) (hsrc : IsAmbSrc k) (hres : k.res < 64) : ∃ ch,
    s.applyWrite (k, v) = { s with settings := storeSet k v s.settings, ch := ch } ∧ AmbEnded k.res s ch := by
  obtain ⟨hcode, hord⟩ := hsrc
  have hhost' : ¬(k.code == 0x52 && k.ord == 12) = true := by simp [hord]
  have hsrc' : (k.code == 0x52 && k.ord == 10 && k.res < 64) = true := by simp [hcode, hord, hres]
  let n : Fin 64 := finOf 64 k.res (by decide)
  have hn : n.val = k.res := Nat.mod_eq_of_lt hres
  let ended := s.updCh n fun c => { c with ambFb := false }
  let s1 := if s.lf n Fld.AMBSRC == v then s else ended
  have hwrite : s.applyWrite (k, v) = { s1 with settings := storeSet k v s1.settings } :=
    (if_neg hhost').trans (if_pos hsrc')
  by_cases hsame : (s.lf n Fld.AMBSRC == v) = true
  · have hs1 : s1 = s := if_pos hsame
    exact ⟨s.ch, by rw [hwrite, hs1], ambEnded_self _ _⟩
  · have hs1 : s1 = ended := if_neg hsame
    exact ⟨ended.ch, by rw [hwrite, hs1]; rfl, hn ▸ ambEnded_updCh n s⟩

/-- What the write of a settings field can change. -/
theorem applyWrite_setting (v : Nat) (hcode : k.code < 0x100) (hhost : ¬(k.code = 0x52 ∧ k.ord = 12)) : ∃ ch,
    s.applyWrite (k, v) = { s with settings := storeSet k v s.settings, ch := ch } ∧ AmbEnded k.res s ch ∧
      (¬IsAmbSrc k → ch = s.ch) := by
  by_cases hsrc : IsAmbSrc k ∧ k.res < 64
  · obtain ⟨hamb, hres⟩ := hsrc
    obtain ⟨ch, hwrite, hended⟩ := applyWrite_ambSrc (s := s) v hamb hres
    exact ⟨ch, hwrite, hended, absurd hamb⟩
  · exact ⟨s.ch, applyWrite_stores v hcode hhost hsrc, ambEnded_self _ _, fun _ => rfl⟩

end

/-- Settles O14: the write stores the field, and of the rest only a Channel's fallback mark may change, with its ambient source. -/
theorem appliedFieldReadsTheNewValue : Obligations.AppliedFieldReadsTheNewValue := by
  intro s k v hcode hhost
  obtain ⟨ch, hwrite, hended, hkept⟩ := applyWrite_setting (s := s) v hcode hhost
  have hset : (s.applyWrite (k, v)).settings = storeSet k v s.settings := by rw [hwrite]
  rw [hset]
  refine ⟨lookupSet_storeSet_same .., fun k' hne => lookupSet_storeSet_other hne .., fun hsrc => ?_, fun _ _ => ⟨ch, hwrite, hended⟩⟩
  rw [hwrite, hkept hsrc]

end Sys2Proof.Stated
end

section
/-! ## Events of the converter and of the AUX rails -/
namespace Sys2Proof.Stated
open Sys2Proof Sys2Proof.Machine

/-! ### The end of a start (R281, R282) -/

theorem cvSetsEnd_posted (s : State) (p : Wait → Bool) (status : Nat) : Posted s (s.cvSetsEnd p status) :=
  completeOuts_posted _ _ fun _ u => u.finish_posted ..

theorem openAdmission_cv (s : State) : s.openAdmission.cv = s.cv :=
  overL_rel (R := fun s t => t.cv = s.cv) (fun _ => rfl) (fun h k => k.trans h) _ _ (fun n u => by
    split
    case isTrue =>
      unfold State.admHead State.admAdd
      split
      · rfl
      · rfl
    case isFalse => rfl) s

section
variable {s : State}

/-- Outside a return, the end of a start is that of step 16, or nothing. -/
theorem cvStartOver_eq (hret : s.zone.hu ≠ .ret) :
    s.cvStartOver = if s.pw.step == 16 && !s.pw.admOpen then s.openAdmission else s := by
  simp [State.cvStartOver, when, hret]

/-- The converter in regulation: no start is in progress, and the CV_SETs that asked for it have completed. -/
def regulated (s : State) : State :=
  ((s.updCv fun c => { c with start := .none }).cvSetsEnd (fun w => w == .cvStart) 0).updHinge fun h => { h with cvAs := none }

theorem regulated_keeps (s : State) : (regulated s).cv = { s.cv with start := .none } ∧ (regulated s).pw = s.pw ∧
    (regulated s).zone = s.zone ∧ (regulated s).ch = s.ch := by
  have hposted := cvSetsEnd_posted (s.updCv fun c => { c with start := .none }) (fun w => w == .cvStart) 0
  exact ⟨hposted.cv, hposted.pw, hposted.zone, hposted.ch⟩

/-- R281: 8 Frames in regulation end a start. -/
theorem exec_converterRegulation (hlive : s.live = true) (hstart : cvRunning s.cv.start = true) (hreg : 8 ≤ s.cv.regRun)
    (hret : s.zone.hu ≠ .ret) : exec .converterRegulation s =
      .next (if s.pw.step == 16 && !s.pw.admOpen then (regulated s).openAdmission else regulated s) := by
  obtain ⟨-, hpw, hzone, -⟩ := regulated_keeps s
  rw [← hpw, ← cvStartOver_eq (s := regulated s) (by rwa [hzone])]
  exact congrArg Host.Outcome.next (if_pos (by simp [hlive, hstart, hreg]))

theorem exec_startFail {f : Nat} (hlive : s.live = true) (hstart : s.cv.start = .running f) (hlate : f + 25000 ≤ s.fr.count) :
    exec .startFail s = .next (s.cvFault 8 0xFFFF).cvStartOver := by
  simp [exec, execStartFail, hstart, hlive, hlate]

/-! ### A start that is asked for, and one that waits (R280) -/

/-- A converter that may start waits for its inputs, and begins at the next tick where they have been good for long enough. -/
theorem cvStartReq_eq (hidle : s.cv.mode = .idle) (hstop : s.cv.stop = none) (hphase : s.cv.noPhase = false)
    (hlock : s.cv.lockout = false) (own : Bool) : s.cvStartReq own = { s with cv := { s.cv with
      start := .waiting own, modeNext := if 250 ≤ s.cv.vinRun then some .buck else s.cv.modeNext } } := by
  simp [State.cvStartReq, hidle, hstop, hphase, hlock]

theorem exec_autoRestart {own : Bool} (hlive : s.live = true) (hstart : s.cv.start = .waiting own)
    (hmay : own = true ∨ s.cvf Fld.STARTMODE = 1) (hvin : 250 ≤ s.cv.vinRun) (hidle : s.cv.mode = .idle)
    (hnext : s.cv.modeNext = none) : exec .autoRestart s = .next (s.cvStartReq own) := by
  simp [exec, execAutoRestart, hstart, hlive, hmay, hvin, hidle, hnext]

theorem exec_autoRestart_none (hstart : s.cv.start = .waiting false) (hmode : s.cvf Fld.STARTMODE ≠ 1) :
    exec .autoRestart s = .next s := by
  simp [exec, execAutoRestart, hstart, hmode]

/-! ### Counted restarts (R286, R290) -/

/-- The restarts of the last 60 s. -/
def recentRestarts (s : State) (l : List Nat) : List Nat := l.filter fun x => s.fr.count < x + 15000000

theorem exec_countedRestart_converter (hlive : s.live = true) : exec (.countedRestart 0) s = .next s.cvCounted := by
  simp [exec, execCountedRestart, hlive]

/-- The converter in CV_LOCKOUT, before the event that tells of it. -/
def lockedOut (s : State) : State := s.updCv fun c => { c with countedAt := none, lockout := true, start := .none }

/-- The converter with one restart more, which is due. -/
def restarted (s : State) : State := s.updCv fun c => { c with
  countedAt := none, counted := s.fr.count :: recentRestarts s s.cv.counted, start := .waiting true }

/-- A counted restart of the converter that is due is one too many within 60 s, or asks for a start. -/
theorem cvCounted_due {f : Nat} (hat : s.cv.countedAt = some f) (hdue : f ≤ s.fr.count) (hidle : s.cv.mode = .idle) :
    s.cvCounted = if 3 ≤ (recentRestarts s s.cv.counted).length
      then (lockedOut s).postRec 0x0203 rConv (le 2 s.cv.lastCause) else (restarted s).cvStartReq true :=
  if_neg (by simp [hat, hdue, hidle])

/-- A rail that one restart too many within 60 s has stopped; no CV_SET of it waits on (log 201). -/
def auxStopped (s : State) (r : Fin 4) : State :=
  (s.updAux r fun a => { a with countedAt := none, stopped := true, target := 0 }).cvSetsEnd (isAuxSet r) 0x12

theorem auxStopped_st (s : State) (r : Fin 4) : ((auxStopped s r).aux[r]).st = (s.aux[r]).st := by
  rw [auxStopped, (cvSetsEnd_posted ..).aux, State.updAux_same]

variable {r : Fin 4}

theorem auxCounted_stops {f : Nat} (hat : (s.aux[r]).countedAt = some f) (hdue : f ≤ s.fr.count) (hst : (s.aux[r]).st = .fault)
    (hfull : 3 ≤ (recentRestarts s (s.aux[r]).counted).length) : s.auxCounted r = auxStopped s r :=
  (if_neg (by simp [hat, hdue, hst, -Fin.getElem_fin])).trans (if_pos hfull)

/-- The port of a rail in FAULT takes no part in a restart (log 56). -/
theorem pdRestart_fault {p : Fin 2} (hst : (s.aux[pdRail p]).st = .fault) : s.pdRestart p = s := by
  simp [State.pdRestart, hst, -Fin.getElem_fin]

/-- A counted restart that leaves its rail in FAULT is the rail's own. -/
theorem exec_countedRestart_aux (hlive : s.live = true) (hst : ((s.auxCounted r).aux[r]).st = .fault) :
    exec (.countedRestart ⟨r.val + 1, by omega⟩) s = .next (s.auxCounted r) := by
  match r with
  | 0 | 1 => simp [exec, execCountedRestart, hlive]
  | 2 => simpa [exec, execCountedRestart, hlive] using pdRestart_fault (p := 0) hst
  | 3 => simpa [exec, execCountedRestart, hlive] using pdRestart_fault (p := 1) hst

/-! ### SHEDHOLD, the rotation and profiles (R274, R276, R308) -/

theorem exec_shedholdExpiry {f : Nat} (hlive : s.live = true) (hhold : s.cv.holdEnd = some f) (hdue : f ≤ s.fr.count) :
    exec .shedholdExpiry s = .next { s with cv := { s.cv with holdEnd := none, dwell := 0 } } := by
  simp [exec, execShedholdExpiry, hhold, hlive, hdue, State.updCv]

theorem exec_interleaveRotation (hlive : s.live = true) (hrun : s.cv.mode ≠ .idle)
    (hdue : 1024 * (s.cvf Fld.TSW : ℚ) ≤ s.cv.rotNs) : exec .interleaveRotation s = .next s.rotate := by
  simp [exec, execInterleaveRotation, hlive, hrun, hdue]

theorem injDisturb_cv (s : State) (clamp : Bool) : (s.injDisturb clamp).cv = s.cv := by
  unfold State.injDisturb
  split
  · rfl
  · rfl

theorem exec_profileTimeout {n : Fin 64} {p : Profile} (hlive : s.live = true)
    (hfind : (s.cv.profiles.find? fun f => f.ch == n) = some p) (hlate : p.start + p.npred + 25 ≤ s.fr.count) :
    exec (.profileTimeout n) s = .next (s.endProfile p false) := by
  simp [exec, execProfileTimeout, hfind, hlive, Profile.late, hlate]

end

/-- Settles O37: each event acts where its condition holds; a start ends by its own end, a counted restart goes by the restarts of
the last 60 s, and the port of a stopped rail stays as it was (what the stop does to a CV_SET: log 201). -/
theorem converterEventsAct : Obligations.ConverterEventsAct := by
  refine ⟨fun s hlive hstart hreg hstep hret => ?regulation, fun s hlive hstart hreg hstep hclosed hret => ?step16,
    fun s f => exec_startFail, fun s own hlive hstart hmay hvin hidle hnext hstop hphase hlock => ?waiting,
    fun s => exec_autoRestart_none, fun s f hlive hat hdue hidle hfull => ?lockout,
    fun s f hlive hat hdue hidle hstop hphase hlock hfree => ?restart, fun s r f hlive hat hdue hst hfull => ?rail,
    fun s f => exec_shedholdExpiry,
    fun s hlive hrun hdue => ⟨_, exec_interleaveRotation hlive hrun hdue, injDisturb_cv ..⟩,
    fun s n p hlive hfind hlate => ⟨_, exec_profileTimeout hlive hfind hlate, rfl, rfl, rfl⟩⟩
  case regulation =>
    have hexec := exec_converterRegulation hlive hstart hreg hret
    rw [if_neg (by simp [hstep])] at hexec
    obtain ⟨hcv, -, -, hch⟩ := regulated_keeps s
    exact ⟨_, hexec, by rw [hcv], by rw [hcv], hch⟩
  case step16 =>
    have hexec := exec_converterRegulation hlive hstart hreg hret
    rw [if_pos (by simp [hstep, hclosed])] at hexec
    obtain ⟨hcv, -⟩ := regulated_keeps s
    exact ⟨_, hexec, by rw [openAdmission_cv, hcv], rfl, rfl, rfl⟩
  case waiting =>
    rw [exec_autoRestart hlive hstart hmay hvin hidle hnext, cvStartReq_eq hidle hstop hphase hlock, if_pos hvin]
  case lockout =>
    have hcounted := (cvCounted_due hat hdue hidle).trans (if_pos hfull)
    refine ⟨_, exec_countedRestart_converter hlive, ?_⟩
    rw [hcounted, State.postRec_cv]
    exact ⟨rfl, rfl, hidle⟩
  case restart =>
    have hcounted := (cvCounted_due hat hdue hidle).trans (if_neg (Nat.not_le.mpr hfree))
    refine ⟨_, exec_countedRestart_converter hlive, ?_⟩
    rw [hcounted, cvStartReq_eq (s := restarted s) hidle hstop hphase hlock]
    exact ⟨rfl, rfl, rfl⟩
  case rail =>
    have hstops := auxCounted_stops hat hdue hst hfull
    rw [exec_countedRestart_aux hlive (by rw [hstops, auxStopped_st, hst]), hstops, auxStopped]

end Sys2Proof.Stated
end

section
/-! ## Test injection, and the flush and the clear of Icecore -/
namespace Sys2Proof.Stated
open Sys2Proof Sys2Proof.Machine

/-! ### The start of an injection, and its points (R318-R320, R324) -/

section
variable {s : State}

theorem injEnd_running (hrun : s.inj.status = 1) (hend : s.inj.ending = none) (ab : Bool) :
    s.injEnd ab = { s with inj := { s.inj with ending := some ab } } := by
  simp [State.injEnd, hrun, hend]

theorem injEnd_over (hover : s.inj.status ≠ 1 ∨ s.inj.ending ≠ none) (ab : Bool) : s.injEnd ab = s := by
  refine if_neg fun hruns => ?_
  obtain ⟨hrun, hend⟩ : s.inj.status = 1 ∧ s.inj.ending = none := by simpa using hruns
  exact hover.elim (absurd hrun) (absurd hend)

/-- The injection as S3 finds it: signal A of PHD is the duty applied (Table 8.6). -/
def injSampled (s : State) : Inject := { s.inj with sigA := s.injDuty.getD s.inj.sigA }

theorem account_unfed {j : Inject} (hunfed : j.fed = false) : j.account = j := by
  simp [Inject.account, hunfed]

theorem injSampled_account (hunfed : s.inj.fed = false) :
    Inject.account { s.inj with sigA := s.injDuty.getD s.inj.sigA } = injSampled s :=
  account_unfed hunfed

theorem injSampled_runs (hrun : s.inj.status = 1) (harmed : s.inj.armed = false) (hend : s.inj.ending = none) :
    ¬((injSampled s).status != 1 || (injSampled s).armed || (injSampled s).ending.isSome) = true := by
  simp [injSampled, hrun, harmed, hend]

/-- AMP, as S3 reads it. -/
def injAmp (j : Inject) : ℚ := (singleVal j.f[(3 : Fin 12)]).getD 0

/-- R320: the first value of a sweep point is the sine at its phase. -/
theorem injS3_firstSine (hrun : s.inj.status = 1) (harmed : s.inj.armed = false) (hend : s.inj.ending = none)
    (hunfed : s.inj.fed = false) (hsweep : s.inj.f[(2 : Fin 12)] = 0) :
    s.injS3 = { s with inj := { injSampled s with
      value := single (injAmp s.inj * sineTurn s.inj.phase)
      phase := s.inj.phase + BitVec.ofNat 32 (s.inj.code s.inj.k), fed := true } } := by
  simp only [State.injS3, injSampled_account hunfed]
  exact (if_neg (injSampled_runs hrun harmed hend)).trans (if_pos (beq_iff_eq.mpr hsweep))

/-- R321: the value of a PRBS chip is AMP with the sign of the register's output, which leaves the point as it is. -/
theorem injS3_chip (hrun : s.inj.status = 1) (harmed : s.inj.armed = false) (hend : s.inj.ending = none)
    (hunfed : s.inj.fed = false) (hprbs : s.inj.f[(2 : Fin 12)] ≠ 0) (hbits : s.inj.bitsLeft ≠ 0) : ∃ x c b,
    s.injS3 = { s with inj := { injSampled s with
      value := if s.inj.lfsr.getLsbD 14 then injAmp s.inj else -injAmp s.inj, lfsr := x, chipLeft := c, bitsLeft := b } } := by
  have hprbs' : ¬((injSampled s).f[(2 : Fin 12)] == 0) = true := mt beq_iff_eq.mp hprbs
  have hbits' : ¬((injSampled s).bitsLeft == 0) = true := mt beq_iff_eq.mp hbits
  simp only [State.injS3, injSampled_account hunfed]
  rw [if_neg (injSampled_runs hrun harmed hend), if_neg hprbs', if_neg hbits']
  split
  · exact ⟨_, _, _, rfl⟩
  · exact ⟨_, _, s.inj.bitsLeft, rfl⟩

/-- The state after the START of an injection: its generator is reset, at its first point (R319). -/
def injStarted (s : State) : State :=
  { s with inj := Inject.arm { s.inj with
      armed := false, k := 0, restarted := false, invalid := false, clamped := false, lfsr := BitVec.allOnes 15
      chipLeft := s.inj.f[(9 : Fin 12)] + 1, bitsLeft := 32767 * (s.inj.f[(10 : Fin 12)] + 1) } }

theorem exec_injectionStart (hlive : s.live = true) (hrun : s.inj.status = 1) (harmed : s.inj.armed = true)
    (hend : s.inj.ending = none) (hdue : s.inj.startAt ≤ s.fr.count) :
    exec .injectionStart s = .next (injStarted s).injS3 :=
  congrArg Host.Outcome.next (if_pos (by simp [hlive, hrun, harmed, hend, hdue]))

/-- The state after a sweep point, before the next one or the end. -/
def pointRecorded (s : State) : State :=
  { s with free := s.free + 1, inj := { s.inj with
      recs := s.inj.recs ++ [s.sweepRec], restarted := false, invalid := false, clamped := false } }

theorem exec_sweepPointEnd (hlive : s.live = true) (hrun : s.inj.status = 1) (harmed : s.inj.armed = false)
    (hend : s.inj.ending = none) (hsweep : s.inj.f[(2 : Fin 12)] = 0) (hsettled : s.inj.settleLeft = 0)
    (hmeasured : s.inj.measLeft = 0) : exec .sweepPointEnd s =
      .next (if s.inj.k ≥ s.inj.f[(6 : Fin 12)] then (pointRecorded s).injEnd false
        else { pointRecorded s with inj := Inject.arm { (pointRecorded s).inj with k := s.inj.k + 1 } }) :=
  congrArg Host.Outcome.next (if_pos (by simp [hlive, hrun, harmed, hend, hsweep, hsettled, hmeasured, -Fin.getElem_fin]))

end

/-- Settles O38: the start resets the generator, whose first value S3 gives; the end of a point adds its record, and k says
whether it is the last. -/
theorem injectionEventsAct : Obligations.InjectionEventsAct := by
  refine ⟨fun s hlive hrun harmed hend hdue => ?start, fun s hlive hrun harmed hend hsweep hsettled hmeasured => ?point⟩
  case start =>
    have hexec := exec_injectionStart hlive hrun harmed hend hdue
    by_cases hsweep : s.inj.f[(2 : Fin 12)] = 0
    · rw [injS3_firstSine (s := injStarted s) hrun rfl hend rfl hsweep] at hexec
      exact ⟨_, hexec, rfl, hrun, rfl, rfl, fun _ => rfl, absurd hsweep, rfl, rfl⟩
    · have hfirst : (BitVec.allOnes 15).getLsbD 14 = true := by decide
      obtain ⟨x, c, b, hchip⟩ := injS3_chip (s := injStarted s) hrun rfl hend rfl hsweep
        (Nat.mul_ne_zero (by decide) (Nat.succ_ne_zero _))
      rw [hchip] at hexec
      exact ⟨_, hexec, rfl, hrun, rfl, rfl, (absurd · hsweep), fun _ => if_pos hfirst, rfl, rfl⟩
  case point =>
    have hexec := exec_sweepPointEnd hlive hrun harmed hend hsweep hsettled hmeasured
    by_cases hlast : s.inj.f[(6 : Fin 12)] ≤ s.inj.k
    · rw [if_pos hlast, injEnd_running (s := pointRecorded s) hrun hend] at hexec
      exact ⟨_, hexec, rfl, fun hmore => absurd hlast (Nat.not_le.mpr hmore), fun _ => rfl, rfl⟩
    · rw [if_neg hlast] at hexec
      exact ⟨_, hexec, rfl, fun _ => ⟨rfl, hend⟩, (absurd · hlast), rfl⟩

/-! ### INJ_START and INJ_STOP (R317, R318, R324, R437) -/

section
variable (s : State) (q : Fin 32) (op : Nat) (d : CmdArgs)

/-- A descriptor that is taken changes its Queue and the count of R412. -/
theorem entered_ex : ∃ qs n, entered s q op d = { s with qs := qs, nBeyond := n } := by
  unfold entered
  dsimp only
  split
  · exact ⟨_, _, rfl⟩
  · exact ⟨_, s.nBeyond, rfl⟩

@[simp] theorem entered_inj : (entered s q op d).inj = s.inj := by
  obtain ⟨qs, n, h⟩ := entered_ex s q op d
  rw [h]

@[simp] theorem entered_otp : (entered s q op d).otp = s.otp := by
  obtain ⟨qs, n, h⟩ := entered_ex s q op d
  rw [h]

@[simp] theorem entered_ice : (entered s q op d).ice = s.ice := by
  obtain ⟨qs, n, h⟩ := entered_ex s q op d
  rw [h]

end

section
variable {s : State} {rs : List FRec} {i : Fin 12}

theorem injVal_named {r : FRec} (hfind : (rs.find? fun r => r.fld == (0x87, i.val)) = some r) : s.injVal rs i = r.val := by
  simp [State.injVal, hfind]

theorem injVal_unnamed (hfind : (rs.find? fun r => r.fld == (0x87, i.val)) = none) : s.injVal rs i = s.inj.f[i] := by
  simp [State.injVal, hfind]

end

section
variable {s : State} {q : Fin 32} {d : CmdArgs}

/-- R437: a configuration command without a credential has its effect where its checks and those of its records pass. -/
theorem State.cfgThen_eq_effect {s : State} {t : Taken} {c : CfgSpec} {r : OpRow} (hr : opRow t.op.toNat = some r)
    (hpassed : ∀ p ∈ baseChecks r t s ++ s.cfgChecks t c, p.2 = false) (hcred : c.needCred = false) (eff : State → State) :
    s.cfgThen t c eff = eff s := by
  simp [State.cfgThen, hr, firstStatus_eq_none hpassed, hcred]

/-- The fields of the injection that an INJ_START leaves (R437). -/
def injFields (t : Taken) (s : State) : Vector Nat 12 := Vector.ofFn fun i : Fin 12 => s.injVal (cfgRecs t) i

/-- The Frame at which an injection with this START begins (R318, log 175). -/
def injStartAt (s : State) (start : Nat) : Nat :=
  if start == 0 then (s.fr.count / 250 + 1) * 250 else s.fr.count + s.framesTo start

/-- The injection that INJ_START arms. -/
def injArmed (t : Taken) (s : State) : Inject :=
  { (default : Inject) with
    status := 1, armed := true, f := injFields t s, startAt := injStartAt s (injFields t s)[(11 : Fin 12)], owner := t.owner
    res := t.target }

theorem injFields_get (t : Taken) (s : State) (i : Fin 12) : (injFields t s)[i] = s.injVal (cfgRecs t) i := by
  simp [injFields]

theorem exec_injStart_accepted (haccepted : Accepted (.injStart q d) s q 0x0B01 d) :
    let t := taken s q 0x0B01 d
    let e := entered s q 0x0B01 d
    exec (.injStart q d) s =
      .next (({ e with inj := injArmed t e } : State).complete t 1 none (cfgPassed t) (evt := true)) := by
  obtain ⟨hready, r, hr, hpassed⟩ := haccepted
  intro t e
  have hrow : exec (.injStart q d) s = .next (cmdInjStart t e) := congrArg Host.Outcome.next (rowCmd_atOnce hready ..)
  rw [hrow]
  unfold cmdInjStart
  extract_lets f start
  exact congrArg Host.Outcome.next (State.cfgThen_eq_effect (opRow_ofNat hr) hpassed rfl _)

theorem exec_injStop_accepted (haccepted : Accepted (.injStop q d) s q 0x0B02 d) :
    let t := taken s q 0x0B02 d
    let e := entered s q 0x0B02 d
    exec (.injStop q d) s = .next (withStaged (if s.inj.res = t.target then e.injEnd true else e) t .tick [] []) := by
  intro t e
  rw [← stage_eq_withStaged, ← entered_inj s q 0x0B02 d]
  refine exec_accepted (f := cmdInjStop) (eff := fun u =>
    (if u.inj.res = t.target then u.injEnd true else u).stage t .tick []) haccepted rfl ?_
  simp only [cmdInjStop, ownChecks, beq_iff_eq]
  rfl

end

/-! ### Completions of the Queues outside Class A open no record (R409, R413) -/

/-- Icecore and the class of each Queue are the same. -/
structure Unrecorded (s t : State) : Prop where
  ice : t.ice = s.ice
  cls : ∀ q : Fin 32, (t.qs[q]).cls = (s.qs[q]).cls

theorem Unrecorded.refl (s : State) : Unrecorded s s := ⟨rfl, fun _ => rfl⟩

theorem Unrecorded.trans {s t u : State} (h : Unrecorded s t) (k : Unrecorded t u) : Unrecorded s u :=
  ⟨k.ice.trans h.ice, fun q => (k.cls q).trans (h.cls q)⟩

theorem Unrecorded.of_eq {s t : State} (hice : t.ice = s.ice) (hqs : t.qs = s.qs) : Unrecorded s t :=
  ⟨hice, fun _ => by rw [hqs]⟩

theorem settle_cls (k : Queue) : k.settle.cls = k.cls := by
  unfold Queue.settle
  split
  · rfl
  · rfl

section
variable (s : State)

theorem updQ_unrecorded (p : Fin 32) {f : Queue → Queue} (hf : ∀ k, (f k).cls = k.cls) : Unrecorded s (s.updQ p f) := by
  refine ⟨rfl, fun q => ?_⟩
  by_cases hq : q = p
  · subst hq
    rw [State.updQ_same, hf]
  · rw [State.updQ_other _ _ _ _ hq]

theorem ringWrite_unrecorded (q : Fin 32) (bs : List Byte) : Unrecorded s (s.ringWrite q bs) :=
  (updQ_unrecorded s q (f := fun k => { k with
    cqTail := if (s.qs[q]).cqTail + 1 ≥ (s.qs[q]).depth then 0 else k.cqTail + 1
    phase := if (s.qs[q]).cqTail + 1 ≥ (s.qs[q]).depth then !k.phase else k.phase }) fun _ => rfl).trans (.of_eq rfl rfl)

theorem sendMsg_unrecorded (lane : Cls) (typ dst queue cls : Nat) (pl : List Byte) (fr : Option (Fin 32 × Option Nat))
    (e : Bool) (m : Option Nat) (k : Option (Nat × Option Word)) : Unrecorded s (s.sendMsg lane typ dst queue cls pl fr e m k) :=
  overL_rel Unrecorded.refl Unrecorded.trans _ _ (fun _ _ => .of_eq (by rfl) (by rfl)) s

theorem twAdd_unrecorded (e : TwEnt) (b : Bool) : Unrecorded s (s.twAdd e b) := .of_eq rfl rfl

theorem eventPut_unrecorded (q : Fin 32) (e : Event) : Unrecorded s (s.eventPut q e) := by
  have hwritten : Unrecorded s ((s.ringWrite q (eventBytes (s.qs[q]).eseq (s.qs[q]).phase e)).updQ q fun k =>
      { k with eseq := (k.eseq + 1) % 2 ^ 32 }) :=
    (ringWrite_unrecorded s q _).trans (updQ_unrecorded _ q fun _ => rfl)
  unfold State.eventPut
  dsimp only
  split
  · exact hwritten.trans (sendMsg_unrecorded ..)
  · exact hwritten.trans (twAdd_unrecorded ..)
  · exact hwritten

theorem eventTo_unrecorded (e : Event) (q : Fin 32) : Unrecorded s (s.eventTo e q) := by
  unfold State.eventTo
  dsimp only
  split
  · exact eventPut_unrecorded s q e
  · split
    · exact updQ_unrecorded s q fun _ => rfl
    · split
      · exact updQ_unrecorded s q fun _ => rfl
      · exact updQ_unrecorded s q fun _ => rfl

theorem postOnly_unrecorded (c o : Nat) (p : List Byte) : Unrecorded s (s.postOnly c o p) := by
  unfold State.postOnly
  dsimp only
  split
  · exact .of_eq rfl rfl
  · exact overL_rel Unrecorded.refl Unrecorded.trans _ _ (fun q u => eventTo_unrecorded u _ q) s

variable {s} {t : Taken}

theorem latNote_eq_self (hcls : (s.qs[t.q]).cls ≠ .a) (lat : Nat) : s.latNote t lat = s := by
  simp [State.latNote, State.bounded, hcls, -Fin.getElem_fin]

theorem writeCpl_unrecorded (hcls : (s.qs[t.q]).cls ≠ .a) (x : Nat) (f : Option Nat) (r dt : List Byte) (e : Bool) :
    Unrecorded s (s.writeCpl t x f r dt e) := by
  unfold State.writeCpl
  extract_lets k room out asked hasData trunc fr lat ent msg s1 keep s2 s3
  split
  · exact updQ_unrecorded s t.q fun _ => settle_cls _
  · have h1 : Unrecorded s s1 := by
      unfold s1
      split
      · exact .of_eq rfl rfl
      · exact .refl s
    have h2 : Unrecorded s s2 := (h1.trans (ringWrite_unrecorded ..)).trans (updQ_unrecorded _ t.q fun _ => settle_cls _)
    clear_value s2
    have h3 : Unrecorded s s3 := h2.trans (.of_eq rfl rfl)
    have hcls3 : (s3.qs[t.q]).cls ≠ .a := by rwa [h3.cls]
    split
    · exact h3.trans (sendMsg_unrecorded ..)
    · rw [latNote_eq_self (s := s3.twAdd ..) hcls3]
      exact h3.trans (twAdd_unrecorded ..)
    · rwa [latNote_eq_self hcls3]

theorem writeOut_unrecorded (hcls : (s.qs[t.q]).cls ≠ .a) (x : Nat) (f : Option Nat) (r dt : List Byte) (e b : Bool) :
    Unrecorded s (s.writeOut t x f r dt e b) := by
  have hwritten := writeCpl_unrecorded hcls x f r dt e
  unfold State.writeOut
  dsimp only
  split
  · exact hwritten.trans (postOnly_unrecorded ..)
  · exact hwritten

theorem flushOne_unrecorded {q : Fin 32} (hcls : (s.qs[q]).cls ≠ .a) : Unrecorded s (s.flushOne q) := by
  unfold State.flushOne
  split
  next c n st fr res dt evt told hfind =>
    have hq : c.q = q := by
      have hfound := List.find?_some hfind
      simp only [Bool.and_eq_true, beq_iff_eq] at hfound
      exact hfound.1.1
    subst hq
    refine Unrecorded.trans (t := s.dropOuts _) (.of_eq rfl rfl) (writeOut_unrecorded ?_ ..)
    exact hcls
  next => exact .refl s

/-- The entries that a completion lets go are those of the same Queue (R392). -/
theorem complete_unrecorded (hcls : (s.qs[t.q]).cls ≠ .a) (x : Nat) (f : Option Nat) (r dt : List Byte) (e : Bool) :
    Unrecorded s (s.complete t x f r dt e) := by
  unfold State.complete State.close
  split
  · exact .of_eq rfl rfl
  · have hwritten := writeOut_unrecorded hcls x f r dt e false
    have hflushed := overL_rel (R := fun u v => (u.qs[t.q]).cls ≠ .a → Unrecorded u v) (fun u _ => .refl u)
      (fun h k hu => (h hu).trans (k (by rwa [(h hu).cls])))
      (List.range (s.outs.filter fun o => o.wait.isDone).length) (fun _ u => u.flushOne t.q) fun _ u => flushOne_unrecorded
    exact hwritten.trans (hflushed _ (by rwa [hwritten.cls]))

end

/-! ### ICE_FLUSH and ICE_CLEAR (R445, R530, R534) -/

section
variable {s : State} {q : Fin 32} {d : CmdArgs}

/-- R430: a command that Class A does not have is accepted from a Queue of another Class, and not while a power-fail warning stands
(R77). -/
theorem outsideClassA_of_passed {r : OpRow} {t : Taken} {e : State} {extra : List (Nat × Bool)} (hrow : r.clsA = false)
    (hpassed : ∀ p ∈ baseChecks r t e ++ extra, p.2 = false) : (e.qs[t.q]).cls ≠ .a ∧ e.pw.pfw = false := by
  have hclass := hpassed (0x21, !clsOf r (e.qs[t.q]).cls || (e.upd.recovery && !recoveryOp r.op))
    (List.mem_append_left _ (by simp [baseChecks]))
  have hwarn := hpassed (0x41, e.pw.pfw && (e.qs[t.q]).cls != .a) (List.mem_append_left _ (by simp [baseChecks]))
  have hcls : (e.qs[t.q]).cls ≠ .a := by
    intro ha
    simp [ha, clsOf, hrow, -Fin.getElem_fin] at hclass
  exact ⟨hcls, by simpa [hcls, -Fin.getElem_fin] using hwarn⟩

/-- No accepted command that Class A does not have stands under a power-fail warning, and its completion opens no record. -/
theorem accepted_outsideClassA {c : Instr} {op : Nat} (haccepted : Accepted c s q op d)
    (hrow : (opRow op).map (·.clsA) = some false) :
    (entered s q op d).pw.pfw = false ∧
      ((entered s q op d).complete (taken s q op d) 1 none (evt := true)).ice = s.ice := by
  obtain ⟨-, r, hr, hpassed⟩ := haccepted
  rw [hr] at hrow
  obtain ⟨hcls, hpfw⟩ := outsideClassA_of_passed (Option.some.inj hrow) hpassed
  exact ⟨hpfw, (complete_unrecorded hcls ..).ice.trans (entered_ice ..)⟩

theorem exec_iceFlush_accepted (haccepted : Accepted (.iceFlush q d) s q 0x0602 d) :
    let t := taken s q 0x0602 d
    let u := (entered s q 0x0602 d).complete t 1 none (evt := true)
    exec (.iceFlush q d) s = .next (u.updIce fun i => { i with
      flushing := i.flushing || !(entered s q 0x0602 d).pw.pfw, flushCmds := i.flushCmds ++ [t] }) :=
  exec_accepted (f := cmdIceFlush) (eff := fun e => (e.complete _ 1 none (evt := true)).updIce fun i => { i with
    flushing := i.flushing || !e.pw.pfw, flushCmds := i.flushCmds ++ [taken s q 0x0602 d] }) haccepted rfl rfl

theorem tokenOk_congr {u v : State} (hotp : u.otp = v.otp) (b : List Byte) : u.tokenOk b = v.tokenOk b := by
  simp only [State.tokenOk, hotp]

theorem iceSeq_congr {u v : State} (hice : u.ice = v.ice) : u.iceSeq = v.iceSeq := by
  simp only [State.iceSeq, hice]

/-- What an ICE_CLEAR comes to after its completion, u: its token and the HEAD in it are those of s (R445). -/
def clearOutcome (s : State) (t : Taken) (u : State) : State :=
  if !s.tokenOk t.body then u.cmdDone t 0x10
  else if getLe t.body 4 4 != s.iceSeq then u.cmdDone t 0x12 (le 4 s.iceSeq)
  else u.iceClearStart t

theorem exec_iceClear_accepted (haccepted : Accepted (.iceClear q d) s q 0x0603 d) :
    let t := taken s q 0x0603 d
    exec (.iceClear q d) s = .next (clearOutcome s t ((entered s q 0x0603 d).complete t 1 none (evt := true))) := by
  intro t
  have hseq : (entered s q 0x0603 d).iceSeq = s.iceSeq := iceSeq_congr (entered_ice ..)
  rw [clearOutcome, ← tokenOk_congr (entered_otp s q 0x0603 d), ← hseq]
  exact exec_accepted (f := cmdIceClear) (eff := fun e => if !e.tokenOk t.body then (e.complete t 1 none (evt := true)).cmdDone t 0x10
    else if getLe t.body 4 4 != e.iceSeq then (e.complete t 1 none (evt := true)).cmdDone t 0x12 (le 4 e.iceSeq)
    else (e.complete t 1 none (evt := true)).iceClearStart t) haccepted rfl rfl

section
variable {t : Taken} (u : State)

theorem clearOutcome_badToken (hbad : s.tokenOk t.body = false) : clearOutcome s t u = u.cmdDone t 0x10 :=
  if_pos (by simp [hbad])

theorem clearOutcome_notNewest (hok : s.tokenOk t.body = true) (hother : getLe t.body 4 4 ≠ s.iceSeq) :
    clearOutcome s t u = u.cmdDone t 0x12 (le 4 s.iceSeq) :=
  (if_neg (by simp [hok])).trans (if_pos (by simp [hother]))

theorem clearOutcome_begins (hok : s.tokenOk t.body = true) (hnewest : getLe t.body 4 4 = s.iceSeq) :
    clearOutcome s t u = u.iceClearStart t :=
  (if_neg (by simp [hok])).trans (if_neg (by simp [hnewest]))

end

/-- R534: the CLEARED record goes to the ring, and the removal up to the newest record before it runs. -/
theorem iceClearStart_bounds (u : State) (t : Taken) : ∃ i, u.iceClearStart t = { u with ice := i } ∧
    i.clearing = some (t, u.iceSeq) ∧ i.clearedHead = some u.iceSeq ∧ i.buf = [] ∧ i.flushing = false := by
  unfold State.iceClearStart
  extract_lets head old o s1
  obtain ⟨i, hopen⟩ := State.iceOpen_ex (u.updIce fun i => { i with buf := [], foldPend := 0 }) 0x0002 rDevice
    ((if u.pw.pfw then 16 else 0) + 1) (le 4 head ++ le 4 old ++ le 1 o ++ le 1 t.q.val)
  have hs1 : s1 = { u with ice := i } := hopen
  rw [hs1]
  exact ⟨_, rfl, rfl, rfl, rfl, rfl⟩

end

/-- Settles O23: INJ_START is a configuration command whose records and fields in force make the injection (its start: log 175),
INJ_STOP stages its end; the completion before a flush leaves Icecore as it was, and the flush begins since no warning stands; a
clear goes by its token. -/
theorem injectionAndRecordCommandsAct : Obligations.InjectionAndRecordCommandsAct := by
  refine ⟨fun q d s haccepted => ?injStart, fun q d s haccepted => ?injStop, fun q d s haccepted => ?flush,
    fun q d s haccepted => ?clear⟩
  case injStart =>
    intro t e
    have hinj : (({ e with inj := injArmed t e } : State).complete t 1 none (cfgPassed t) (evt := true)).inj = injArmed t e :=
      State.complete_inj ..
    refine ⟨_, exec_injStart_accepted haccepted, ?_⟩
    rw [hinj]
    refine ⟨rfl, rfl, rfl, rfl, rfl, rfl, rfl, fun i => ⟨fun r hfind => ?named, fun hfind => ?inForce⟩, fun hnow => ?period,
      fun hlater => ?frame⟩
    case named => exact (injFields_get t e i).trans (injVal_named hfind)
    case inForce =>
      rw [← entered_inj s q 0x0B01 d]
      exact (injFields_get t e i).trans (injVal_unnamed hfind)
    case period =>
      rw [← entered_fr (s := s) (q := q) (op := 0x0B01) (d := d)]
      exact if_pos (beq_iff_eq.mpr hnow)
    case frame =>
      rw [← entered_fr (s := s) (q := q) (op := 0x0B01) (d := d)]
      exact if_neg (mt beq_iff_eq.mp hlater)
  case injStop =>
    intro t e
    have hexec := exec_injStop_accepted haccepted
    refine ⟨fun hrun hend hres => ?_, fun hother => ?_⟩
    · rw [hexec, if_pos hres, injEnd_running (by rwa [entered_inj]) (by rwa [entered_inj])]
    · rw [hexec]
      by_cases hres : s.inj.res = t.target
      · have hover : s.inj.status ≠ 1 ∨ s.inj.ending ≠ none := by
          simpa only [hres, ne_eq, not_true, or_false] using hother
        rw [if_pos hres, injEnd_over (by rwa [entered_inj])]
      · rw [if_neg hres]
  case flush =>
    intro t u
    obtain ⟨hpfw, hice⟩ := accepted_outsideClassA haccepted rfl
    refine ⟨_, exec_iceFlush_accepted haccepted, rfl, ?_, ?_⟩
    · exact congrArg (fun i => i.flushCmds ++ [t]) hice
    · simp [hpfw]
  case clear =>
    intro t u
    have hexec : exec (.iceClear q d) s = .next (clearOutcome s t u) := exec_iceClear_accepted haccepted
    have hch : u.ch = s.ch := (State.complete_ch ..).trans (entered_ch ..)
    clear_value u
    refine ⟨fun hbad => ?badToken, fun hok hother => ?notNewest, fun hok hnewest => ?begins⟩
    case badToken => rw [hexec, clearOutcome_badToken u hbad]
    case notNewest => rw [hexec, clearOutcome_notNewest u hok hother]
    case begins =>
      obtain ⟨i, hstart, hclearing, hhead, hbuf, hflushing⟩ := iceClearStart_bounds u t
      rw [clearOutcome_begins u hok hnewest, hstart] at hexec
      exact ⟨_, hexec, rfl, hclearing, hhead, hbuf, hflushing, hch⟩

end Sys2Proof.Stated
end

section
/-! ## Hold-up and the return to the backbone -/
namespace Sys2Proof.Stated
open Sys2Proof Sys2Proof.Machine

/-! ### A transition between the states away from NORMAL (R333) -/

/-- Between HOLDUP, SPENT and RETURN no command completes and no capture fires; a test goes on only where HOLDUP is entered (R336). -/
theorem huEnter_zone {s : State} {dst : HuState} (hfrom : s.zone.hu ≠ .normal) (hto : dst ≠ .normal) (cause : Nat) :
    let z := (s.huEnter dst cause).zone
    z.hu = dst ∧ z.huCause = cause ∧ z.retStep = (if dst = .ret then 1 else 0) ∧
      z.testEnd = if dst = .holdup then s.zone.testEnd else none := by
  simp [State.huEnter, hfrom, hto]

/-- RETURN begins with step 1 of Table 9.5, outside any test. -/
theorem enterReturn_zone {s : State} (hfrom : s.zone.hu ≠ .normal) :
    let z := s.enterReturn.zone
    z.hu = .ret ∧ z.retStep = 1 ∧ z.retAt = s.fr.count ∧ z.retSpent = (s.zone.hu == .spent) ∧ z.testEnd = none := by
  obtain ⟨hhu, -, hstep, htest⟩ := huEnter_zone hfrom (dst := .ret) (by decide) 0
  exact ⟨hhu, hstep, rfl, rfl, htest⟩

/-! ### A change of the converter's direction leaves the zone alone (R254, R329) -/

theorem injEnd_zone (s : State) (aborted : Bool) : (s.injEnd aborted).zone = s.zone := by
  unfold State.injEnd
  split
  · rfl
  · rfl

theorem auxReinit_zone (s : State) (r : Fin 4) : (s.auxReinit r).zone = s.zone := by
  unfold State.auxReinit
  split
  · rfl
  · rfl

theorem initLaw_zone (s : State) (m : CvMode) (target : ℚ) : (s.initLaw m target).zone = s.zone := by
  unfold State.initLaw
  exact (injEnd_zone ..).trans (State.updCv_zone ..)

theorem cvTurn_zone (s : State) (m : CvMode) : (s.cvTurn m).zone = s.zone := by
  unfold State.cvTurn
  extract_lets s1
  have hs1 : s1.zone = (s.initLaw m (if m == .boost then s.hvSet else s.buckV)).zone :=
    overL_rel (R := fun u t => t.zone = u.zone) (fun _ => rfl) (fun h k => k.trans h) _ _ (fun r u => auxReinit_zone u r) _
  clear_value s1
  exact hs1.trans (initLaw_zone ..)

/-! ### The events -/

section
variable {s : State}

theorem exec_holdupReturn (hlive : s.live = true) (hdrives : s.drives = true) (hnext : s.zone.huNext = none)
    (hfrom : (s.zone.hu = .holdup ∧ s.zone.testEnd = none) ∨ s.zone.hu = .spent) (hback : 250 * s.znf Fld.HURET ≤ s.zone.retRun) :
    exec .holdupReturn s = .next s.enterReturn :=
  congrArg Host.Outcome.next (if_pos (by simp [hlive, hdrives, hnext, hfrom, hback]))

theorem exec_huTestEnd {f : Nat} (hlive : s.live = true) (hdrives : s.drives = true) (hnext : s.zone.huNext = none)
    (hfrom : s.zone.hu = .holdup) (htest : s.zone.testEnd = some f) (hdue : f ≤ s.fr.count) :
    exec .huTestEnd s = .next s.enterReturn :=
  congrArg Host.Outcome.next (if_pos (by simp [hlive, hdrives, hnext, hfrom, htest, hdue]))

/-- R344: the zone falls back to HOLDUP with the switch to open, in whichever direction the converter was. -/
theorem exec_returnTimeout (hlive : s.live = true) (hdrives : s.drives = true) (hret : s.zone.hu = .ret)
    (hspent : s.zone.retSpent = false) (hnext : s.zone.huNext = none) (hlate : s.zone.retAt + 25000 ≤ s.fr.count) :
    ∃ t, exec .returnTimeout s = .next t ∧ t.zone = { (s.huEnter .holdup 8).zone with isoNext := some false } := by
  refine ⟨_, congrArg Host.Outcome.next (if_pos (by simp [hlive, hdrives, hret, hspent, hnext, hlate])), ?_⟩
  dsimp only
  split
  case isTrue => rfl
  case isFalse =>
    split
    case isTrue => exact cvTurn_zone ..
    case isFalse => rfl

/-- R345: the start waits on, so the return is over. -/
theorem exec_spentStartTimeout (hlive : s.live = true) (hdrives : s.drives = true) (hret : s.zone.hu = .ret)
    (hspent : s.zone.retSpent = true) (hnext : s.zone.huNext = none) (hstep : s.zone.retStep = 2)
    (hwaits : cvRunning s.cv.start = false) (hlate : s.zone.isoClosedAt + 25000 ≤ s.fr.count) :
    exec .spentStartTimeout s = .next s.huReturned := by
  refine congrArg Host.Outcome.next (if_pos ?_)
  cases hstart : s.cv.start with
  | running f => simp [hstart, cvRunning] at hwaits
  | none => simp [hlive, hdrives, hret, hspent, hnext, hstep, hlate]
  | waiting own => simp [hlive, hdrives, hret, hspent, hnext, hstep, hlate]

end

/-- Settles O39: each event by its own equation; both ways into RETURN enter it alike, and the turn of the converter at the fall back
leaves the zone as the transition has it. A chip that does not run or does not drive does none of this (R336, R511). -/
theorem holdUpEventsAct : Obligations.HoldUpEventsAct := by
  refine ⟨fun s hlive hdrives hnext hfrom hback => ?holdupReturn, fun s f hlive hdrives hnext hfrom htest hdue => ?testEnd,
    fun s hlive hdrives hret hspent hnext hlate => ?returnTimeout, fun s => exec_spentStartTimeout, fun s hidle => ?idle⟩
  case holdupReturn =>
    have haway : s.zone.hu ≠ .normal := by
      rcases hfrom with ⟨hholdup, -⟩ | hspent
      · simp [hholdup]
      · simp [hspent]
    obtain ⟨hhu, hstep, hat, hspent, -⟩ := enterReturn_zone haway
    exact ⟨_, exec_holdupReturn hlive hdrives hnext hfrom hback, hhu, hstep, hat, by rw [hspent, beq_iff_eq]⟩
  case testEnd =>
    obtain ⟨hhu, -, -, hspent, htestEnd⟩ := enterReturn_zone (s := s) (by simp [hfrom])
    exact ⟨_, exec_huTestEnd hlive hdrives hnext hfrom htest hdue, hhu, by rw [hspent, hfrom]; rfl, htestEnd⟩
  case returnTimeout =>
    obtain ⟨t, hexec, hzone⟩ := exec_returnTimeout hlive hdrives hret hspent hnext hlate
    obtain ⟨hhu, hcause, -⟩ := huEnter_zone (s := s) (dst := .holdup) (by simp [hret]) (by decide) 8
    exact ⟨t, hexec, by rw [hzone, hhu], by rw [hzone, hcause], by rw [hzone]⟩
  case idle =>
    have hoff : (s.live && s.drives) = false := Bool.and_eq_false_iff.mpr hidle
    refine ⟨congrArg Host.Outcome.next (if_neg ?_), congrArg Host.Outcome.next (if_neg ?_),
      congrArg Host.Outcome.next (if_neg ?_), congrArg Host.Outcome.next (if_neg ?_)⟩
    all_goals simp [hoff]

end Sys2Proof.Stated
end

section
/-! Queue memory stays in its canonical form (R385, log 13): the operations that keep the supply state store bytes by writes that keep
it, and each operation that moves the supply state leaves queue memory alone, or clears it where the logic die loses it. -/

namespace Sys2Proof.Stated

open Sys2Proof Sys2Proof.Machine

/-- Queue memory is in its canonical form. -/
def Canonical (s : State) : Prop := memWf s.qmem = true

/-- A command completes with canonical queue memory. -/
def CanonSafe (o : Host.Outcome State Fault Refusal) : Prop := ∃ t, o = .next t ∧ Canonical t

section
variable {s t : State}

theorem CanonSafe.next (hc : Canonical t) : CanonSafe (.next t) := ⟨t, rfl, hc⟩

theorem Canonical.kept (hc : Canonical s) (k : Kept false s t) : Canonical t := k.wf hc

theorem Canonical.ite {c : Prop} [Decidable c] (hs : Canonical s) (ht : Canonical t) : Canonical (if c then s else t) := by
  split
  · exact hs
  · exact ht

/-! ### Updates that are no store -/

theorem Canonical.updPw {f : Power → Power} (hc : Canonical s) : Canonical (s.updPw f) := hc

theorem Canonical.updFr {f : Machine.Frm → Machine.Frm} (hc : Canonical s) : Canonical (s.updFr f) := hc

theorem Canonical.updClk {f : Clk → Clk} (hc : Canonical s) : Canonical (s.updClk f) := hc

theorem Canonical.updUpd {f : Upd → Upd} (hc : Canonical s) : Canonical (s.updUpd f) := hc

theorem Canonical.updKrg {f : Krg → Krg} (hc : Canonical s) : Canonical (s.updKrg f) := hc

/-! ### Resets, wakes and shutdowns -/

/-- A logic-die reset clears queue memory, or leaves the whole machine alone. -/
theorem Canonical.logicReset {cause step : Nat} {die : LogicDie} (hc : Canonical s) :
    Canonical (s.logicReset cause die step) := by
  unfold State.logicReset
  extract_lets pair ref s0 heads s1 s2
  exact .ite hc reset_wf

theorem Canonical.resetTo4 {cause : Nat} (hc : Canonical s) : Canonical (s.resetTo4 cause) := .ite hc.logicReset hc

/-- Leaving DORMANT touches no queue memory. -/
theorem Canonical.wakeNow {src : Nat} (hc : Canonical s) : Canonical (s.wakeNow src) := by
  unfold State.wakeNow
  exact hc.updPw.kept (Kept.refl _).keepEvent

theorem Canonical.wakeFire {src : Nat} (hc : Canonical s) : Canonical (s.wakeFire src) := by
  have h : Kept false s s := .refl s
  exact .ite hc.wakeNow (.ite hc (.ite (hc.kept h.dormAbandon) hc))

theorem Canonical.tw0Away (hc : Canonical s) : Canonical s.tw0Away := by
  have hn : Canonical (s.twNack .tw0) := hc.kept (Kept.refl s).twNack
  exact .ite hn hn.wakeFire

/-- Step 7 of the Dormant entry switches the logic die off (Table 2.11). -/
theorem canonical_dormOff (s : State) : Canonical s.dormOff := by
  unfold State.dormOff
  extract_lets
  split
  · exact Canonical.wakeNow reset_wf
  · exact reset_wf

theorem Canonical.thShutdown {code src : Nat} {v : Int} (hc : Canonical s) : Canonical (s.thShutdown code src v) := by
  unfold State.thShutdown
  refine .ite hc ?_
  extract_lets release s1 s2 s3 s4 pl s5 _ s6
  have h5 : Kept false s s5 := (Kept.refl s).updTh.setFault.cvFault.iceRecord.iceRecord.postOnly.iceFlushed.allOff
  have h6 : Kept false s s6 := .ite h5.other h5.updZone
  exact h6.wf hc

theorem Canonical.krgFault {kind c : Nat} {miss bad : BitVec 16} (hc : Canonical s) :
    Canonical (s.krgFault kind c miss bad) := by
  unfold State.krgFault
  extract_lets k clean n payload s1 s2
  have h2 : Kept false s s2 := ((Kept.refl s).updKrg (by rfl)).setFault.keepKrgFault
  exact .ite (hc.kept h2.keepEvent).logicReset (hc.kept h2).resetTo4

theorem Canonical.krgGood {c : Nat} (hc : Canonical s) : Canonical (s.krgGood c) := by
  unfold State.krgGood
  extract_lets k run s1 good s2
  have h1 : Canonical s1 := hc.kept ((Kept.refl s).when fun _ hu => hu.iceRecord)
  have h2 : Canonical s2 := h1.updKrg
  exact .ite (h2.kept (Kept.refl s2).other) h2

/-! ### Starts -/

theorem Canonical.startBase {off : Nat} (hc : Canonical s) : Canonical (s.startBase off) := by
  unfold State.startBase
  extract_lets masks s1 s2 _ _ _ _ _ s3 s4
  have h2 : Canonical s2 := hc.kept (Kept.refl s).settingsStart.burnAtStart.tmbLock
  have h3 : Canonical s3 := by
    unfold s3
    clear_value s2
    exact h2
  have h4 : Kept false s3 s4 := .ite (Kept.refl s3).cvConfigure (.refl s3)
  exact h3.kept h4.grpStart

theorem Canonical.enterRecovery (hc : Canonical s) : Canonical s.enterRecovery := by
  unfold State.enterRecovery
  extract_lets old open' s1 evs s2
  have h2 : Canonical s2 := hc
  exact h2.kept ((Kept.refl s2).overL fun _ _ hu => hu.postRec)

/-! ### Periods and Frames -/

theorem Canonical.thPeriod (hc : Canonical s) : Canonical s.thPeriod := by
  unfold State.thPeriod
  extract_lets s1
  have h1 : Kept false s s1 := (Kept.refl s).other.thSense.thNtc
  split
  · exact (hc.kept h1).thShutdown
  · exact .ite (hc.kept h1).thShutdown (hc.kept h1.thLevel.thRestore)

theorem Canonical.period {p : PeriodIn} (hc : Canonical s) : Canonical (s.period p) := by
  unfold State.period
  extract_lets s1 s2 s3
  have h1 : Canonical s1 := (hc.kept (Kept.refl s).hingeTest.applyDue.periodDone).thPeriod
  have h3 : Kept false s1 s3 :=
    (Kept.refl s1).meterPeriod.energyPeriod.creepPeriod.slicePeriod.overL fun _ _ hu => hu.supplyCheck
  exact .ite h1 (h1.kept h3.snapPeriod.snapRecord.figures.hingePeriod.commands)

theorem Canonical.ceHalt (hc : Canonical s) : Canonical s.ceHalt := by
  have halted : Canonical (State.ceHalt.halt s) := hc.updFr.kept (Kept.refl _).cvFault
  unfold State.ceHalt
  split
  · exact .ite hc.resetTo4 halted
  · exact halted

theorem Canonical.overrunCount (hc : Canonical s) : Canonical s.overrunCount := by
  unfold State.overrunCount
  refine .ite hc ?_
  extract_lets s1
  have h1 : Canonical s1 := hc.updFr
  exact .ite (h1.updFr.kept (Kept.refl _).setFault).ceHalt h1

theorem Canonical.frame {i : FrameIn} (hc : Canonical s) : Canonical (s.frame i) := by
  unfold State.frame
  extract_lets s0 s1 s2 s3
  have h0 : Canonical (s0.lastS5 i.s5Carry) := hc.kept (Kept.refl s).fireRecord.senseFrame.switchFrame.arcFeed.lastS5
  have ticked : Kept false ((s0.lastS5 i.s5Carry).updFr fun f => f.advance (s0.lastS5 i.s5Carry).clk.relocking i.s5Carry) s1 :=
    (State.atTick_kept _ _).s0.s1
  have h2 : Canonical s2 := ((h0.updFr.kept ticked).kept (Kept.refl s1).ceSlots).updFr
  have sent : Kept false s2 (when s3.drives State.placeSinks s3).netTick :=
    ((Kept.refl s2).sendCodes.when fun _ hu => hu.placeSinks).netTick
  exact h2.kept sent.other

/-! ### The commands that move the supply state -/

theorem Canonical.execPowerUp (hc : Canonical s) : CanonSafe (execPowerUp s) := .next (.ite hc hc)

theorem Canonical.execLogicPorRelease (hc : Canonical s) : CanonSafe (execLogicPorRelease s) := .next (.ite hc hc)

theorem Canonical.execResetN (hc : Canonical s) : CanonSafe (execResetN s) := by
  unfold Machine.execResetN
  extract_lets s1
  have h1 : Canonical s1 := hc
  exact .next (.ite h1 h1.logicReset)

theorem Canonical.execResetNRelease (hc : Canonical s) : CanonSafe (execResetNRelease s) := .next hc

theorem Canonical.execCrystalFault (hc : Canonical s) : CanonSafe (execCrystalFault s) := by
  unfold Machine.execCrystalFault
  refine .next (.ite hc (.ite (hc.updClk.kept (Kept.refl _).setFault.keepEvent.keepEvent) ?_))
  extract_lets s0 s1 s2
  have h1 : Canonical s1 := (hc.kept (Kept.refl s).other.gensToRc).updClk.updFr (f := fun f => { f with freeze := true })
  exact h1.kept (Kept.refl s1).setFault.iceRecord.iceRecord.linkTo.linkTo

theorem Canonical.execPllLock (hc : Canonical s) : CanonSafe (execPllLock s) := by
  unfold Machine.execPllLock
  refine .next (.ite ?_ hc)
  extract_lets s0 s1
  have h0 : Kept false s s0 := (Kept.refl s).updKrg (by rfl)
  have tried : Kept false s (s1.bootTry s1.upd.tryOrder).2 := (h0.updUpd (Upd.loadRec_recovery _)).slotsAtBoot.bootTry
  split
  case h_1 s2 e =>
    rw [e] at tried
    exact (hc.kept tried).enterRecovery
  case h_2 b s2 e =>
    rw [e] at tried
    extract_lets img s3 _ s4
    have h3 : Kept false (s2.updUpd fun u => { u with booted := b, recovery := false, trialPeriods := 0 }) s3 :=
      (Kept.refl _).provision
    exact ((hc.kept tried).updUpd.kept h3.other).updPw

theorem Canonical.execCeRelease {off : Nat} (hc : Canonical s) : CanonSafe (execCeRelease off s) :=
  .next (.ite (hc.startBase.kept (Kept.refl _).startRecords) hc)

theorem Canonical.execFrameOverrun {slot : Fin 4} (hc : Canonical s) : CanonSafe (execFrameOverrun slot s) := by
  unfold Machine.execFrameOverrun
  refine .next (.ite ?_ hc)
  extract_lets s1 s2
  have h1 : Canonical s1 := hc.kept (Kept.refl s).iceRecord
  have h2 : Canonical s2 := h1.updFr.kept (Kept.refl _).updHinge
  exact h2.overrunCount

theorem Canonical.execCeRestart (hc : Canonical s) : CanonSafe (execCeRestart s) := by
  unfold Machine.execCeRestart
  extract_lets s1 s2
  have h1 : Canonical s1 := hc
  have h2 : Kept false s1 s2 := .ite (Kept.refl s1).injEnd (Kept.refl s1).initLaw
  exact .next (.ite (h1.kept (h2.overL fun _ _ hu => hu.auxReinit)) hc)

theorem Canonical.execHkRound {i : HkIn} (hc : Canonical s) : CanonSafe (execHkRound i s) := by
  unfold Machine.execHkRound
  extract_lets s1 s2
  have h2 : Canonical s2 := hc.kept (.ite (Kept.refl s).other.iceRecord (Kept.refl s).other)
  refine .next (.ite ?_ hc)
  split
  · exact h2.thShutdown
  · exact h2

theorem Canonical.execComparatorTrip {x : CmpSeen} (hc : Canonical s) : CanonSafe (execComparatorTrip x s) := by
  unfold Machine.execComparatorTrip
  extract_lets n
  have latched : Canonical (s.compLatch n) := hc.kept (Kept.refl s).compLatch
  have tripped : Canonical (s.compHeld n).placeSinks := hc.kept (Kept.refl s).compHeld.placeSinks
  exact .next (.ite hc (.ite (.ite (.ite latched.wakeFire latched) (hc.kept (Kept.refl s).noteDecisions))
    (.ite hc (.ite tripped.wakeFire tripped))))

theorem Canonical.execWake {src : WakeSrc} (hc : Canonical s) : CanonSafe (execWake src s) := by
  refine .next ?_
  cases src with
  | wakeIn => exact .ite hc hc.wakeFire
  | t1s => exact .ite hc hc.wakeFire
  | tw0 => exact .ite hc hc.tw0Away

theorem Canonical.execTw0BlockRead {code : Byte} (hc : Canonical s) : CanonSafe (execTw0BlockRead code s) := by
  refine .next ?_
  split
  · exact hc.kept (Kept.refl s).twOut
  · exact .ite hc.tw0Away (hc.kept (Kept.refl s).twOut)

theorem Canonical.execTw0QuickCommand (hc : Canonical s) : CanonSafe (execTw0QuickCommand s) := by
  refine .next ?_
  split
  · exact hc.kept (Kept.refl s).twOut
  · exact .ite hc.tw0Away (hc.kept (Kept.refl s).twOut)

theorem Canonical.execKeyringWakeInterval (hc : Canonical s) : CanonSafe (execKeyringWakeInterval s) :=
  .next (.ite hc.updKrg.wakeFire hc)

/-- Every step of the Dormant entry but the last keeps the supply state; the last switches the logic die off. -/
theorem Canonical.execDormantEntryStep (hc : Canonical s) : CanonSafe (execDormantEntryStep s) := by
  have h : Kept false s s := .refl s
  unfold Machine.execDormantEntryStep
  refine .next (.ite hc ?_)
  extract_lets to'
  have stepped {k : Nat} {u : State} (hu : Kept false s u) : Canonical (to' k u) := hu.wf hc
  split
  · exact stepped (h.pdSleep.overL fun _ _ hu => hu.auxOff.completeOuts fun _ _ hv => hv.finish)
  · exact stepped (.ite h.cvHalt h.updCv)
  · exact .ite (stepped h.dormHold) hc
  · exact stepped h.dormStore
  · exact stepped h.dormPumps
  · exact canonical_dormOff s
  · exact hc

theorem Canonical.execEccDouble {r : Region} {addr : Word} {part : FirnPart} (hc : Canonical s) :
    CanonSafe (execEccDouble r addr part s) := by
  unfold Machine.execEccDouble
  refine .next (.ite hc (.ite hc.resetTo4 ?_))
  extract_lets s1
  have h1 : Kept false s s1 := (Kept.refl s).iceRecord
  cases r with
  | ceTcm => exact .ite (hc.kept h1).ceHalt (hc.kept h1)
  | capture => exact hc.kept h1.markSample
  | queueMem => exact hc.kept h1.queueEcc
  | linkBuf => exact hc.kept h1.netDrop
  | firn => exact hc.kept (.ite h1.firnEcc h1)
  | bootRom | supSram | flashWin | blockRegs => exact hc.kept h1

theorem Canonical.execKeyringSeal {count : Nat} (hc : Canonical s) : CanonSafe (execKeyringSeal count s) := by
  unfold Machine.execKeyringSeal
  exact .next (.ite (.ite hc.krgFault (.ite hc.krgFault (.ite hc.krgFault (.ite hc.krgFault hc.krgGood)))) hc)

theorem Canonical.execCommandedReset (hc : Canonical s) : CanonSafe (execCommandedReset s) := by
  refine .next ?_
  split
  · exact .ite hc.resetTo4 hc
  · exact hc

theorem canonSafe_of_movesSupply (c : Instr) (hmoves : movesSupply c = true) (hc : Canonical s) : CanonSafe (exec c s) := by
  cases c with
  | powerUp => exact hc.execPowerUp
  | keepAlivePor => exact .next reset_wf
  | logicPor => exact .next hc.logicReset
  | logicPorRelease => exact hc.execLogicPorRelease
  | resetN => exact hc.execResetN
  | resetNRelease => exact hc.execResetNRelease
  | lockstepMismatch => exact .next hc.resetTo4
  | pllLockLoss => exact .next (.ite hc.resetTo4 hc)
  | commandedReset => exact hc.execCommandedReset
  | crystalFault => exact hc.execCrystalFault
  | pllRelock => exact .next (.ite hc hc)
  | pllLock => exact hc.execPllLock
  | ceRelease off => exact hc.execCeRelease
  | frameTick i => exact .next (.ite hc.frame hc)
  | frameOverrun slot => exact hc.execFrameOverrun
  | ceRestart => exact hc.execCeRestart
  | periodBoundary p => exact .next (.ite hc.period hc)
  | hkRound i => exact hc.execHkRound
  | comparatorTrip x => exact hc.execComparatorTrip
  | wake src => exact hc.execWake
  | tw0BlockRead code => exact hc.execTw0BlockRead
  | tw0QuickCommand => exact hc.execTw0QuickCommand
  | keyringWakeInterval => exact hc.execKeyringWakeInterval
  | dormantEntryStep => exact hc.execDormantEntryStep
  | keyringSeal count => exact hc.execKeyringSeal
  | keyringEnable => exact .next (.ite hc hc)
  | expire => exact .next (.ite hc.krgFault hc)
  | eccDouble r addr part => exact hc.execEccDouble
  | _ => cases hmoves

theorem canonSafe_exec (c : Instr) (hc : Canonical s) : CanonSafe (exec c s) := by
  cases hmoves : movesSupply c with
  | true => exact canonSafe_of_movesSupply c hmoves hc
  | false =>
    obtain ⟨t, e, k⟩ := exec_keeps c s hmoves
    exact ⟨t, e, hc.kept k⟩

theorem canonSafe_step (hc : Canonical s) : CanonSafe (step s) := by
  unfold step
  split
  · exact .next hc
  · exact canonSafe_exec _ hc

end

/-- Settles O3: what keeps the supply state writes queue memory byte by byte, and what moves the supply state clears it or leaves it. -/
theorem everyStepKeepsQueueMemoryCanonical : Obligations.EveryStepKeepsQueueMemoryCanonical := by
  intro s t hc hstep
  obtain ⟨u, e, hu⟩ := canonSafe_step hc
  obtain rfl : u = t := Host.Outcome.next.inj (e.symm.trans hstep)
  exact hu

end Sys2Proof.Stated
end

section
/-! Queue memory as a store (R385, log 13), and the 64 bytes of a descriptor (Table 11.3). -/

namespace Sys2Proof.Machine

open Sys2Proof

/-! ### Reading back -/

/-- A store leaves every byte outside its own. -/
theorem memRead_writeL_outside {m : List Host.Cell} {a x : Nat} {bs : List Byte} (h : memWf m = true)
    (hx : x < a ∨ a + bs.length ≤ x) : memRead (memWriteL m a bs) x = memRead m x := by
  induction bs generalizing m a with
  | nil => rfl
  | cons b r ih =>
    simp only [List.length_cons] at hx
    have hne : x ≠ a := by omega
    rw [memWriteL, ih (memWrite_wf a b h) (by omega), memRead_write (n := 0) a x b h, if_neg hne]

/-- The bytes of a store read back. -/
theorem memReadN_writeL_same {m : List Host.Cell} (h : memWf m = true) (a : Nat) (bs : List Byte) :
    memReadN (memWriteL m a bs) a bs.length = bs := by
  induction bs generalizing m a with
  | nil => rfl
  | cons b r ih =>
    have hw := memWrite_wf a b h
    rw [memWriteL, List.length_cons, memReadN, ih hw, memRead_writeL_outside hw (.inl (Nat.lt_succ_self a)),
      memRead_write (n := 0) a a b h, if_pos rfl]

/-- A read of bytes that a store does not reach. -/
theorem memReadN_writeL_outside {m : List Host.Cell} {a x n : Nat} {bs : List Byte} (h : memWf m = true)
    (hx : x + n ≤ a ∨ a + bs.length ≤ x) : memReadN (memWriteL m a bs) x n = memReadN m x n := by
  induction n generalizing x with
  | zero => rfl
  | succ n ih => rw [memReadN, memReadN, memRead_writeL_outside h (by omega), ih (by omega)]

/-! ### Little-endian fields -/

@[simp] theorem length_le (k n : Nat) : (le k n).length = k := by
  induction k generalizing n with
  | zero => rfl
  | succ k ih => rw [le, List.length_cons, ih]

@[simp] theorem length_fitTo (n : Nat) (l : List Byte) : (fitTo n l).length = n := by simp [fitTo]

theorem fitTo_of_length {n : Nat} {l : List Byte} (h : l.length = n) : fitTo n l = l := by
  rw [fitTo, List.take_append_of_le_length h.ge, List.take_of_length_le h.le]

theorem ofLe_le (k n : Nat) : ofLe (le k n) = n % 256 ^ k := by
  induction k generalizing n with
  | zero => exact (Nat.mod_one n).symm
  | succ k ih =>
    rw [le, ofLe, ih, BitVec.toNat_ofNat, Nat.pow_succ' (m := 256), Nat.mod_mul]

/-- A field at the front of a list of bytes. -/
theorem getLe_le_append (k n : Nat) (l : List Byte) : getLe (le k n ++ l) 0 k = n % 256 ^ k := by
  rw [getLe, List.drop_zero, List.take_left' (length_le k n), ofLe_le]

/-- A field behind the one at the front. -/
theorem getLe_le_append_skip {j off : Nat} (h : j ≤ off) (n k : Nat) (l : List Byte) :
    getLe (le j n ++ l) off k = getLe l (off - j) k := by
  rw [getLe, getLe, List.drop_append, List.drop_of_length_le (by simpa using h), length_le, List.nil_append]

/-! ### Descriptors -/

theorem descBytes_length (op : Half) (d : CmdArgs) : (descBytes op d).length = 64 := by simp [descBytes]

/-- Table 11.3: each field stands behind the fields before it. -/
theorem parseDesc_descBytes (op : Half) {d : CmdArgs} (hwf : d.wf = true) : parseDesc (descBytes op d) = (op, d) := by
  have hparam : fitTo 48 d.param = d.param := fitTo_of_length (beq_iff_eq.mp hwf)
  have htail : (descBytes op d).drop 16 = d.param := by
    rw [descBytes, List.drop_left' (by simp), hparam]
  have half (x : Half) : BitVec.ofNat 16 (x.toNat % 256 ^ 2) = x := by simp [Nat.mod_eq_of_lt x.isLt]
  have word (x : Word) : BitVec.ofNat 32 (x.toNat % 256 ^ 4) = x := by simp [Nat.mod_eq_of_lt x.isLt]
  simp only [parseDesc, htail, hparam]
  simp [descBytes, getLe_le_append, getLe_le_append_skip, -Nat.reducePow, half, word]

end Sys2Proof.Machine

namespace Sys2Proof.Stated

open Sys2Proof Sys2Proof.Machine

/-- Settles O6: a store read back byte by byte, and the bytes that it does not reach. -/
theorem queueMemoryReadsBackWhatWasWritten : Obligations.QueueMemoryReadsBackWhatWasWritten :=
  fun _ a bs h => ⟨memReadN_writeL_same h a bs, fun _ hx => memRead_writeL_outside h hx⟩

/-- Settles O7: each field of Table 11.3 stands behind the fields before it. -/
theorem descriptorBytesDecodeToTheDescriptor : Obligations.DescriptorBytesDecodeToTheDescriptor :=
  fun op d hwf => ⟨descBytes_length op d, parseDesc_descBytes op hwf⟩

/-- What a Queue that takes commands gives next: the descriptor that its slot at SQHEAD spells. -/
theorem takeRing_of_vis {s : State} {q : Fin 32} {op : Half} {d : CmdArgs} {v : Vis} {rest : List Vis}
    (hvis : (s.qs[q]).vis = v :: rest) (htake : s.takeable q = true)
    (hslot : parseDesc (memReadN s.qmem (sqBase q + 64 * (s.qs[q]).sqHead) 64) = (op, d)) :
    s.takeRing q = some (⟨q, op, d, s.areaBytes q d, (s.qs[q]).owner, s.resOwner, v, false⟩,
      s.updQ q fun k => { k with sqHead := (k.sqHead + 1) % k.depth, vis := rest }) := by
  simp only [State.takeRing, hvis, htake, hslot, if_true]

/-- A descriptor written to the slot at SQHEAD. -/
def atHead (s : State) (q : Fin 32) (op : Half) (d : CmdArgs) : State :=
  { s with qmem := memWriteL s.qmem (sqBase q + 64 * (s.qs[q]).sqHead) (descBytes op d) }

theorem atHead_slot {s : State} (hmem : memWf s.qmem = true) (q : Fin 32) (op : Half) {d : CmdArgs} (hwf : d.wf = true) :
    parseDesc (memReadN (atHead s q op d).qmem (sqBase q + 64 * (s.qs[q]).sqHead) 64) = (op, d) := by
  have hread := memReadN_writeL_same hmem (sqBase q + 64 * (s.qs[q]).sqHead) (descBytes op d)
  rw [descBytes_length] at hread
  simp only [atHead, hread, parseDesc_descBytes op hwf]

theorem areaBytes_of_noData (s : State) (q : Fin 32) {d : CmdArgs} (hdata : d.flags.getLsbD 0 = false) :
    s.areaBytes q d = [] := by
  rw [State.areaBytes, hdata, Bool.false_and, if_neg (by decide)]

/-- Settles O8: the store at SQHEAD is read back there, and its bytes decode to the descriptor. -/
theorem writtenDescriptorIsTakenAsItself : Obligations.WrittenDescriptorIsTakenAsItself := by
  intro s q op d v rest hmem hwf hdata hvis htake
  have hready : (atHead s q op d).takeable q = true := htake
  have htaken := takeRing_of_vis (s := atHead s q op d) hvis hready (atHead_slot hmem q op hwf)
  rw [areaBytes_of_noData _ q hdata] at htaken
  exact ⟨_, htaken, by rw [State.updQ_same]; rfl, by rw [State.updQ_same]⟩

end Sys2Proof.Stated
end

section
/-! What a row of the table does with its descriptor: turned away, held behind a FENCE, not taken, a read, and FENCE itself. -/

namespace Sys2Proof.Stated

open Sys2Proof Sys2Proof.Machine

/-- Settles O9: each of the four statuses is a plain one, which turns its command away. -/
theorem refusedCommandHasNoEffect : Obligations.RefusedCommandHasNoEffect :=
  fun _ _ _ _ _ _ _ hrow hready hr hst hx => exec_turnedAway hrow hready hr hst hx

/-! ### Commands that wait, and Queues that are not taken from (R396, R417) -/

section
variable {s : State} {q : Fin 32}

/-- A descriptor that is taken begins on the state that entered names. -/
theorem rowCmd_begin (htake : s.takeable q = true) (f : Taken → State → State) (op : Nat) (d : CmdArgs) :
    s.rowCmd f op q d = (entered s q op d).begin (taken s q op d) f := by
  rw [← took_eq_entered, State.rowCmd, if_pos htake]
  rfl

theorem begin_fenced {e : State} {t : Taken} (hfence : e.fenced t.q = true) (f : Taken → State → State) :
    e.begin t f = e.updQ t.q fun k => { k with waiting := k.waiting ++ [t] } := by
  rw [State.begin, hfence, Bool.true_or, if_pos rfl]

/-- R396, Table 11.8: without a free completion entry, or outside RUN, nothing is taken. -/
theorem takeable_eq_false (h : (s.qs[q]).held + (s.qs[q]).nTaken + 1 ≥ (s.qs[q]).depth ∨ (s.qs[q]).st ≠ .run) :
    s.takeable q = false := by
  rcases h with hfull | hst
  · have hreserve : (s.qs[q]).canReserve = false := by
      rw [Queue.canReserve, decide_eq_false_iff_not]
      omega
    simp only [State.takeable, hreserve, Bool.and_false]
  · simp only [State.takeable, beq_eq_false_iff_ne.mpr hst, Bool.and_false, Bool.false_and]

end

/-- Settles O12: a command that its own FENCE holds joins those that wait, and a Queue that cannot reserve or does not run is not
takeable (that such a row has no effect is log 17). -/
theorem commandsNotTakenOrFencedAreNotExecuted : Obligations.CommandsNotTakenOrFencedAreNotExecuted := by
  refine ⟨fun c op q d s hrow htake hfence => ?_, fun c op q d s hrow hidle => ?_⟩
  · obtain ⟨f, hexec, -⟩ := exec_rowCmd_turnsAway hrow
    rw [hexec, rowCmd_begin htake, begin_fenced ((entered_fenced ..).trans hfence), taken_q]
  · obtain ⟨f, hexec, -⟩ := exec_rowCmd_turnsAway hrow
    rw [hexec, State.rowCmd, takeable_eq_false hidle, if_neg Bool.false_ne_true]

/-! ### Reads (R418, R438, R439) -/

/-- A taking changes the counts of its Queue alone. -/
theorem entered_queue (s : State) (q : Fin 32) (op : Nat) (d : CmdArgs) (r : Fin 32) :
    ((entered s q op d).qs[r]).fenceAt = (s.qs[r]).fenceAt ∧ ((entered s q op d).qs[r]).st = (s.qs[r]).st := by
  have hqs : (entered s q op d).qs = (s.updQ q fun k => { k with nIn := k.nIn + 1, nTaken := k.nTaken + 1 }).qs := by
    unfold entered
    extract_lets s1
    split
    · rfl
    · rfl
  rw [hqs]
  by_cases hr : r = q
  · subst hr
    rw [State.updQ_same]
    exact ⟨rfl, rfl⟩
  · rw [State.updQ_other _ _ _ _ hr]
    exact ⟨rfl, rfl⟩

/-- What a read does once its checks have passed: it waits for the first latch after the FENCE before it, or completes with the latch of
the present Frame; a RESULT that R439 leaves open takes a free value. -/
def readEffect (t : Taken) (free : Bool) (result data : Taken → State → List Byte) (e : State) : State :=
  match e.mustWait t.q with
  | some f => e.await t (.readAfter f)
  | none => (if free then bumped e else e).complete t 0 (some e.fr.count) (if free then openRes e else result t e)
      (if t.hasArea then data t e else [])

theorem reads_of_guarded {c : Instr} {op : Nat} {q : Fin 32} {d : CmdArgs} {f : Taken → State → State} {free : Bool}
    {result data : Taken → State → List Byte} (hexec : ∀ s, exec c s = .next (s.rowCmd f op q d))
    (heff : ∀ t e, f t e = e.guarded t (ownChecks c t e) (readEffect t free result data)) :
    Reads c op q d free result data := by
  intro s haccepted t e
  have hread : exec c s = .next (readEffect t free result data e) := exec_accepted haccepted (hexec s) (heff ..)
  have hfence : (e.qs[t.q]).fenceAt = (s.qs[q]).fenceAt := (entered_queue s q op d q).1
  have hfr : e.fr = s.fr := entered_fr
  rw [hread]
  refine ⟨fun k hk hlater => ?_, fun hpast => ?_⟩
  · have hwait : e.mustWait t.q = some (k + 1) := by
      simp only [State.mustWait, hfence, hk, hfr, hlater, if_true]
    simp only [readEffect, hwait]
    rfl
  · have hnow : e.mustWait t.q = none := by
      cases hk : (s.qs[q]).fenceAt with
      | none => simp only [State.mustWait, hfence, hk]
      | some k => simp only [State.mustWait, hfence, hk, hfr, if_neg (Nat.not_lt.mpr (hpast k hk))]
    simp only [readEffect, hnow, hfr]
    rfl

/-- Settles O18: each read is its checks and then the effect of a read; ICE_READ does not wait. The RESULT of CE_STAT is log 39, the
free RESULT of the others log 18. -/
theorem readsCompleteWithTheirData : Obligations.ReadsCompleteWithTheirData := by
  refine fun q d => ⟨?ch, ?cv, ?zone, ?bat, ?sns, ?id, ?hinge, ?pd, ?upd, ?inj, ?ce, fun s haccepted => ?ice⟩
  case ch => exact reads_of_guarded (f := cmdChRead) (fun _ => rfl) fun _ _ => rfl
  case cv =>
    refine reads_of_guarded (f := cmdCvRead) (fun _ => rfl) fun t e => ?_
    simp only [cmdCvRead, beq_iff_eq]
    rfl
  case zone => exact reads_of_guarded (f := cmdZoneRead) (fun _ => rfl) fun _ _ => rfl
  case bat =>
    refine reads_of_guarded (f := cmdBatRead) (fun _ => rfl) fun t e => ?_
    simp only [cmdBatRead, List.isEmpty_iff]
    rfl
  case sns => exact reads_of_guarded (f := cmdSnsRead) (fun _ => rfl) fun _ _ => rfl
  case id => exact reads_of_guarded (f := cmdIdRead) (fun _ => rfl) fun _ _ => rfl
  case hinge => exact reads_of_guarded (f := cmdHingeRead) (fun _ => rfl) fun _ _ => rfl
  case pd => exact reads_of_guarded (f := cmdPdRead) (fun _ => rfl) fun _ _ => rfl
  case upd => exact reads_of_guarded (f := cmdUpdRead) (fun _ => rfl) fun _ _ => rfl
  case inj =>
    refine reads_of_guarded (f := cmdInjRead) (fun _ => rfl) fun t e => ?_
    simp only [cmdInjRead, beq_iff_eq]
    rfl
  case ce =>
    refine reads_of_guarded (f := cmdCeStat) (fun _ => rfl) fun t e => ?_
    unfold cmdCeStat
    refine congrArg (e.guarded t []) (funext fun u => ?_)
    rw [readEffect, ite_self]
    rfl
  case ice =>
    rw [← entered_fr (s := s) (q := q) (op := 0x0601) (d := d)]
    let t := taken s q 0x0601 d
    exact exec_accepted (f := cmdIceRead) (eff := fun u => u.complete t 0 (some u.fr.count) (le 4 u.ice.oldest ++ le 4 u.iceSeq)
      ((u.iceRange (t.p 16 4) (t.p 20 2)).flatMap fun k => (u.iceLook k).bytes)) haccepted rfl rfl

/-! ### FENCE (R415-R418) -/

/-- The Queues that a FENCE waits for: in its scope, not its own, and in RUN. -/
def fenceScope (t : Taken) (s : State) : List (Fin 32) :=
  allQ.filter fun q => t.p 16 4 / 2 ^ q.val % 2 == 1 && q != t.q && (s.qs[q]).st == .run

/-- The commands of its scope that are open and became visible no later than the FENCE (log 166). -/
def fenceWaits (t : Taken) (s : State) : List (Fin 32 × Nat) :=
  (fenceScope t s).flatMap fun q => ((s.openIds q).filter fun v => v.2 ≤ t.vis.frame).map fun v => (q, v.1)

theorem mem_fenceScope {t : Taken} {s : State} {r : Fin 32} :
    r ∈ fenceScope t s ↔ t.p 16 4 / 2 ^ r.val % 2 = 1 ∧ r ≠ t.q ∧ (s.qs[r]).st = .run := by
  simp [fenceScope, allQ, and_assoc, -Fin.getElem_fin]

theorem mem_fenceWaits {t : Taken} {s : State} {r : Fin 32} {i : Nat} :
    (r, i) ∈ fenceWaits t s ↔ r ∈ fenceScope t s ∧ ∃ f, (i, f) ∈ s.openIds r ∧ f ≤ t.vis.frame := by
  simp [fenceWaits, and_assoc]

section
variable {s : State} {q : Fin 32} {d : CmdArgs}

theorem exec_fence_accepted (haccepted : Accepted (.fence q d) s q 0x0701 d) :
    let t := taken s q 0x0701 d
    let e := entered s q 0x0701 d
    exec (.fence q d) s = .next (if (fenceScope t e).isEmpty then e.complete t 0 none
      else e.await t (.fence (fenceWaits t e) e.fr.count)) :=
  exec_accepted (f := cmdFence) (eff := fun u => if (fenceScope (taken s q 0x0701 d) u).isEmpty
      then u.complete (taken s q 0x0701 d) 0 none
      else u.await (taken s q 0x0701 d) (.fence (fenceWaits (taken s q 0x0701 d) u) u.fr.count)) haccepted rfl rfl

theorem foldl_max_eq_or_mem (l : List Nat) (a : Nat) : l.foldl max a = a ∨ l.foldl max a ∈ l := by
  induction l generalizing a with
  | nil => exact .inl rfl
  | cons x l ih =>
    rw [List.foldl_cons]
    rcases ih (max a x) with h | h
    · rcases max_choice a x with hm | hm
      · exact .inl (h.trans hm)
      · right
        rw [h, hm]
        exact List.mem_cons_self
    · exact .inr (List.mem_cons_of_mem _ h)

/-- The Frames in which the commands that a FENCE waits for completed, the last one of each. -/
def doneFrames (s : State) (es : List (Fin 32 × Nat)) : List Nat :=
  es.filterMap fun e => (((s.qs[e.1]).doneAt.filter fun x => x.1 == e.2).map (·.2)).max?

theorem fenceFrame_eq {o : Out} {es : List (Fin 32 × Nat)} {since : Nat} (hwait : o.wait = .fence es since) :
    s.fenceFrame o = (doneFrames s es).foldl max since := by
  simp only [State.fenceFrame, hwait]
  rfl

/-- R416: the Frame of the last completion is not before any of them. -/
theorem le_doneFrames {es : List (Fin 32 × Nat)} {e : Fin 32 × Nat} {x : Nat × Nat} (he : e ∈ es)
    (hx : x ∈ (s.qs[e.1]).doneAt) (hid : x.1 = e.2) : ∃ m ∈ doneFrames s es, x.2 ≤ m := by
  have hmem : x.2 ∈ ((s.qs[e.1]).doneAt.filter fun x => x.1 == e.2).map (·.2) :=
    List.mem_map_of_mem (List.mem_filter.mpr ⟨hx, beq_iff_eq.mpr hid⟩)
  obtain ⟨m, hm⟩ := Option.ne_none_iff_exists'.mp (mt List.max?_eq_none_iff.mp (List.ne_nil_of_mem hmem))
  exact ⟨m, List.mem_filterMap.mpr ⟨e, he, hm⟩, (List.max?_eq_some_iff.mp hm).2 _ hmem⟩

theorem mem_doneFrames {es : List (Fin 32 × Nat)} {f : Nat} (hf : f ∈ doneFrames s es) :
    ∃ e ∈ es, (e.2, f) ∈ (s.qs[e.1]).doneAt := by
  obtain ⟨e, he, hmax⟩ := List.mem_filterMap.mp hf
  obtain ⟨x, hx, rfl⟩ := List.mem_map.mp (List.max?_mem hmax)
  obtain ⟨hx, hid⟩ := List.mem_filter.mp hx
  exact ⟨e, he, beq_iff_eq.mp hid ▸ hx⟩

end

/-- Settles O21: FENCE waits for what is open in its scope, log 166 for what its own Frame made visible; its Frame is the maximum of those
of the completions and of its execution (log 167). -/
theorem fenceWaitsAndCompletes : Obligations.FenceWaitsAndCompletes := by
  refine ⟨fun q d s haccepted => ?_, fun s q => ⟨fun hnone => ?_, fun o hready => ?_⟩⟩
  · intro t e inScope
    have hexec := exec_fence_accepted haccepted
    have hscope (r : Fin 32) : r ∈ fenceScope t e ↔ inScope r := by
      rw [mem_fenceScope, (entered_queue s q 0x0701 d r).2]
      rfl
    refine ⟨fun hno => ?_, fun ⟨r, hr⟩ => ⟨fenceWaits t e, ?_, fun r i => ?_⟩⟩
    · have hempty : fenceScope t e = [] := List.eq_nil_iff_forall_not_mem.mpr fun r hr => hno r ((hscope r).mp hr)
      rw [hexec, hempty]
      rfl
    · have hsome : (fenceScope t e).isEmpty = false :=
        List.isEmpty_eq_false_iff.mpr (List.ne_nil_of_mem ((hscope r).mpr hr))
      rw [hexec, hsome, if_neg Bool.false_ne_true, entered_fr]
      rfl
    · rw [mem_fenceWaits, hscope]
      rfl
  · show execFenceComplete q s = _
    simp only [execFenceComplete, hnone]
  · intro f
    refine ⟨?_, fun es since hwait => ?_⟩
    · show execFenceComplete q s = _
      simp only [execFenceComplete, hready]
      rfl
    · have hf : f = (doneFrames s es).foldl max since := fenceFrame_eq hwait
      refine ⟨hf ▸ le_foldl_max (.inl le_rfl), fun e he x hx hid => ?_, ?_⟩
      · obtain ⟨m, hm, hle⟩ := le_doneFrames he hx hid
        exact hle.trans (hf ▸ le_foldl_max (.inr hm))
      · rcases foldl_max_eq_or_mem (doneFrames s es) since with h | h
        · exact .inl (hf.trans h)
        · exact .inr (hf ▸ mem_doneFrames h)

end Sys2Proof.Stated
end

section
/-! The SPI host port: doorbells, Queue control, the registers of the port, and frames. -/

namespace Sys2Proof.Machine

open Sys2Proof

/-! ### Violations (R427) -/

/-- A violation of a Queue is logged while the log has room, and counted behind it. -/
theorem State.violation_logged (s : State) (kind path : Nat) (o : Option (Fin 16)) (q : Fin 32) (a : Nat) :
    (s.vio.length < 32 → ∃ v, (s.violation kind path o (some q) a).vio = s.vio ++ [v] ∧ v.kind = kind ∧ v.path = path ∧
      v.queue = q.val ∧ (s.violation kind path o (some q) a).vioOver = s.vioOver) ∧
    (32 ≤ s.vio.length → (s.violation kind path o (some q) a).vio = s.vio ∧
      (s.violation kind path o (some q) a).vioOver = min 65535 (s.vioOver + 1)) := by
  unfold State.violation
  extract_lets w qn src s1
  have hvio : s1.vio = s.vio := State.iceRecord_vio ..
  have hover : s1.vioOver = s.vioOver := State.iceRecord_vioOver ..
  rw [hvio, hover]
  refine ⟨fun hroom => ?_, fun hfull => ?_⟩
  · rw [if_pos hroom]
    exact ⟨_, rfl, rfl, rfl, rfl, rfl⟩
  · rw [if_neg (Nat.not_lt.mpr hfull)]
    exact ⟨rfl, rfl⟩

/-- What a violation by the SPI host leaves alone, and the flag of its frame (R471). -/
theorem State.spiViolation_keeps (s : State) (kind : Nat) (q : Option (Fin 32)) (a : Nat) :
    (s.spiViolation kind q a).qs = s.qs ∧ (s.spiViolation kind q a).qmem = s.qmem ∧ (s.spiViolation kind q a).ch = s.ch ∧
    (s.spiViolation kind q a).winBase = s.winBase ∧ (s.spiViolation kind q a).spi.sts.getLsbD 31 = true := by
  unfold State.spiViolation
  refine ⟨State.violation_qs .., State.violation_qmem .., State.violation_ch .., State.violation_winBase .., ?_⟩
  show (_ ||| 0x80000000#32).getLsbD 31 = true
  simp

/-! ### One Queue -/

/-- Of the Queues only q has changed, and not its completion head. -/
structure OnlyQueue (q : Fin 32) (s t : State) : Prop where
  other : ∀ r, r ≠ q → t.qs[r] = s.qs[r]
  cqHead : (t.qs[q]).cqHead = (s.qs[q]).cqHead

theorem OnlyQueue.of_qs {q : Fin 32} {s t : State} (h : t.qs = s.qs) : OnlyQueue q s t := ⟨fun _ _ => by rw [h], by rw [h]⟩

theorem OnlyQueue.refl (q : Fin 32) (s : State) : OnlyQueue q s s := .of_qs rfl

theorem OnlyQueue.trans {q : Fin 32} {s t u : State} (h : OnlyQueue q s t) (k : OnlyQueue q t u) : OnlyQueue q s u :=
  ⟨fun r hr => (k.other r hr).trans (h.other r hr), k.cqHead.trans h.cqHead⟩

section
variable (s : State) (q : Fin 32)

theorem State.updQ_onlyQueue {f : Queue → Queue} (hf : ∀ k, (f k).cqHead = k.cqHead) : OnlyQueue q s (s.updQ q f) :=
  ⟨fun r hr => s.updQ_other q r f hr, by rw [State.updQ_same, hf]⟩

theorem State.ringWrite_onlyQueue (bs : List Byte) : OnlyQueue q s (s.ringWrite q bs) :=
  (s.updQ_onlyQueue q (f := fun k => { k with
    cqTail := if (s.qs[q]).cqTail + 1 ≥ (s.qs[q]).depth then 0 else k.cqTail + 1
    phase := if (s.qs[q]).cqTail + 1 ≥ (s.qs[q]).depth then !k.phase else k.phase }) fun _ => rfl).trans (.of_qs rfl)

theorem State.sendMsg_qs (lane : Cls) (typ dst queue cls : Nat) (pl : List Byte) (fr : Option (Fin 32 × Option Nat))
    (e : Bool) (m : Option Nat) (k : Option (Nat × Option Word)) : (s.sendMsg lane typ dst queue cls pl fr e m k).qs = s.qs :=
  overL_rel (R := fun s t => t.qs = s.qs) (fun _ => rfl) (fun h k => k.trans h) _ _ (fun _ _ => by rfl) s

theorem State.eventPut_onlyQueue (e : Event) : OnlyQueue q s (s.eventPut q e) := by
  have written : OnlyQueue q s ((s.ringWrite q (eventBytes (s.qs[q]).eseq (s.qs[q]).phase e)).updQ q fun k =>
      { k with eseq := (k.eseq + 1) % 2 ^ 32 }) :=
    (s.ringWrite_onlyQueue q _).trans (State.updQ_onlyQueue _ q fun _ => rfl)
  unfold State.eventPut
  extract_lets k bytes s1
  split
  · exact written.trans (.of_qs (State.sendMsg_qs ..))
  · exact written.trans (.of_qs rfl)
  · exact written

theorem State.eventTo_onlyQueue (e : Event) : OnlyQueue q s (s.eventTo e q) := by
  unfold State.eventTo
  extract_lets k
  split
  · exact s.eventPut_onlyQueue q e
  · split
    · exact s.updQ_onlyQueue q fun _ => rfl
    · split
      · exact s.updQ_onlyQueue q fun _ => rfl
      · exact s.updQ_onlyQueue q fun _ => rfl

theorem State.drain_onlyQueue : OnlyQueue q s (s.drain q) := by
  refine overL_rel (OnlyQueue.refl q) OnlyQueue.trans _ _ (fun _ u => ?_) s
  unfold State.drainOne
  extract_lets k pick
  clear_value pick
  split
  · exact .refl q u
  · split
    · exact (u.eventPut_onlyQueue q _).trans (State.updQ_onlyQueue _ q fun _ => rfl)
    · split
      · exact .refl q u
      · exact (u.eventPut_onlyQueue q _).trans (State.updQ_onlyQueue _ q fun _ => rfl)

/-- An event goes to event Queues alone (R421). -/
theorem State.postOnly_noEvent (c src : Nat) (p : List Byte) (hq : (s.qs[q]).isEvent = false) :
    (s.postOnly c src p).qs[q] = s.qs[q] := by
  unfold State.postOnly
  extract_lets e
  have hmem : ∀ r ∈ s.eventQueues src, q ≠ r := by
    rintro r hr rfl
    simp [State.eventQueues, hq, -Fin.getElem_fin] at hr
  have posted (l : List (Fin 32)) (hl : ∀ r ∈ l, q ≠ r) (u : State) : (overL l (fun r u => u.eventTo e r) u).qs[q] = u.qs[q] := by
    induction l generalizing u with
    | nil => rfl
    | cons r l ih =>
      obtain ⟨hr, hl⟩ := List.forall_mem_cons.mp hl
      exact (ih hl _).trans ((u.eventTo_onlyQueue r e).other q hr)
  split
  · rfl
  · exact posted _ hmem s

/-! ### Descriptors that become visible (R394) -/

theorem State.addVis_adds (n : Nat) : (∃ l, l.length = n ∧ (s.addVis q n).qs[q] =
      { s.qs[q] with vis := (s.qs[q]).vis ++ l, nIn := (s.qs[q]).nIn + n }) ∧
    (∀ r, r ≠ q → (s.addVis q n).qs[r] = s.qs[r]) := by
  induction n with
  | zero => exact ⟨⟨[], rfl, by rw [List.append_nil]; rfl⟩, fun _ _ => rfl⟩
  | succ n ih =>
    obtain ⟨⟨l, hl, hq⟩, hother⟩ := ih
    have hstep : s.addVis q (n + 1) = (s.addVis q n).updQ q fun k =>
        { k with vis := k.vis ++ [(s.addVis q n).newVis q 0 0 false], nIn := k.nIn + 1 } := by
      rw [State.addVis, overL, List.range_succ, List.foldl_append]
      rfl
    refine ⟨⟨l ++ [(s.addVis q n).newVis q 0 0 false], by simp [hl], ?_⟩, fun r hr => ?_⟩
    · rw [hstep, State.updQ_same, hq, List.append_assoc, Nat.add_assoc]
    · rw [hstep, State.updQ_other _ _ _ _ hr, hother r hr]

theorem State.addVis_told (n : Nat) : Told s (s.addVis q n) := told_overL _ _ (fun _ u => u.updQ_told q _) s

/-! ### The rings of a Queue that starts (R399, R400, Table 11.8) -/

theorem State.freshRings_ex : ∃ g n w, s.freshRings q =
    { s.updQ q (fun k => { k.resetRings with areas := k.areas.filter g }) with net := n, tw := w } := ⟨_, _, _, rfl⟩

theorem State.freshRings_qs : ∃ g, (s.freshRings q).qs =
    (s.updQ q fun k => { k.resetRings with areas := k.areas.filter g }).qs := ⟨_, rfl⟩

/-- An enabled Queue starts with its rings reset. -/
theorem State.queueEnable_starts (hst : (s.qs[q]).st = .disabled) :
    (∃ g, (s.queueEnable q).qs[q] = { (s.qs[q]).resetRings with areas := (s.qs[q]).areas.filter g, st := .run }) ∧
    (∀ r, r ≠ q → (s.queueEnable q).qs[r] = s.qs[r]) := by
  obtain ⟨g, hfresh⟩ := s.freshRings_qs q
  have henable : s.queueEnable q = (s.freshRings q).updQ q fun k => { k with st := .run } := by
    rw [State.queueEnable, hst]
    rfl
  refine ⟨⟨g, ?_⟩, fun r hr => ?_⟩
  · rw [henable, State.updQ_same, hfresh, State.updQ_same]
  · rw [henable, State.updQ_other _ _ _ _ hr, hfresh, State.updQ_other _ _ _ _ hr]

theorem State.queueEnable_running (hst : (s.qs[q]).st = .run) : s.queueEnable q = s := by
  rw [State.queueEnable, hst]
  rfl

/-- A restarted command Queue is in RUN with its rings reset. -/
theorem State.queueRestart_starts (hst : (s.qs[q]).st = .stopped) (hcmd : (s.qs[q]).isEvent = false) :
    ((s.queueRestart q).qs[q]).st = .run ∧ ((s.queueRestart q).qs[q]).sqHead = 0 ∧ ((s.queueRestart q).qs[q]).vis = [] := by
  let u := ((s.updQ q Queue.discard).freshRings q).updQ q fun k => { k with st := .run, disabling := false }
  have hrestart : s.queueRestart q = u.postOnly 0x0704 (rQueue q) (le 2 (min 65535 (s.qs[q]).discarded)) := by
    rw [State.queueRestart, hst]
    rfl
  obtain ⟨g, hfresh⟩ := (s.updQ q Queue.discard).freshRings_qs q
  have hu : u.qs[q] = { (s.qs[q]).discard.resetRings with
      areas := (s.qs[q]).discard.areas.filter g, st := .run, disabling := false } := by
    rw [State.updQ_same, hfresh, State.updQ_same, State.updQ_same]
  have hevent : (u.qs[q]).isEvent = false := by
    rw [hu]
    exact hcmd
  rw [hrestart, State.postOnly_noEvent _ _ _ _ _ hevent, hu]
  exact ⟨rfl, rfl, rfl⟩

end

/-! ### Writes over the port (R473) -/

/-- A committed write frame has begun: the flags of its STS are clear. -/
def State.stsClear (s : State) : State := { s with spi := { s.spi with sts := 0 } }

section
variable {s : State} {q : Fin 32} {w : Word}

/-- A write that a live port serves. -/
theorem State.spiWrite_served (hlive : s.live = true) (a : Nat) (f : State → State) :
    (if s.writeServed a then s.spiWrite f else s) = f s.stsClear := by
  rw [State.writeServed, hlive, Bool.true_or, if_pos rfl]
  rfl

theorem State.recServe_eq_self (hrec : s.upd.recovery = false) : s.recServe = s := by
  rw [State.recServe, hrec]
  rfl

theorem exec_qmSqdb (hlive : s.live = true) (hrec : s.upd.recovery = false) :
    exec (.qmSqdb q w) s = .next (s.stsClear.sqdb q w) := by
  have hserve : (s.stsClear.sqdb q w).recServe = s.stsClear.sqdb q w :=
    State.recServe_eq_self ((Kept.refl s.stsClear).sqdb.recovery.trans hrec)
  exact congrArg Host.Outcome.next ((State.spiWrite_served hlive ..).trans hserve)

theorem exec_qmCqdb (hlive : s.live = true) (hrec : s.upd.recovery = false) :
    exec (.qmCqdb q w) s = .next (s.stsClear.cqdb q w) := by
  have hserve : (s.stsClear.cqdb q w).recServe = s.stsClear.cqdb q w :=
    State.recServe_eq_self ((Kept.refl s.stsClear).cqdb.recovery.trans hrec)
  exact congrArg Host.Outcome.next ((State.spiWrite_served hlive ..).trans hserve)

/-! ### Doorbells (R394-R396) -/

/-- Outside RECOVERY the SPI host has the Queues of its path and its owner. -/
theorem State.spiOwns_iff (hrec : s.upd.recovery = false) : s.spiOwns q = true ↔
    (s.qs[q]).path = .spi ∧ (s.qs[q]).owner = s.srcOwner 0x400 ∧ (s.srcOwner 0x400).isSome = true := by
  simp [State.spiOwns, hrec, -Fin.getElem_fin]

theorem State.sqdb_bad (h : (s.qs[q]).depth ≤ w.toNat % 256 ∨ ¬ s.spiOwns q = true ∨ (s.qs[q]).isEvent = true) :
    s.sqdb q w = s.spiViolation 3 (some q) (0x0100 + 8 * q.val) := by
  have hbad : (decide (w.toNat % 256 ≥ (s.qs[q]).depth) || !s.spiOwns q || (s.qs[q]).isEvent) = true := by
    rcases h with h | h | h <;> simp [h, -Fin.getElem_fin]
  exact if_pos hbad

theorem State.sqdb_good (hi : w.toNat % 256 < (s.qs[q]).depth) (howns : s.spiOwns q = true) (hcmd : (s.qs[q]).isEvent = false) :
    s.sqdb q w = (s.updQ q fun k => { k with sqTail := w.toNat % 256 }).addVis q
      ((w.toNat % 256 + (s.qs[q]).depth - (s.qs[q]).sqTail) % (s.qs[q]).depth) := by
  have hgood : (decide (w.toNat % 256 ≥ (s.qs[q]).depth) || !s.spiOwns q || (s.qs[q]).isEvent) = false := by
    simp [howns, hcmd, hi, -Fin.getElem_fin]
  exact if_neg (Bool.eq_false_iff.mp hgood)

theorem State.cqdb_bad (h : (s.qs[q]).depth ≤ w.toNat % 256 ∨ ¬ s.spiOwns q = true ∨
      (s.qs[q]).held < (w.toNat % 256 + (s.qs[q]).depth - (s.qs[q]).cqHead) % (s.qs[q]).depth) :
    s.cqdb q w = s.spiViolation 3 (some q) (0x0104 + 8 * q.val) := by
  have hbad : (decide (w.toNat % 256 ≥ (s.qs[q]).depth) || !s.spiOwns q ||
      decide ((w.toNat % 256 + (s.qs[q]).depth - (s.qs[q]).cqHead) % (s.qs[q]).depth > (s.qs[q]).held)) = true := by
    rcases h with h | h | h <;> simp [h, -Fin.getElem_fin]
  exact if_pos hbad

theorem State.cqdb_good (hi : w.toNat % 256 < (s.qs[q]).depth) (howns : s.spiOwns q = true)
    (hheld : (w.toNat % 256 + (s.qs[q]).depth - (s.qs[q]).cqHead) % (s.qs[q]).depth ≤ (s.qs[q]).held) :
    s.cqdb q w = s.freeTo q (w.toNat % 256) := by
  have hgood : (decide (w.toNat % 256 ≥ (s.qs[q]).depth) || !s.spiOwns q ||
      decide ((w.toNat % 256 + (s.qs[q]).depth - (s.qs[q]).cqHead) % (s.qs[q]).depth > (s.qs[q]).held)) = false := by
    simp [howns, hi, hheld, -Fin.getElem_fin]
  exact if_neg (Bool.eq_false_iff.mp hgood)

/-- Entries freed move the completion head of their Queue alone; coalesced events may follow into the ring. -/
theorem State.freeTo_frees (s : State) (q : Fin 32) (i : Nat) : ((s.freeTo q i).qs[q]).cqHead = i ∧
    (∀ r, r ≠ q → (s.freeTo q i).qs[r] = s.qs[r]) ∧ Told s (s.freeTo q i) := by
  unfold State.freeTo
  extract_lets k free0 freed
  refine ⟨?_, fun r hr => ?_, (s.updQ_told q _).trans (State.drain_told ..)⟩
  · rw [(State.drain_onlyQueue _ q).cqHead, State.updQ_same]
  · rw [(State.drain_onlyQueue _ q).other r hr, State.updQ_other _ _ _ _ hr]

end

end Sys2Proof.Machine

namespace Sys2Proof.Stated

open Sys2Proof Sys2Proof.Machine

/-- A doorbell violation of Queue q is logged, and no Queue has changed (R395, R427). -/
theorem stsClear_violation_logged (s : State) (q : Fin 32) (a : Nat) :
    let t := s.stsClear.spiViolation 3 (some q) a
    t.qs = s.qs ∧ t.qmem = s.qmem ∧ t.ch = s.ch ∧ t.spi.sts.getLsbD 31 = true ∧
      (s.vio.length < 32 → ∃ v, t.vio = s.vio ++ [v] ∧ v.kind = 3 ∧ v.path = 1 ∧ v.queue = q.val ∧ t.vioOver = s.vioOver) ∧
      (32 ≤ s.vio.length → t.vio = s.vio ∧ t.vioOver = min 65535 (s.vioOver + 1)) := by
  obtain ⟨hqs, hqmem, hch, -, hsts⟩ := s.stsClear.spiViolation_keeps 3 (some q) a
  exact ⟨hqs, hqmem, hch, hsts, s.stsClear.violation_logged 3 1 _ q a⟩

/-- Settles O48: the first three cases are those in which a doorbell is bad; the present head frees no entry. -/
theorem badDoorbellIsAViolationAndIgnored : Obligations.BadDoorbellIsAViolationAndIgnored := by
  intro s q w hlive hrec k i ours logged
  have howns : s.stsClear.spiOwns q = true ↔ ours := State.spiOwns_iff hrec
  refine ⟨fun hbad => ⟨_, exec_qmSqdb hlive hrec, ?_⟩, fun hbad => ⟨_, exec_qmCqdb hlive hrec, ?_⟩, fun hours hi hlt => ?_⟩
  · rw [State.sqdb_bad (hbad.imp_right (Or.imp_left (mt howns.mp)))]
    exact stsClear_violation_logged ..
  · rw [State.cqdb_bad (hbad.imp_right (Or.imp_left (mt howns.mp)))]
    exact stsClear_violation_logged ..
  · have hfreed : (w.toNat % 256 + (s.stsClear.qs[q]).depth - (s.stsClear.qs[q]).cqHead) % (s.stsClear.qs[q]).depth ≤
        (s.stsClear.qs[q]).held := by
      have hnone : (i + k.depth - k.cqHead) % k.depth = 0 := by rw [hi, Nat.add_sub_cancel_left, Nat.mod_self]
      exact hnone ▸ Nat.zero_le _
    obtain ⟨hhead, -, htold⟩ := s.stsClear.freeTo_frees q i
    refine ⟨_, exec_qmCqdb hlive hrec, ?_⟩
    rw [State.cqdb_good (s := s.stsClear) hlt (howns.mpr hours) hfreed]
    exact ⟨htold.posted.vio, htold.posted.vioOver, hhead.trans hi⟩

/-- Settles O49: a submission doorbell adds its descriptors, a completion doorbell frees its entries. -/
theorem doorbellsMoveTheirIndices : Obligations.DoorbellsMoveTheirIndices := by
  refine ⟨fun s q w hlive hrec howns hi hcmd => ⟨_, exec_qmSqdb hlive hrec, ?_⟩,
    fun s q w hlive hrec howns hi hheld => ⟨_, exec_qmCqdb hlive hrec, ?_⟩⟩
  · rw [State.sqdb_good (s := s.stsClear) hi howns hcmd]
    let u := s.stsClear.updQ q fun k => { k with sqTail := w.toNat % 256 }
    let n := (w.toNat % 256 + (s.qs[q]).depth - (s.qs[q]).sqTail) % (s.qs[q]).depth
    have hu : u.qs[q] = { s.qs[q] with sqTail := w.toNat % 256 } := State.updQ_same ..
    obtain ⟨⟨l, hl, hq⟩, hother⟩ := u.addVis_adds q n
    have htold : Told s.stsClear (u.addVis q n) := (State.updQ_told ..).trans (State.addVis_told ..)
    refine ⟨?_, ?_, fun r hr => (hother r hr).trans (State.updQ_other _ _ _ _ hr), htold.posted.vio, htold.posted.ch⟩
    · exact (congrArg Queue.sqTail hq).trans (congrArg Queue.sqTail hu)
    · refine (congrArg (fun k : Queue => k.vis.length) hq).trans ?_
      rw [hu, List.length_append, hl]
  · rw [State.cqdb_good (s := s.stsClear) hi howns hheld]
    obtain ⟨hhead, hother, htold⟩ := s.stsClear.freeTo_frees q (w.toNat % 256)
    exact ⟨hhead, hother, htold.posted.vio, htold.posted.ch⟩

end Sys2Proof.Stated
end

section
/-! The registers of the SPI host port: Queue control, the window, the violation log, HPT_FAULT, and frames. -/

namespace Sys2Proof.Machine

open Sys2Proof

/-! ### Flags as a number -/

/-- Bit k of a number that is spelled by its bits. -/
theorem testBit_sum_bits {n : Nat} (p : Fin n → Bool) : (∑ i, bit (p i) * 2 ^ i.val) < 2 ^ n ∧
    ∀ k : Fin n, (∑ i, bit (p i) * 2 ^ i.val).testBit k.val = p k := by
  induction n with
  | zero => exact ⟨by simp, fun k => k.elim0⟩
  | succ n ih =>
    obtain ⟨hlt, hbit⟩ := ih fun i => p i.castSucc
    have htop (b : Bool) : bit b ≤ 1 := by cases b <;> decide
    rw [Fin.sum_univ_castSucc]
    simp only [Fin.val_castSucc, Fin.val_last]
    generalize (∑ i : Fin n, bit (p i.castSucc) * 2 ^ i.val) = low at hlt hbit
    refine ⟨?_, fun k => ?_⟩
    · have := Nat.mul_le_mul_right (2 ^ n) (htop (p (Fin.last n)))
      rw [Nat.pow_succ]
      omega
    · rw [Nat.add_comm, Nat.mul_comm, Nat.testBit_two_pow_mul_add _ hlt]
      cases k using Fin.lastCases with
      | last => cases h : p (Fin.last n) <;> simp [bit]
      | cast k => simp [hbit]

/-- The flags of HPT_FAULT as a number give each flag at its bit. -/
theorem getLsbD_flags (p : Fin 9 → Bool) (k : Fin 9) :
    (BitVec.ofNat 9 ((List.finRange 9).map fun b => bit (p b) * 2 ^ b.val).sum).getLsbD k.val = p k := by
  rw [← List.ofFn_eq_map, List.sum_ofFn, BitVec.getLsbD_ofNat, (testBit_sum_bits p).2 k]
  simp

/-! ### The Queue control register (R399, Table 11.7) -/

section
variable {s : State} {q : Fin 32} {w : Word}

theorem State.qctl_foreign (howns : s.spiOwns q = false) : s.qctl q w = s.spiViolation 8 (some q) (0x0204 + 8 * q.val) := by
  rw [State.qctl, howns]
  rfl

theorem State.qctl_owned (howns : s.spiOwns q = true) (hen : w.getLsbD 0 = true) : s.qctl q w =
    (if w.getLsbD 1 then (s.updQ q fun k => { k with ie := w.getLsbD 2 }).queueRestart q
      else s.updQ q fun k => { k with ie := w.getLsbD 2 }).queueEnable q := by
  rw [State.qctl, howns, hen]
  rfl

/-- EN and IE as the word of QM_QCTL gives them, with RESTART 0. -/
theorem ctlBits_en (en ie : Bool) : (BitVec.ofNat 32 (bit en + 4 * bit ie)).getLsbD 0 = en ∧
    (BitVec.ofNat 32 (bit en + 4 * bit ie)).getLsbD 1 = false ∧
    (BitVec.ofNat 32 (bit en + 4 * bit ie)).getLsbD 2 = ie := by
  revert en ie
  decide

/-- RESTART 1, with EN as it reads. -/
theorem ctlBits_restart {x : Nat} (hen : x % 2 = 1) :
    (BitVec.ofNat 32 (x % 8 / 4 * 4 + x % 2 + 2)).getLsbD 0 = true ∧
    (BitVec.ofNat 32 (x % 8 / 4 * 4 + x % 2 + 2)).getLsbD 1 = true := by
  have hlow : x % 8 / 4 < 2 := by omega
  rw [hen]
  generalize x % 8 / 4 = y at hlow
  revert y
  decide

/-- EN of a DISABLED Queue starts it with its rings reset (R400). -/
theorem State.qctl_enables (howns : s.spiOwns q = true) (hst : (s.qs[q]).st = .disabled) (ie : Bool) :
    (∃ g, (s.qctl q (BitVec.ofNat 32 (bit true + 4 * bit ie))).qs[q] =
      { (s.qs[q]).resetRings with areas := (s.qs[q]).areas.filter g, st := .run, ie := ie }) ∧
    (∀ r, r ≠ q → (s.qctl q (BitVec.ofNat 32 (bit true + 4 * bit ie))).qs[r] = s.qs[r]) := by
  obtain ⟨hen, hrestart, hie⟩ := ctlBits_en true ie
  rw [State.qctl_owned howns hen, hrestart, hie, if_neg Bool.false_ne_true]
  have hmarked : (s.updQ q fun k => { k with ie := ie }).qs[q] = { s.qs[q] with ie := ie } := State.updQ_same ..
  obtain ⟨⟨g, hq⟩, hother⟩ := State.queueEnable_starts (s.updQ q fun k => { k with ie := ie }) q (by rw [hmarked, hst])
  refine ⟨⟨g, ?_⟩, fun r hr => (hother r hr).trans (State.updQ_other _ _ _ _ hr)⟩
  rw [hq, hmarked]
  rfl

/-- RESTART of a STOPPED command Queue that is enabled. -/
theorem State.qctl_restarts (howns : s.spiOwns q = true) (hst : (s.qs[q]).st = .stopped) (hcmd : (s.qs[q]).isEvent = false)
    (hen : w.getLsbD 0 = true) (hrestart : w.getLsbD 1 = true) :
    ((s.qctl q w).qs[q]).st = .run ∧ ((s.qctl q w).qs[q]).sqHead = 0 ∧ ((s.qctl q w).qs[q]).vis = [] := by
  have hmarked : (s.updQ q fun k => { k with ie := w.getLsbD 2 }).qs[q] = { s.qs[q] with ie := w.getLsbD 2 } :=
    State.updQ_same ..
  obtain ⟨hrun, hhead, hvis⟩ := State.queueRestart_starts (s.updQ q fun k => { k with ie := w.getLsbD 2 }) q
    (by rw [hmarked, hst]) (by rw [hmarked, hcmd])
  rw [State.qctl_owned howns hen, hrestart, if_pos rfl, State.queueEnable_running _ q hrun]
  exact ⟨hrun, hhead, hvis⟩

/-! ### The other registers -/

theorem State.setWinbase_base (h : w.toNat % 256 ≤ 248) : s.setWinbase w = { s with winBase := w.toNat % 256 } :=
  if_neg (Nat.not_lt.mpr h)

theorem State.setWinbase_beyond (h : 248 < w.toNat % 256) : s.setWinbase w = s.spiViolation 2 none 0x0300 := if_pos h

/-- R428: the host of owner 0 clears the violation log. -/
theorem State.vioCtl_clears (howner : s.srcOwner 0x400 = some 0) : s.vioCtl 1 = { s with vio := [], vioOver := 0 } := by
  rw [State.vioCtl, if_neg (by decide), if_pos (beq_iff_eq.mpr howner)]

/-- R638: a bit written with 1 stays where its hold condition holds or its source set it in this Frame. -/
theorem State.faultClear_bit (hlive : s.live = true) (w : Word) (b : Fin 9) : (s.faultClear w).hpt.getLsbD b.val =
    (s.hpt.getLsbD b.val && (!w.getLsbD b.val || s.faultHeld.getLsbD b.val || s.hptAt[b] == s.fr.count)) := by
  unfold State.faultClear
  extract_lets now
  have hnow : now.getLsbD b.val = (s.hptAt[b] == s.fr.count) := by
    refine (getLsbD_flags (fun b => s.live && s.hptAt[b] == s.fr.count) b).trans ?_
    rw [hlive, Bool.true_and]
  have hb : b.val < 9 := b.isLt
  simp only [BitVec.getLsbD_and, BitVec.getLsbD_or, BitVec.getLsbD_not, BitVec.getLsbD_setWidth, hnow, hb, decide_true,
    Bool.true_and]

/-- A word of the window that the SPI host may write (R385). -/
theorem State.regWrite_window {a : Nat} (hlive : s.live = true) (hrec : s.upd.recovery = false) (halign : a % 4 = 0)
    (hwin : 0x8000 ≤ a) (hok : s.winOk (s.winOff a) true = true) :
    s.regWrite a w = { s with qmem := memWriteL s.qmem (s.winOff a) (le 4 w.toNat) } := by
  have hnot (n : Nat) (hn : n ≤ 0x8000) : ¬ a < n := by omega
  have hne (n : Nat) (hn : n < 0x8000) : (a == n) = false := beq_eq_false_iff_ne.mpr (by omega)
  simp [State.regWrite, halign, hlive, hrec, hok, hnot, hne]

end

end Sys2Proof.Machine

namespace Sys2Proof.Stated

open Sys2Proof Sys2Proof.Machine

section
variable {s : State} {q : Fin 32}

theorem exec_qmQctlEn (hlive : s.live = true) (en ie : Bool) :
    exec (.qmQctlEn q en ie) s = .next (s.stsClear.qctl q (BitVec.ofNat 32 (bit en + 4 * bit ie))) :=
  congrArg Host.Outcome.next (State.spiWrite_served hlive ..)

theorem exec_qmQctlRestart (hlive : s.live = true) : exec (.qmQctlRestart q) s =
    .next (s.stsClear.qctl q (BitVec.ofNat 32 ((s.qs[q]).ctlWord % 8 / 4 * 4 + (s.qs[q]).ctlWord % 2 + 2))) :=
  congrArg Host.Outcome.next (State.spiWrite_served hlive ..)

theorem exec_qmWinbase (hlive : s.live = true) (w : Word) : exec (.qmWinbase w) s = .next (s.stsClear.setWinbase w) :=
  congrArg Host.Outcome.next (State.spiWrite_served hlive ..)

theorem exec_vioCtlClear (hlive : s.live = true) : exec .vioCtlClear s = .next (s.stsClear.vioCtl 1) :=
  congrArg Host.Outcome.next (if_pos hlive)

theorem exec_hptFaultClear (hlive : s.live = true) (w : Word) :
    exec (.hptFaultClear w) s = .next (s.stsClear.faultClear w) :=
  congrArg Host.Outcome.next (if_pos hlive)

theorem stsClear_winOk (s : State) (o : Nat) (write : Bool) : s.stsClear.winOk o write = s.winOk o write := rfl

theorem stsClear_winOff (s : State) (a : Nat) : s.stsClear.winOff a = s.winOff a := rfl

theorem exec_registerWrite (hrun : s.pw.logic = .running) (a : Half) (w : Word) :
    exec (.registerWrite a w) s = .next (s.stsClear.regWrite a.toNat w) :=
  congrArg Host.Outcome.next (if_pos (beq_iff_eq.mpr hrun))

/-- R475: before step 4, or with the logic die not running, a frame carries nothing. -/
theorem exec_spiFrame_ignored (h : s.pw.logic ≠ .running ∨ s.pw.step < 4) (ws : List Word) (m : Bool) :
    exec (.spiFrame ws m) s = .next { s with spi := { s.spi with miso := [] } } := by
  refine congrArg Host.Outcome.next (if_neg fun hserved => ?_)
  simp only [Bool.and_eq_true, beq_iff_eq, decide_eq_true_eq] at hserved
  exact h.elim (fun hl => hl hserved.1) (Nat.not_lt.mpr hserved.2)

theorem exec_spiFrame_served (hrun : s.pw.logic = .running) (hstep : 4 ≤ s.pw.step) (ws : List Word) (m : Bool) :
    exec (.spiFrame ws m) s = .next (s.spiFrame ws m) :=
  congrArg Host.Outcome.next (if_pos (by simp [hrun, hstep]))

/-- R469, R471: MISO carries a word for each of MOSI, the STS of the frame before first. -/
theorem spiFrame_miso (s : State) (ws : List Word) (m : Bool) : (s.spiFrame ws m).spi.miso.length = ws.length ∧
    (s.spiFrame ws m).spi.miso.head? = if ws = [] then none else some (s.stsWord s.spi.sts []) := by
  unfold State.spiFrame
  extract_lets h prev s0 protect s1 badAddr nRead
  cases ws with
  | nil => exact ⟨rfl, rfl⟩
  | cons w r => exact ⟨by simp, by simp [prev]⟩

end

/-- Settles O50: each register by what its write does over the port, and each frame by the words of MISO. -/
theorem hostPortRegistersAct : Obligations.HostPortRegistersAct := by
  refine ⟨fun s q ie hlive howns hst => ⟨_, exec_qmQctlEn hlive .., ?enable⟩,
    fun s q en ie hlive hforeign => ⟨_, exec_qmQctlEn hlive .., ?foreign⟩,
    fun s q hlive howns hst hcmd => ⟨_, exec_qmQctlRestart hlive, fun hen => ?restart⟩,
    fun s w hlive hbase => ?winbase, fun s w hlive hbeyond => ⟨_, exec_qmWinbase hlive w, ?beyond⟩,
    fun s hlive howner => ?vioCtl, fun s w b hlive => ⟨_, exec_hptFaultClear hlive w, ?fault⟩,
    fun s a w hrun hlive hrec halign hwin hok => ?window, fun s ws m h => exec_spiFrame_ignored h ws m,
    fun s ws m hrun hstep => ⟨_, exec_spiFrame_served hrun hstep ws m, spiFrame_miso s ws m⟩⟩
  case enable =>
    obtain ⟨⟨g, hq⟩, hother⟩ := State.qctl_enables (s := s.stsClear) howns hst ie
    rw [hq]
    exact ⟨rfl, rfl, rfl, rfl, rfl, rfl, rfl, rfl, hother⟩
  case foreign =>
    rw [State.qctl_foreign (s := s.stsClear) hforeign]
    obtain ⟨hqs, -⟩ := s.stsClear.spiViolation_keeps 8 (some q) (0x0204 + 8 * q.val)
    refine ⟨hqs, fun hroom => ?_⟩
    obtain ⟨v, hv, hkind, -⟩ := (s.stsClear.violation_logged 8 1 (s.stsClear.srcOwner 0x400) q (0x0204 + 8 * q.val)).1 hroom
    exact ⟨v, hv, hkind⟩
  case restart =>
    obtain ⟨h0, h1⟩ := ctlBits_restart hen
    exact State.qctl_restarts (s := s.stsClear) howns hst hcmd h0 h1
  case winbase => exact (exec_qmWinbase hlive w).trans (congrArg Host.Outcome.next (State.setWinbase_base hbase))
  case beyond =>
    rw [State.setWinbase_beyond hbeyond]
    obtain ⟨-, -, -, hbase, -⟩ := s.stsClear.spiViolation_keeps 2 none 0x0300
    exact hbase
  case vioCtl => exact (exec_vioCtlClear hlive).trans (congrArg Host.Outcome.next (State.vioCtl_clears howner))
  case fault => exact ⟨State.faultClear_bit (s := s.stsClear) hlive w b, rfl, rfl⟩
  case window =>
    rw [← stsClear_winOk, ← stsClear_winOff] at hok
    rw [exec_registerWrite hrun, State.regWrite_window (s := s.stsClear) hlive hrec halign hwin hok, stsClear_winOff]
    rfl

end Sys2Proof.Stated
end

section
/-! A COMMAND of the network path enters the ring of its Queue (R461-R463). -/

namespace Sys2Proof.Machine

open Sys2Proof

/-! ### Bytes that are parsed and spelled again -/

theorem le_mod (k n : Nat) : le k (n % 256 ^ k) = le k n := by
  induction k generalizing n with
  | zero => rfl
  | succ k ih =>
    have hlow : BitVec.ofNat 8 (n % 256 ^ (k + 1)) = BitVec.ofNat 8 n := by
      refine BitVec.eq_of_toNat_eq ?_
      rw [BitVec.toNat_ofNat, BitVec.toNat_ofNat]
      exact Nat.mod_mod_of_dvd _ (Dvd.intro_left _ (Nat.pow_succ ..).symm)
    have hhigh : n % 256 ^ (k + 1) / 256 = n / 256 % 256 ^ k := by
      rw [Nat.pow_succ', Nat.mod_mul_right_div_self]
    rw [le, le, hlow, hhigh, ih]

theorem le_ofLe (l : List Byte) : le l.length (ofLe l) = l := by
  induction l with
  | nil => rfl
  | cons b r ih =>
    have hb : b.toNat < 256 := b.isLt
    have hhigh : (b.toNat + 256 * ofLe r) / 256 = ofLe r := by omega
    have hlow : BitVec.ofNat 8 (b.toNat + 256 * ofLe r) = b := by
      refine BitVec.eq_of_toNat_eq ?_
      rw [BitVec.toNat_ofNat]
      omega
    rw [List.length_cons, ofLe, le, hhigh, hlow, ih]

/-- A field of a list of bytes, spelled again. -/
theorem le_getLe {l : List Byte} {off k : Nat} (h : off + k ≤ l.length) : le k (getLe l off k) = (l.drop off).take k := by
  have hlen : ((l.drop off).take k).length = k := by simp; omega
  have hspelled := le_ofLe ((l.drop off).take k)
  rwa [hlen] at hspelled

theorem le_half (x : Nat) : le 2 (BitVec.ofNat 16 x).toNat = le 2 x := le_mod 2 x

theorem le_word (x : Nat) : le 4 (BitVec.ofNat 32 x).toNat = le 4 x := le_mod 4 x

/-- A parsed descriptor whose area and flags another one takes keeps its OPCODE, TAG, TARGET and PARAM (Table 11.3). -/
theorem descBytes_parseDesc {b : List Byte} {d : CmdArgs} (hlen : b.length = 64) (htag : d.tag = (parseDesc b).2.tag)
    (htarget : d.target = (parseDesc b).2.target) (hrsv : d.rsv = (parseDesc b).2.rsv) (hparam : d.param = (parseDesc b).2.param) :
    (descBytes (parseDesc b).1 d).take 2 = b.take 2 ∧
    ((descBytes (parseDesc b).1 d).drop 4).take 8 = (b.drop 4).take 8 ∧
    (descBytes (parseDesc b).1 d).drop 16 = b.drop 16 := by
  have hop : le 2 (parseDesc b).1.toNat = b.take 2 := (le_half _).trans (le_getLe (by omega))
  have hmid : le 4 d.tag.toNat ++ (le 2 d.target.toNat ++ le 2 d.rsv.toNat) = (b.drop 4).take 8 := by
    rw [htag, htarget, hrsv]
    simp only [parseDesc, le_word, le_half]
    rw [le_getLe (by omega), le_getLe (by omega), le_getLe (by omega), show (8 : Nat) = 4 + (2 + 2) from rfl, List.take_add,
      List.take_add, List.drop_drop, List.drop_drop]
  have htail : fitTo 48 d.param = b.drop 16 := by
    have hfit : d.param = b.drop 16 := hparam.trans (fitTo_of_length (by simp [hlen]))
    rw [hfit, fitTo_of_length (by simp [hlen])]
  refine ⟨?_, ?_, ?_⟩
  · rw [descBytes]
    simp only [List.append_assoc]
    rw [List.take_left' (length_le ..), hop]
  · have hsplit : descBytes (parseDesc b).1 d = (le 2 (parseDesc b).1.toNat ++ le 2 d.flags.toNat) ++
        ((le 4 d.tag.toNat ++ (le 2 d.target.toNat ++ le 2 d.rsv.toNat)) ++
          (le 2 d.doff.toNat ++ (le 2 d.dlen.toNat ++ fitTo 48 d.param))) := by
      simp only [descBytes, List.append_assoc]
    rw [hsplit, List.drop_left' (by simp), List.take_left' (by simp), hmid]
  · rw [descBytes, List.drop_left' (by simp), htail]

/-! ### The ring that a COMMAND enters -/

/-- The descriptor as the ring holds it: the area that the window gives in the place of the one that the message names. -/
def ringDesc (m : NetMsg) (off : Nat) : CmdArgs :=
  let d := (parseDesc (m.payload.take 64)).2
  { d with
    doff := BitVec.ofNat 16 (if m.areaBytes == 0 then 0 else off), dlen := BitVec.ofNat 16 m.areaBytes
    flags := (d.flags &&& 0xFFFE#16) ||| (if m.areaBytes == 0 then 0#16 else 1#16) }

/-- Queue memory once the descriptor, and the input data behind it, have been stored. -/
def State.ringMem (s : State) (q : Fin 32) (m : NetMsg) (off : Nat) : List Host.Cell :=
  let stored := memWriteL s.qmem (sqBase q + 64 * (s.qs[q]).sqTail) (descBytes (parseDesc (m.payload.take 64)).1 (ringDesc m off))
  if m.areaBytes == 0 then stored else memWriteL stored (winAddr q + 16 * off) (m.payload.drop 64)

/-- A frame that is counted as dropped, if it is one, leaves the rings alone. -/
theorem netDrop_keeps_rings (b : Bool) (l : Link) (c : Fin 8) (s : State) :
    (when b (fun s => s.netDrop l c) s).qs = s.qs ∧ (when b (fun s => s.netDrop l c) s).qmem = s.qmem ∧
    (when b (fun s => s.netDrop l c) s).ch = s.ch ∧ (when b (fun s => s.netDrop l c) s).outs = s.outs := by
  cases b with
  | false => exact ⟨rfl, rfl, rfl, rfl⟩
  | true => simp [when, State.netDrop]

section
variable (s : State) (q : Fin 32) (m : NetMsg) (off : Nat)

/-- R462: what a COMMAND that enters its ring changes. -/
theorem State.cmdEnter_enters : ∃ r a x, (s.cmdEnter q m off).qs = (s.updQ q fun _ => { s.qs[q] with
      sqTail := ((s.qs[q]).sqTail + 1) % (s.qs[q]).depth
      vis := (s.qs[q]).vis ++ [s.newVis q m.src (BitVec.ofNat 32 m.mseq) x (some (min 1024 m.rlen))]
      nIn := (s.qs[q]).nIn + 1, recent := r, areas := a }).qs ∧
    (s.cmdEnter q m off).qmem = s.ringMem q m off ∧ (s.cmdEnter q m off).ch = s.ch ∧ (s.cmdEnter q m off).outs = s.outs := by
  obtain ⟨hqs, hqmem, hch, houts⟩ := netDrop_keeps_rings _ m.link 6 _
  exact ⟨_, _, _, hqs, hqmem, hch, houts⟩

/-- The slot at SQTAIL holds the stored descriptor: the data window lies above every ring (Table 11.2). -/
theorem State.ringMem_slot (hmem : memWf s.qmem = true) (htail : (s.qs[q]).sqTail < 256) :
    memReadN (s.ringMem q m off) (sqBase q + 64 * (s.qs[q]).sqTail) 64 =
      descBytes (parseDesc (m.payload.take 64)).1 (ringDesc m off) := by
  unfold State.ringMem
  extract_lets stored
  have hslot : memReadN stored (sqBase q + 64 * (s.qs[q]).sqTail) 64 =
      descBytes (parseDesc (m.payload.take 64)).1 (ringDesc m off) := by
    have hread := memReadN_writeL_same hmem (sqBase q + 64 * (s.qs[q]).sqTail)
      (descBytes (parseDesc (m.payload.take 64)).1 (ringDesc m off))
    rwa [descBytes_length] at hread
  have hbelow : sqBase q + 64 * (s.qs[q]).sqTail + 64 ≤ winAddr q + 16 * off := by
    unfold sqBase winAddr
    omega
  split
  · exact hslot
  · rw [memReadN_writeL_outside (memWriteL_wf _ _ hmem) (.inl hbelow), hslot]

end

/-! ### The checks that a COMMAND passes (Table 13.6) -/

section
variable {s : State} {m : NetMsg} {q : Fin 32} {o : Fin 16} {off : Nat}

/-- A COMMAND that R461 to R463 admit to its Queue. -/
theorem State.netCommand_enters (hqueue : m.queue = q.val) (howner : s.srcOwner m.src = some o)
    (hcmd : (s.qs[q]).isEvent = false) (hpath : (s.qs[q]).path = .network) (hbound : (s.qs[q]).owner = some o)
    (hst : (s.qs[q]).st = .run) (hdis : (s.qs[q]).disabling = false)
    (hnew : ((s.qs[q]).recent.find? fun r => r.src == m.src && r.mseq.toNat == m.mseq) = none)
    (hroom : (s.qs[q]).untaken + 1 < (s.qs[q]).depth) (harea : fitArea (s.qs[q]).areas m.areaUnits = some off) :
    s.netCommand m = s.cmdEnter q m off := by
  have hlt : m.queue < 32 := hqueue ▸ q.isLt
  have hq : (⟨m.queue, hlt⟩ : Fin 32) = q := Fin.ext hqueue
  have hfull : ¬ (s.qs[q]).untaken + 1 ≥ (s.qs[q]).depth := Nat.not_le.mpr hroom
  simp only [State.netCommand, howner, dif_pos hlt, hq, hcmd, hpath, hbound, hst, hdis, hnew, hfull, harea]
  simp

/-- The state on which a received COMMAND is judged: its packet number is used up, and its node is known. -/
def State.heard (s : State) (m : NetMsg) : State := (s.rxPn m).netLearn m

/-- A received COMMAND that no check of its frame or header turns away. -/
theorem State.netRecv_command (hlive : s.live = true) (hup : s.net.up m.link = true) (hlane : m.laneFull = false)
    (hsec : s.macsecOk m = true) (heuvos : isEuvos m = true) (hip : m.ipBad = false) (hhead : m.badHeader = false)
    (htyp : m.typ = 1) (hlen : m.badLen = false) (haddr : s.badAddress m = false) :
    s.netRecv m = (s.heard m).netCommand m := by
  have haddr' : (s.rxPn m).badAddress m = false := haddr
  have htypeOk : m.typeOk = true := by simp [NetMsg.typeOk, htyp]
  simp [State.netRecv, State.netTake, State.heard, hlive, hup, hlane, hsec, heuvos, hip, hhead, htyp, hlen, haddr', htypeOk]

theorem NetMsg.payload_of_command (hhead : m.badHeader = false) (htyp : m.typ = 1) (hlen : m.badLen = false) :
    64 ≤ m.payload.length := by
  simp only [NetMsg.badHeader, Bool.or_eq_false_iff, bne_eq_false_iff_eq] at hhead
  simp only [NetMsg.badLen, htyp, beq_self_eq_true, Bool.true_and, Bool.or_eq_false_iff, decide_eq_false_iff_not] at hlen
  omega

/-- One descriptor more, where the ring has a free slot. -/
theorem untaken_succ {n h t : Nat} (hh : h < n) (ht : t < n) (hroom : (t + n - h) % n + 1 < n) :
    ((t + 1) % n + n - h) % n = (t + n - h) % n + 1 := by
  have wrap {x : Nat} (hx : x < n) : (x + n) % n = x := by rw [Nat.add_mod_right, Nat.mod_eq_of_lt hx]
  rcases Nat.lt_or_ge t h with hlt | hge
  · have hold : (t + n - h) % n = t + n - h := Nat.mod_eq_of_lt (by omega)
    rw [hold] at hroom ⊢
    rw [Nat.mod_eq_of_lt (by omega : t + 1 < n), Nat.mod_eq_of_lt (by omega)]
    omega
  · have hold : (t + n - h) % n = t - h := by rw [show t + n - h = t - h + n by omega, wrap (by omega)]
    rw [hold] at hroom ⊢
    rcases Nat.lt_or_ge (t + 1) n with hin | hend
    · rw [Nat.mod_eq_of_lt hin, show t + 1 + n - h = t - h + 1 + n by omega, wrap hroom]
    · rw [show t + 1 = n by omega, Nat.mod_self, Nat.mod_eq_of_lt (by omega)]
      omega

end

end Sys2Proof.Machine

namespace Sys2Proof.Stated

open Sys2Proof Sys2Proof.Machine

/-- Settles O52: the message passes every check, and its descriptor is stored at SQTAIL (RLEN beyond 1,024 is log 84). -/
theorem commandMessageEntersItsRing : Obligations.CommandMessageEntersItsRing := by
  intro s m q o off hlive hup hlane hsec heuvos hip hhead htyp hlen haddr hqueue howner hcmd hpath hbound hst hdis hnew hroom harea
  let e := s.heard m
  obtain ⟨r, a, x, hqs, hqmem, hch, houts⟩ := e.cmdEnter_enters q m off
  have hexec : exec (.commandMessage m) s = .next (e.cmdEnter q m off) := congrArg Host.Outcome.next
    ((State.netRecv_command hlive hup hlane hsec heuvos hip hhead htyp hlen haddr).trans
      (State.netCommand_enters (s := e) hqueue howner hcmd hpath hbound hst hdis hnew hroom harea))
  refine ⟨_, hexec, ?_⟩
  rw [hqs, State.updQ_same]
  refine ⟨rfl, ⟨_, rfl, rfl, rfl, rfl, rfl⟩, fun p hp => State.updQ_other e q p _ hp, hch, houts,
    fun hh ht => untaken_succ hh ht hroom, fun hmem htail => ?_⟩
  have hpayload := NetMsg.payload_of_command hhead htyp hlen
  have hslot : memReadN (e.cmdEnter q m off).qmem (sqBase q + 64 * (s.qs[q]).sqTail) 64 =
      descBytes (parseDesc (m.payload.take 64)).1 (ringDesc m off) := hqmem ▸ e.ringMem_slot q m off hmem htail
  obtain ⟨hop, hmid, hparam⟩ := descBytes_parseDesc (b := m.payload.take 64) (d := ringDesc m off)
    (by simp only [List.length_take]; omega) rfl rfl rfl rfl
  intro slot
  rw [show slot = _ from hslot, hop, hmid, hparam]
  refine ⟨?_, ?_, rfl⟩
  · rw [List.take_take]
    rfl
  · rw [List.drop_take, List.take_take]
    rfl

end Sys2Proof.Stated
end

section
/-! Completions: the entry at CQTAIL (Table 11.4) and the order of submission (R390-R392). -/

namespace Sys2Proof.Machine

open Sys2Proof

/-! ### The entry -/

section
variable (t : Taken) (k : Queue) (status frame : Nat) (result : List Byte) (evt hasData trunc : Bool) (rdoff rdlen lat : Nat)

theorem cplBytes_length : (cplBytes t k status frame result evt hasData trunc rdoff rdlen lat).length = 32 := by
  simp [cplBytes]

/-- Table 11.4: each field stands behind the fields before it. -/
theorem cplBytes_fields :
    let b := cplBytes t k status frame result false false false rdoff rdlen lat
    b.take 4 = le 4 t.d.tag.toNat ∧ (b.drop 4).take 2 = le 2 t.op.toNat ∧ (b.drop 6).take 1 = le 1 status ∧
    (b.drop 7).take 1 = le 1 (if k.phase then 1 else 0) ∧ (b.drop 8).take 2 = le 2 k.sqHead ∧
    (b.drop 10).take 2 = le 2 k.cseq ∧ (b.drop 12).take 4 = le 4 frame ∧ (b.drop 16).take 8 = fitTo 8 result ∧
    b.drop 30 = [0, 0] := by
  simp [cplBytes, List.drop_append, List.drop_of_length_le]
  rfl

end

/-! ### An entry of an SPI Queue that is written -/

theorem Queue.settle_cseq (k : Queue) : k.settle.cseq = k.cseq := by
  unfold Queue.settle
  split <;> rfl

theorem Queue.settle_cqTail (k : Queue) : k.settle.cqTail = k.cqTail := by
  unfold Queue.settle
  split <;> rfl

theorem Queue.settle_phase (k : Queue) : k.settle.phase = k.phase := by
  unfold Queue.settle
  split <;> rfl

/-- What a written entry counts in its Queue: the next CSEQ, and neither CQTAIL, the phase nor the class. -/
structure CountsEntry (f : Queue → Queue) : Prop where
  cseq (k : Queue) : (f k).cseq = (k.cseq + 1) % 65536
  cqTail (k : Queue) : (f k).cqTail = k.cqTail
  phase (k : Queue) : (f k).phase = k.phase
  cls (k : Queue) : (f k).cls = k.cls

/-- What a Queue keeps of an entry that is written. -/
def Queue.countEntry (fenced : Bool) (mark : Nat × Nat) (keep : Recent → Recent) (k : Queue) : Queue :=
  ({ k with
    cseq := (k.cseq + 1) % 65536, nTaken := k.nTaken - 1, recent := k.recent.map keep
    doneAt := if fenced then k.doneAt ++ [mark] else k.doneAt } : Queue).settle

theorem countEntry_countsEntry (fenced : Bool) (mark : Nat × Nat) (keep : Recent → Recent) :
    CountsEntry (Queue.countEntry fenced mark keep) :=
  ⟨fun _ => Queue.settle_cseq _, fun _ => Queue.settle_cqTail _, fun _ => Queue.settle_phase _, fun _ => Stated.settle_cls _⟩

/-- An entry stands in its ring, and its Queue has counted it. -/
def State.withEntry (s : State) (q : Fin 32) (entry : List Byte) (f : Queue → Queue) : State :=
  { (s.ringWrite q entry).updQ q f with free := s.free + 1 }

section
variable {s : State} {q : Fin 32} {f : Queue → Queue} (entry : List Byte)

theorem State.ringWrite_qs : (s.ringWrite q entry).qs = (s.updQ q fun k => { k with
    cqTail := if (s.qs[q]).cqTail + 1 ≥ (s.qs[q]).depth then 0 else k.cqTail + 1
    phase := if (s.qs[q]).cqTail + 1 ≥ (s.qs[q]).depth then !k.phase else k.phase }).qs := rfl

theorem State.withEntry_other {r : Fin 32} (h : r ≠ q) : (s.withEntry q entry f).qs[r] = s.qs[r] := by
  rw [State.withEntry, State.updQ_other _ _ _ _ h, State.ringWrite_qs, State.updQ_other _ _ _ _ h]

theorem State.withEntry_qmem : (s.withEntry q entry f).qmem = memWriteL s.qmem (cqBase q + 32 * (s.qs[q]).cqTail) entry := rfl

theorem State.withEntry_same : (s.withEntry q entry f).qs[q] = f ((s.ringWrite q entry).qs[q]) := State.updQ_same ..

theorem State.ringWrite_same : (s.ringWrite q entry).qs[q] = { s.qs[q] with
    cqTail := if (s.qs[q]).cqTail + 1 ≥ (s.qs[q]).depth then 0 else (s.qs[q]).cqTail + 1
    phase := if (s.qs[q]).cqTail + 1 ≥ (s.qs[q]).depth then !(s.qs[q]).phase else (s.qs[q]).phase } := by
  rw [State.ringWrite_qs, State.updQ_same]

theorem State.withEntry_cls (hf : CountsEntry f) (r : Fin 32) : ((s.withEntry q entry f).qs[r]).cls = (s.qs[r]).cls := by
  by_cases h : r = q
  · subst h
    rw [State.withEntry_same, hf.cls, State.ringWrite_same]
  · rw [State.withEntry_other entry h]

/-- The promise asks of the Queues their class alone. -/
theorem State.withEntry_promised (hf : CountsEntry f) (t : Taken) : (s.withEntry q entry f).promised t = s.promised t := by
  unfold State.promised State.bounded State.wideFence
  simp only [State.withEntry_cls entry hf]
  rfl

end

theorem State.latNote_of_notPromised {s : State} {t : Taken} (h : s.promised t = false) (lat : Nat) : s.latNote t lat = s := by
  unfold State.promised at h
  unfold State.latNote State.latMiss
  split
  next hbound =>
    rw [hbound, Bool.true_and] at h
    simp [h]
  next => rfl

/-- FRAME of an entry outside RECOVERY (Table 11.4). -/
def frameField (frame : Option Nat) : Nat :=
  match frame with
  | some f => f % 2 ^ 32
  | none => 0xFFFFFFFF

/-- The entry that a command without data posts while the Supervisor is up. -/
def State.plainEntry (s : State) (t : Taken) (status : Nat) (frame : Option Nat) (res : List Byte) : List Byte :=
  cplBytes t (s.qs[t.q]) status (frameField frame) res false false false 0 0
    (s.latOf t.vis.frame)

theorem State.writeCpl_of_spi {s : State} {t : Taken} (hlive : t.dead = false) (hst : (s.qs[t.q]).st = .run)
    (hpath : (s.qs[t.q]).path = .spi) (hrec : s.upd.recovery = false) (hprom : s.promised t = false) (status : Nat)
    (frame : Option Nat) (res : List Byte) :
    ∃ f, CountsEntry f ∧ s.writeCpl t status frame res = s.withEntry t.q (s.plainEntry t status frame res) f := by
  have hup : (t.dead || (s.qs[t.q]).st == .stopped) = false := by
    rw [hlive, hst]
    rfl
  have hnote (f : Queue → Queue) (hf : CountsEntry f) (entry : List Byte) :
      (s.withEntry t.q entry f).latNote t (s.latOf t.vis.frame) = s.withEntry t.q entry f :=
    State.latNote_of_notPromised ((State.withEntry_promised entry hf t).trans hprom) _
  unfold State.writeCpl
  simp only [hup, hpath, hrec, List.isEmpty_nil, Bool.not_true, Bool.and_false, Bool.false_and, Bool.false_eq_true, if_false]
  have hcount := countEntry_countsEntry (s.fencedFor t.q t.vis.id) (t.vis.id, s.fr.count)
  exact ⟨_, hcount _, hnote _ (hcount _) _⟩

/-! ### The order of submission -/

theorem State.flushOne_of_noneDone {s : State} {q : Fin 32} (h : ∀ o ∈ s.outs, o.cmd.q = q → o.wait.isDone = false) :
    s.flushOne q = s := by
  have hnone : (s.outs.find? fun o => o.cmd.q == q && o.wait.isDone && !s.behind o.cmd) = none := by
    rw [List.find?_eq_none]
    intro o ho
    by_cases hq : o.cmd.q = q
    · simp [h o ho hq]
    · simp [hq]
  rw [State.flushOne, hnone]

theorem State.complete_of_noneDone {s : State} {t : Taken} (hfirst : s.behind t = false)
    (h : ∀ o ∈ s.outs, o.cmd.q = t.q → o.wait.isDone = false) (status : Nat) (frame : Option Nat) (res : List Byte) :
    s.complete t status frame res = s.writeCpl t status frame res := by
  have hquiet : (s.writeCpl t status frame res).flushOne t.q = s.writeCpl t status frame res :=
    State.flushOne_of_noneDone (by rwa [State.writeCpl_outs])
  rw [State.complete, State.close, hfirst, if_neg Bool.false_ne_true]
  exact overL_eq_self fun _ _ => hquiet

theorem State.complete_of_behind {s : State} {t : Taken} (h : s.behind t = true) (status : Nat) (frame : Option Nat)
    (res data : List Byte) (evt : Bool) :
    s.complete t status frame res data evt = s.await t (.done status frame res data evt false) := by
  rw [State.complete, State.close, if_pos h]

theorem State.behind_of_mem {s : State} {t : Taken} {o : Out} (ho : o ∈ s.outs) (hq : o.cmd.q = t.q)
    (hid : o.cmd.vis.id < t.vis.id) (hdead : o.cmd.dead = false) (hholds : o.wait.holds = true) (hlive : t.dead = false) :
    s.behind t = true := by
  simp only [State.behind, hlive, Bool.not_false, Bool.true_and, List.any_eq_true]
  exact ⟨o, ho, by simp [hq, hid, hdead, hholds]⟩

/-- No command is behind one that became visible no earlier. -/
theorem State.not_behind_single {s : State} {t : Taken} {o : Out} (houts : s.outs = [o]) (hid : t.vis.id ≤ o.cmd.vis.id) :
    s.behind t = false := by
  simp [State.behind, houts, Nat.not_lt.mpr hid]

/-- The one finished command of a Queue leaves the list, and its entry is written. -/
theorem State.flushOne_single {s : State} {u : Taken} {k su : Nat} {fu : Option Nat} {ru : List Byte}
    (houts : s.outs = [⟨u, k, .done su fu ru [] false false⟩]) :
    s.flushOne u.q = ({ s with outs := [] } : State).writeCpl u su fu ru := by
  have hfirst : s.behind u = false := State.not_behind_single houts (Nat.le_refl _)
  have hdrop : s.dropOuts (· == ⟨u, k, .done su fu ru [] false false⟩) = { s with outs := [] } := by
    simp [State.dropOuts, houts]
  have hfind : (s.outs.find? fun o => o.cmd.q == u.q && o.wait.isDone && !s.behind o.cmd) =
      some ⟨u, k, .done su fu ru [] false false⟩ := by
    rw [houts]
    simp [Wait.isDone, hfirst]
  simp only [State.flushOne, hfind, hdrop]
  rfl

end Sys2Proof.Machine

namespace Sys2Proof.Stated

open Sys2Proof Sys2Proof.Machine

theorem complete_sameMachine (s : State) (t : Taken) (status : Nat) (frame : Option Nat) (res data : List Byte) (evt : Bool) :
    SameMachine s (s.complete t status frame res data evt) := by
  have hopen : SameOpen s (s.complete t status frame res data evt) := close_sameOpen ..
  simp [SameMachine, hopen]

/-- The tail of a ring wraps at its depth. -/
theorem nextTail {n x : Nat} (h : x < n) : (if x + 1 ≥ n then 0 else x + 1) = (x + 1) % n := by
  split
  · rw [show x + 1 = n by omega, Nat.mod_self]
  · rw [Nat.mod_eq_of_lt (by omega)]

/-- R390, R391: an entry stands at CQTAIL of its Queue, which has moved on; no other byte and no other Queue has changed. -/
structure EntryAtTail (s u : State) (q : Fin 32) (entry : List Byte) : Prop where
  entry : memReadN u.qmem (cqBase q + 32 * (s.qs[q]).cqTail) 32 = entry
  cseq : (u.qs[q]).cseq = ((s.qs[q]).cseq + 1) % 65536
  cqTail : (u.qs[q]).cqTail = ((s.qs[q]).cqTail + 1) % (s.qs[q]).depth
  phase : (u.qs[q]).phase = if (s.qs[q]).cqTail + 1 ≥ (s.qs[q]).depth then !(s.qs[q]).phase else (s.qs[q]).phase
  bytes (a : Nat) : a < cqBase q + 32 * (s.qs[q]).cqTail ∨ cqBase q + 32 * (s.qs[q]).cqTail + 32 ≤ a →
    memRead u.qmem a = memRead s.qmem a
  others (r : Fin 32) : r ≠ q → u.qs[r] = s.qs[r]

theorem completion_at_cqTail (s : State) (t : Taken) (status : Nat) (frame : Option Nat) (res : List Byte)
    (hmem : memWf s.qmem = true) (hlive : t.dead = false) (hst : (s.qs[t.q]).st = .run) (hpath : (s.qs[t.q]).path = .spi)
    (hrec : s.upd.recovery = false) (hprom : s.promised t = false) (htail : (s.qs[t.q]).cqTail < (s.qs[t.q]).depth)
    (hfirst : s.behind t = false) (hnone : ∀ o ∈ s.outs, o.cmd.q = t.q → o.wait.isDone = false) :
    EntryAtTail s (s.complete t status frame res) t.q (s.plainEntry t status frame res) := by
  obtain ⟨f, hf, hwritten⟩ := State.writeCpl_of_spi hlive hst hpath hrec hprom status frame res
  have hu : s.complete t status frame res = s.withEntry t.q (s.plainEntry t status frame res) f :=
    (State.complete_of_noneDone hfirst hnone status frame res).trans hwritten
  have hlen : (s.plainEntry t status frame res).length = 32 := cplBytes_length ..
  have hread := memReadN_writeL_same hmem (cqBase t.q + 32 * (s.qs[t.q]).cqTail) (s.plainEntry t status frame res)
  rw [hlen] at hread
  rw [hu]
  constructor
  case entry => rwa [State.withEntry_qmem]
  case cseq => rw [State.withEntry_same, hf.cseq, State.ringWrite_same]
  case cqTail => rw [State.withEntry_same, hf.cqTail, State.ringWrite_same, ← nextTail htail]
  case phase => rw [State.withEntry_same, hf.phase, State.ringWrite_same]
  case bytes =>
    intro a ha
    rw [State.withEntry_qmem, memRead_writeL_outside hmem (by rwa [hlen])]
  case others => exact fun r hr => State.withEntry_other _ hr

/-- Settles O13: the entry at CQTAIL by its fields; a held completion waits as finished; the one that it held follows it. -/
theorem completionsAreWrittenInOrderAtCqtail : Obligations.CompletionsAreWrittenInOrderAtCqtail := by
  refine ⟨?_, ?_, ?_⟩
  · intro s t status frame res k hmem hlive hst _ hpath hrec hprom htail hfirst hnone u b
    have hentry := completion_at_cqTail s t status frame res hmem hlive hst hpath hrec hprom htail hfirst hnone
    have hb : b = s.plainEntry t status frame res := hentry.entry
    obtain ⟨htag, hop, hstatus, hpb, hsq, hcs, hframe, hres, hzero⟩ := cplBytes_fields t k status
      (frameField frame) res 0 0 (s.latOf t.vis.frame)
    rw [hb]
    exact ⟨htag, hop, hstatus, hpb, hsq, hcs, hframe, hres, hzero, hentry.cseq, hentry.cqTail, hentry.phase, hentry.bytes,
      hentry.others, complete_sameMachine ..⟩
  · intro s t o status frame res data evt ho hq hid hdead hholds hlive u
    have hu : u = s.await t (.done status frame res data evt false) :=
      State.complete_of_behind (State.behind_of_mem ho hq hid hdead hholds hlive) ..
    have hsame : SameMachine s u := complete_sameMachine ..
    refine ⟨by rw [hu]; rfl, by rw [hu]; rfl, ⟨⟨t, s.outs.length, _⟩, ?_, rfl, rfl⟩, hsame⟩
    rw [hu]
    exact List.mem_append_right _ (List.mem_singleton.mpr rfl)
  · intro s t u k st su ft fu rt ru houts hq hid
    have hfirst : s.behind t = false := State.not_behind_single houts hid.le
    have hwritten : (s.writeCpl t st ft rt).outs = [⟨u, k, .done su fu ru [] false false⟩] := by
      rw [State.writeCpl_outs, houts]
    rw [State.complete, State.close, hfirst, if_neg Bool.false_ne_true, ← State.flushOne_single hwritten, houts, hq]
    rfl

end Sys2Proof.Stated
end

section
/-! ## Configuration commands -/
namespace Sys2Proof.Stated
open Sys2Proof Sys2Proof.Machine

/-- R437, R443, R444: a configuration command whose checks and those of its records pass has its effect, after the count of the
credential that it needs is spent. -/
theorem State.cfgThen_eq_effect_spent {s : State} {t : Taken} {c : CfgSpec} {r : OpRow} (hr : opRow t.op.toNat = some r)
    (hpassed : ∀ p ∈ baseChecks r t s ++ s.cfgChecks t c, p.2 = false) (eff : State → State) :
    s.cfgThen t c eff = eff (if c.needCred then s.takeCount t else s) := by
  cases hneed : c.needCred with
  | false => exact State.cfgThen_eq_effect hr hpassed hneed eff
  | true =>
    have hcred : (c.needCred && !s.credOk t) = false := hpassed (0x10, _) (List.mem_append_right _ List.mem_cons_self)
    have hok : s.credOk t = true := by simpa [hneed] using hcred
    simp [State.cfgThen, hr, firstStatus_eq_none hpassed, hneed, hok]

section
variable {c : Instr} {op : Nat} {q : Fin 32} {d : CmdArgs} (spec : Taken → State → CfgSpec)

/-- R434, R437: an accepted configuration command stages its records for the point that they name, and waits for it. -/
theorem exec_cfg_accepted {s : State} (haccepted : Accepted c s q op d)
    (hexec : exec c s = .next (s.rowCmd (fun t u => u.cfg t (spec t u)) op q d))
    (hown : ownChecks c = fun t u => u.cfgChecks t (spec t u)) :
    let t := taken s q op d
    let e := entered s q op d
    exec c s = .next (withStaged (if (spec t e).needCred then e.takeCount t else e) t ((spec t e).due (cfgRecs t))
      ((spec t e).writes t) (cfgPassed t)) := by
  obtain ⟨hready, r, hr, hpassed⟩ := haccepted
  rw [allChecks, hown] at hpassed
  intro t e
  rw [hexec, rowCmd_atOnce hready, State.cfg, State.cfgThen_eq_effect_spent (opRow_ofNat hr) hpassed, stage_eq_withStaged]

/-- A configuration command that takes no credential stages its records whenever it is accepted. -/
theorem stages_of_cfg (hexec : ∀ s, exec c s = .next (s.rowCmd (fun t u => u.cfg t (spec t u)) op q d))
    (hown : ownChecks c = fun t u => u.cfgChecks t (spec t u)) (hcred : ∀ t u, (spec t u).needCred = false) :
    Stages c op q d (fun t e => (spec t e).due (cfgRecs t)) (fun t e => (spec t e).writes t) cfgPassed := by
  intro s haccepted t e
  have hstaged := exec_cfg_accepted spec haccepted (hexec s) hown
  simpa only [hcred, Bool.false_eq_true, if_false] using hstaged

end

/-- Settles O15: each is a configuration command by its own specification; CH_CFG alone can need a credential. -/
theorem configurationCommandsStageTheirRecords : Obligations.ConfigurationCommandsStageTheirRecords := by
  refine ⟨fun q d s haccepted => ?chCfg, fun q d => ⟨?cvCfg, ?auxCfg, ?lawCfg, ?capSet, ?huCfg, ?stagCfg, ?batCfg, ?hingeCfg,
    ?pdCfg⟩⟩
  case chCfg => exact exec_cfg_accepted cfgChCfg haccepted rfl rfl
  case cvCfg => exact stages_of_cfg cfgCvCfg (fun _ => rfl) rfl fun _ _ => rfl
  case auxCfg => exact stages_of_cfg cfgAuxCfg (fun _ => rfl) rfl fun _ _ => rfl
  case lawCfg => exact stages_of_cfg cfgLawCfg (fun _ => rfl) rfl fun _ _ => rfl
  case capSet => exact stages_of_cfg cfgCapSet (fun _ => rfl) rfl fun _ _ => rfl
  case huCfg => exact stages_of_cfg cfgHuCfg (fun _ => rfl) rfl fun _ _ => rfl
  case stagCfg => exact stages_of_cfg cfgStagCfg (fun _ => rfl) rfl fun _ _ => rfl
  case batCfg => exact stages_of_cfg cfgBatCfg (fun _ => rfl) rfl fun _ _ => rfl
  case hingeCfg => exact stages_of_cfg cfgHingeCfg (fun _ => rfl) rfl fun _ _ => rfl
  case pdCfg => exact stages_of_cfg cfgPdCfg (fun _ => rfl) rfl fun _ _ => rfl

end Sys2Proof.Stated
end
section
/-! No command reads or changes the queue of waiting commands, and Keyring goes back to OFF only with the keep-alive domain (log 1,
R549): one pass over the operations that move the supply state, beside the ones that keep it. -/

namespace Sys2Proof.Machine

open Sys2Proof

/-- The state s has come from s₀ with the same commands waiting, and Keyring has not gone back to OFF. -/
structure Carried (s₀ s : State) : Prop where
  pending : s.pending = s₀.pending
  krg : s₀.krg.st ≠ .off → s.krg.st ≠ .off

/-- A command completes, with the same commands waiting and Keyring not back in OFF. -/
def Carries (s₀ : State) (o : Host.Outcome State Fault Refusal) : Prop := ∃ t, o = .next t ∧ Carried s₀ t

section
variable {s₀ s t : State}

theorem Carries.next (h : Carried s₀ s) : Carries s₀ (.next s) := ⟨s, rfl, h⟩

theorem Carried.refl (s : State) : Carried s s := ⟨rfl, id⟩

theorem Carried.trans (h : Carried s₀ s) (k : Carried s t) : Carried s₀ t := ⟨k.pending.trans h.pending, k.krg ∘ h.krg⟩

theorem Carried.kept (h : Carried s₀ s) (k : Kept false s t) : Carried s₀ t := h.trans ⟨k.pending, fun hk => by rwa [k.krg]⟩

theorem Carried.of_krg (h : Carried s₀ s) (hpending : t.pending = s.pending) (hkrg : t.krg.st = s.krg.st) : Carried s₀ t :=
  h.trans ⟨hpending, fun hk => by rwa [hkrg]⟩

theorem Carried.ite {c : Prop} [Decidable c] (hs : Carried s₀ s) (ht : Carried s₀ t) : Carried s₀ (if c then s else t) := by
  split
  · exact hs
  · exact ht

/-! ### Updates of the supply state -/

theorem Carried.updPw {f : Power → Power} (h : Carried s₀ s) : Carried s₀ (s.updPw f) := h.of_krg rfl rfl

theorem Carried.updFr {f : Machine.Frm → Machine.Frm} (h : Carried s₀ s) : Carried s₀ (s.updFr f) := h.of_krg rfl rfl

theorem Carried.updClk {f : Clk → Clk} (h : Carried s₀ s) : Carried s₀ (s.updClk f) := h.of_krg rfl rfl

theorem Carried.updUpd {f : Upd → Upd} (h : Carried s₀ s) : Carried s₀ (s.updUpd f) := h.of_krg rfl rfl

theorem Carried.updKrg {f : Krg → Krg} (h : Carried s₀ s) (hf : s.krg.st ≠ .off → (f s.krg).st ≠ .off) :
    Carried s₀ (s.updKrg f) := h.trans ⟨rfl, hf⟩

/-! ### Resets, wakes and shutdowns -/

theorem Krg.atReset_on {k : Krg} (h : k.st ≠ .off) : k.atReset.st ≠ .off := by
  rw [Krg.atReset_st]
  split
  · decide
  · exact h

theorem Carried.logicReset {cause step : Nat} {die : LogicDie} (h : Carried s₀ s) : Carried s₀ (s.logicReset cause die step) := by
  unfold State.logicReset
  extract_lets pair ref s0 heads s1 s2
  have h1 : Carried s₀ s1 := h.kept (.ite (Kept.refl s).compPending (Kept.refl s).compPending.other.placeSinks)
  exact .ite h (h1.trans ⟨rfl, Krg.atReset_on⟩)

theorem Carried.resetTo4 {cause : Nat} (h : Carried s₀ s) : Carried s₀ (s.resetTo4 cause) := .ite h.logicReset h

theorem Carried.wakeNow {src : Nat} (h : Carried s₀ s) : Carried s₀ (s.wakeNow src) := by
  unfold State.wakeNow
  exact h.updPw.kept (Kept.refl _).keepEvent

theorem Carried.wakeFire {src : Nat} (h : Carried s₀ s) : Carried s₀ (s.wakeFire src) := by
  unfold State.wakeFire
  exact .ite h.wakeNow (.ite h (.ite (h.kept (Kept.refl s).dormAbandon) h.updPw))

theorem Carried.tw0Away (h : Carried s₀ s) : Carried s₀ s.tw0Away := by
  have hn : Carried s₀ (s.twNack .tw0) := h.kept (Kept.refl s).twNack
  exact .ite hn hn.wakeFire

/-- Keyring is in DORMANT after the last step of the Dormant entry. -/
theorem Carried.dormOff (h : Carried s₀ s) : Carried s₀ s.dormOff := by
  unfold State.dormOff
  extract_lets ref s0 held s1 _ _ _ _ s2
  have h0 : Carried s₀ s0 := h.kept (Kept.refl s).compPending
  have h2 : Carried s₀ s2 := h0.trans ⟨rfl, fun _ => by simp [s2]⟩
  split
  · exact h2.wakeNow
  · exact h2

theorem Carried.thShutdown {code src : Nat} {v : Int} (h : Carried s₀ s) : Carried s₀ (s.thShutdown code src v) := by
  unfold State.thShutdown
  extract_lets release s1 s2 s3 s4 pl s5 _ s6
  have h5 : Kept false s s5 := (Kept.refl s).updTh.setFault.cvFault.iceRecord.iceRecord.postOnly.iceFlushed.allOff
  have h6 : Kept false s s6 := .ite h5.other h5.updZone
  exact .ite h ((h.kept h6).of_krg rfl rfl)

/-- A Keyring fault restarts Keyring, or puts it into SAFE. -/
theorem Carried.krgFault {kind c : Nat} {miss bad : BitVec 16} (h : Carried s₀ s) : Carried s₀ (s.krgFault kind c miss bad) := by
  unfold State.krgFault
  extract_lets k clean n payload s1 s2
  have h2 : Carried s₀ s2 := h.kept ((Kept.refl s).updKrg (by rfl)).setFault.keepKrgFault
  exact .ite ((h2.kept (Kept.refl s2).keepEvent).logicReset.updKrg fun _ => by simp) h2.resetTo4

theorem Carried.krgGood {c : Nat} (h : Carried s₀ s) : Carried s₀ (s.krgGood c) := by
  unfold State.krgGood
  extract_lets k run s1 good s2
  have h1 : Carried s₀ s1 := h.kept ((Kept.refl s).when fun _ hu => hu.iceRecord)
  have h2 : Carried s₀ s2 := h1.updKrg fun _ => by simp
  exact .ite (h2.of_krg rfl rfl) h2

/-! ### Starts -/

theorem Carried.startBase {off : Nat} (h : Carried s₀ s) : Carried s₀ (s.startBase off) := by
  unfold State.startBase
  extract_lets masks s1 s2 _ _ _ _ _ s3 s4
  have h2 : Carried s₀ s2 := h.kept (Kept.refl s).settingsStart.burnAtStart.tmbLock
  have h3 : Carried s₀ s3 := by
    unfold s3
    clear_value s2
    exact h2.of_krg rfl rfl
  have h4 : Kept false s3 s4 := .ite (Kept.refl s3).cvConfigure (.refl s3)
  exact h3.kept h4.grpStart

theorem Carried.enterRecovery (h : Carried s₀ s) : Carried s₀ s.enterRecovery := by
  unfold State.enterRecovery
  extract_lets old open' s1 evs s2
  have h2 : Carried s₀ s2 := h.of_krg rfl rfl
  exact h2.kept ((Kept.refl s2).overL fun _ _ hu => hu.postRec)

/-! ### Periods and Frames -/

theorem Carried.thPeriod (h : Carried s₀ s) : Carried s₀ s.thPeriod := by
  unfold State.thPeriod
  extract_lets s1
  have h1 : Kept false s s1 := (Kept.refl s).other.thSense.thNtc
  split
  · exact (h.kept h1).thShutdown
  · exact .ite (h.kept h1).thShutdown (h.kept h1.thLevel.thRestore)

theorem Carried.period {p : PeriodIn} (h : Carried s₀ s) : Carried s₀ (s.period p) := by
  unfold State.period
  extract_lets s1 s2 s3
  have h1 : Carried s₀ s1 := (h.kept (Kept.refl s).hingeTest.applyDue.periodDone).thPeriod
  have h3 : Kept false s1 s3 :=
    (Kept.refl s1).meterPeriod.energyPeriod.creepPeriod.slicePeriod.overL fun _ _ hu => hu.supplyCheck
  exact .ite h1 (h1.kept h3.snapPeriod.snapRecord.figures.hingePeriod.commands)

theorem Carried.ceHalt (h : Carried s₀ s) : Carried s₀ s.ceHalt := by
  have halted : Carried s₀ (State.ceHalt.halt s) := h.updFr.kept (Kept.refl _).cvFault
  unfold State.ceHalt
  split
  · exact .ite h.resetTo4 halted
  · exact halted

theorem Carried.overrunCount (h : Carried s₀ s) : Carried s₀ s.overrunCount := by
  unfold State.overrunCount
  extract_lets s1
  have h1 : Carried s₀ s1 := h.updFr
  exact .ite h (.ite (h1.updFr.kept (Kept.refl _).setFault).ceHalt h1)

theorem Carried.frame {i : FrameIn} (h : Carried s₀ s) : Carried s₀ (s.frame i) := by
  unfold State.frame
  extract_lets s0 s1 s2 s3
  have h0 : Carried s₀ (s0.lastS5 i.s5Carry) := h.kept (Kept.refl s).fireRecord.senseFrame.switchFrame.arcFeed.lastS5
  have ticked : Kept false ((s0.lastS5 i.s5Carry).updFr fun f => f.advance (s0.lastS5 i.s5Carry).clk.relocking i.s5Carry) s1 :=
    (State.atTick_kept _ _).s0.s1
  have h2 : Carried s₀ s2 := ((h0.updFr.kept ticked).kept (Kept.refl s1).ceSlots).updFr
  have sent : Kept false s2 (when s3.drives State.placeSinks s3).netTick :=
    ((Kept.refl s2).sendCodes.when fun _ hu => hu.placeSinks).netTick
  exact h2.kept sent.other

/-! ### The commands that move the supply state -/

theorem Carried.execLogicPorRelease (h : Carried s₀ s) : Carries s₀ (execLogicPorRelease s) := by
  have hup : s.krg.st ≠ .off → (if s.krg.st == .dormant then ({ s.krg with st := .boot } : Krg).atReset else s.krg).st ≠ .off := by
    intro hk
    split
    · exact Krg.atReset_on (by simp)
    · exact hk
  exact .next (.ite (h.trans ⟨rfl, hup⟩) h)

theorem Carried.execResetN (h : Carried s₀ s) : Carries s₀ (execResetN s) := by
  unfold Machine.execResetN
  extract_lets s1
  have h1 : Carried s₀ s1 := h.updPw
  exact .next (.ite (h1.updKrg fun _ => Krg.atReset_on (by simp)) h1.logicReset)

theorem Carried.execResetNRelease (h : Carried s₀ s) : Carries s₀ (execResetNRelease s) := .next (h.of_krg rfl rfl)

theorem Carried.execCrystalFault (h : Carried s₀ s) : Carries s₀ (execCrystalFault s) := by
  unfold Machine.execCrystalFault
  refine .next (.ite h (.ite (h.updClk.kept (Kept.refl _).setFault.keepEvent.keepEvent) ?_))
  extract_lets s0 s1 s2
  have h1 : Carried s₀ s1 := (h.kept (Kept.refl s).other.gensToRc).updClk.updFr (f := fun f => { f with freeze := true })
  exact h1.kept (Kept.refl s1).setFault.iceRecord.iceRecord.linkTo.linkTo

theorem Carried.execPllLock (h : Carried s₀ s) : Carries s₀ (execPllLock s) := by
  unfold Machine.execPllLock
  refine .next (.ite ?_ h)
  extract_lets s0 s1
  have h0 : Kept false s s0 := (Kept.refl s).updKrg (by rfl)
  have tried : Kept false s (s1.bootTry s1.upd.tryOrder).2 := (h0.updUpd (Upd.loadRec_recovery _)).slotsAtBoot.bootTry
  split
  case h_1 s2 e =>
    rw [e] at tried
    exact (h.kept tried).enterRecovery
  case h_2 b s2 e =>
    rw [e] at tried
    extract_lets img s3 _ s4
    have h3 : Kept false (s2.updUpd fun u => { u with booted := b, recovery := false, trialPeriods := 0 }) s3 :=
      (Kept.refl _).provision
    exact ((h.kept tried).updUpd.kept h3.other).updPw

theorem Carried.execFrameOverrun {slot : Fin 4} (h : Carried s₀ s) : Carries s₀ (execFrameOverrun slot s) := by
  unfold Machine.execFrameOverrun
  extract_lets s1 s2
  have h1 : Carried s₀ s1 := h.kept (Kept.refl s).iceRecord
  have h2 : Carried s₀ s2 := h1.updFr.kept (Kept.refl _).updHinge
  exact .next (.ite h2.overrunCount h)

theorem Carried.execCeRestart (h : Carried s₀ s) : Carries s₀ (execCeRestart s) := by
  unfold Machine.execCeRestart
  extract_lets s1 s2
  have h1 : Carried s₀ s1 := h.updFr
  have h2 : Kept false s1 s2 := .ite (Kept.refl s1).injEnd (Kept.refl s1).initLaw
  exact .next (.ite (h1.kept (h2.overL fun _ _ hu => hu.auxReinit)) h)

theorem Carried.execHkRound {i : HkIn} (h : Carried s₀ s) : Carries s₀ (execHkRound i s) := by
  unfold Machine.execHkRound
  extract_lets s1 s2
  have h2 : Carried s₀ s2 := h.kept (.ite (Kept.refl s).other.iceRecord (Kept.refl s).other)
  refine .next (.ite ?_ h)
  split
  · exact h2.thShutdown
  · exact h2

theorem Carried.execComparatorTrip {x : CmpSeen} (h : Carried s₀ s) : Carries s₀ (execComparatorTrip x s) := by
  unfold Machine.execComparatorTrip
  extract_lets n
  have latched : Carried s₀ (s.compLatch n) := h.kept (Kept.refl s).compLatch
  have tripped : Carried s₀ (s.compHeld n).placeSinks := h.kept (Kept.refl s).compHeld.placeSinks
  exact .next (.ite h (.ite (.ite (.ite latched.wakeFire latched) (h.kept (Kept.refl s).noteDecisions))
    (.ite h (.ite tripped.wakeFire tripped))))

theorem Carried.execWake {src : WakeSrc} (h : Carried s₀ s) : Carries s₀ (execWake src s) := by
  refine .next ?_
  cases src with
  | wakeIn => exact .ite h h.wakeFire
  | t1s => exact .ite h h.wakeFire
  | tw0 => exact .ite h h.tw0Away

theorem Carried.execTw0BlockRead {code : Byte} (h : Carried s₀ s) : Carries s₀ (execTw0BlockRead code s) := by
  refine .next ?_
  split
  · exact h.kept (Kept.refl s).twOut
  · exact .ite h.tw0Away (h.kept (Kept.refl s).twOut)

theorem Carried.execTw0QuickCommand (h : Carried s₀ s) : Carries s₀ (execTw0QuickCommand s) := by
  refine .next ?_
  split
  · exact h.kept (Kept.refl s).twOut
  · exact .ite h.tw0Away (h.kept (Kept.refl s).twOut)

theorem Carried.execDormantEntryStep (h : Carried s₀ s) : Carries s₀ (execDormantEntryStep s) := by
  have k : Kept false s s := .refl s
  unfold Machine.execDormantEntryStep
  refine .next (.ite h ?_)
  extract_lets to'
  have stepped {n : Nat} {u : State} (hu : Kept false s u) : Carried s₀ (to' n u) := (h.kept hu).updPw
  split
  · exact stepped (k.pdSleep.overL fun _ _ hu => hu.auxOff.completeOuts fun _ _ hv => hv.finish)
  · exact stepped (.ite k.cvHalt k.updCv)
  · exact .ite (stepped k.dormHold) h
  · exact stepped k.dormStore
  · exact stepped k.dormPumps
  · exact h.dormOff
  · exact h

theorem Carried.execEccDouble {r : Region} {addr : Word} {part : FirnPart} (h : Carried s₀ s) :
    Carries s₀ (execEccDouble r addr part s) := by
  unfold Machine.execEccDouble
  refine .next (.ite h (.ite h.resetTo4 ?_))
  extract_lets s1
  have h1 : Kept false s s1 := (Kept.refl s).iceRecord
  cases r with
  | ceTcm => exact .ite (h.kept h1).ceHalt (h.kept h1)
  | capture => exact h.kept h1.markSample
  | queueMem => exact h.kept h1.queueEcc
  | linkBuf => exact h.kept h1.netDrop
  | firn => exact h.kept (.ite h1.firnEcc h1)
  | bootRom | supSram | flashWin | blockRegs => exact h.kept h1

theorem Carried.execKeyringSeal {count : Nat} (h : Carried s₀ s) : Carries s₀ (execKeyringSeal count s) := by
  unfold Machine.execKeyringSeal
  exact .next (.ite (.ite h.krgFault (.ite h.krgFault (.ite h.krgFault (.ite h.krgFault h.krgGood)))) h)

theorem Carried.execCommandedReset (h : Carried s₀ s) : Carries s₀ (execCommandedReset s) := by
  refine .next ?_
  split
  · exact .ite h.resetTo4 h
  · exact h

/-- A command that moves the supply state carries the queue on; a power-up and a keep-alive POR are the ones that set Keyring. -/
theorem carries_of_movesSupply (c : Instr) (s : State) (hmoves : movesSupply c = true) (hpor : c ≠ .keepAlivePor)
    (hup : c ≠ .powerUp) : Carries s (exec c s) := by
  have h : Carried s s := .refl s
  cases c with
  | powerUp => exact absurd rfl hup
  | keepAlivePor => exact absurd rfl hpor
  | logicPor => exact .next h.logicReset
  | logicPorRelease => exact h.execLogicPorRelease
  | resetN => exact h.execResetN
  | resetNRelease => exact h.execResetNRelease
  | lockstepMismatch => exact .next h.resetTo4
  | pllLockLoss => exact .next (.ite h.resetTo4 h)
  | commandedReset => exact h.execCommandedReset
  | crystalFault => exact h.execCrystalFault
  | pllRelock => exact .next (.ite h.updClk h)
  | pllLock => exact h.execPllLock
  | ceRelease off => exact .next (.ite (h.startBase.kept (Kept.refl _).startRecords) h)
  | frameTick i => exact .next (.ite h.frame h)
  | frameOverrun slot => exact h.execFrameOverrun
  | ceRestart => exact h.execCeRestart
  | periodBoundary p => exact .next (.ite h.period h)
  | hkRound i => exact h.execHkRound
  | comparatorTrip x => exact h.execComparatorTrip
  | wake src => exact h.execWake
  | tw0BlockRead code => exact h.execTw0BlockRead
  | tw0QuickCommand => exact h.execTw0QuickCommand
  | keyringWakeInterval => exact .next (.ite (h.updKrg id).wakeFire h)
  | dormantEntryStep => exact h.execDormantEntryStep
  | keyringSeal count => exact h.execKeyringSeal
  | keyringEnable => exact .next (.ite (h.updKrg fun _ => by simp) h)
  | expire => exact .next (.ite h.krgFault h)
  | eccDouble r addr part => exact h.execEccDouble
  | _ => cases hmoves

theorem carries_exec (c : Instr) (s : State) (hpor : c ≠ .keepAlivePor) (hup : c ≠ .powerUp) : Carries s (exec c s) := by
  cases hmoves : movesSupply c with
  | true => exact carries_of_movesSupply c s hmoves hpor hup
  | false =>
    obtain ⟨t, e, k⟩ := exec_keeps c s hmoves
    exact ⟨t, e, (Carried.refl s).kept k⟩

theorem execPowerUp_pending (s : State) : ∃ t, execPowerUp s = .next t ∧ t.pending = s.pending := by
  refine ⟨_, rfl, ?_⟩
  split
  · rfl
  · rfl

end

end Sys2Proof.Machine

namespace Sys2Proof.Stated

open Sys2Proof Sys2Proof.Machine

/-- Settles O2: no operation of a command touches the queue, and the state that a keep-alive POR stores holds it too. -/
theorem everyCommandCompletesAndKeepsTheQueue : Obligations.EveryCommandCompletesAndKeepsTheQueue := by
  intro c s
  by_cases hpor : c = .keepAlivePor
  · exact hpor ▸ ⟨s.porReset, rfl, rfl⟩
  · by_cases hup : c = .powerUp
    · exact hup ▸ execPowerUp_pending s
    · obtain ⟨t, e, k⟩ := carries_exec c s hpor hup
      exact ⟨t, e, k.pending⟩

/-- Settles O46: each operation that moves Keyring moves it to another state than OFF. -/
theorem nothingButAPorReturnsKeyringToOff : Obligations.NothingButAPorReturnsKeyringToOff := by
  intro s t c hon hpor hup hexec
  obtain ⟨u, e, k⟩ := carries_exec c s hpor hup
  obtain rfl : u = t := Host.Outcome.next.inj (e.symm.trans hexec)
  exact k.krg hon

/-- Settles O1: exec is what step runs on the front command. -/
theorem stepRunsTheFrontCommand : Obligations.StepRunsTheFrontCommand := by
  refine ⟨fun c rest s => rfl, fun s hempty => ?_⟩
  unfold step
  rw [hempty]

end Sys2Proof.Stated
end
section
/-! A SHUTDOWN that counts an address byte of TW0 (R480, R569), and a read of the response list that lets a held event in (R423, R484). -/

namespace Sys2Proof.Stated

open Sys2Proof Sys2Proof.Machine

/-- The device in SHUTDOWN with an address for TW0. -/
def shutdownState : State :=
  { State.reset with
    pw := { State.reset.pw with mode := .shutdown, logic := .inReset }
    otp := { State.reset.otp with tw0Addr := some 0x20 } }

theorem shutdownState_powerInv : PowerInv shutdownState :=
  .of_stopped rfl (fun hl => by cases hl) (fun hk => by cases hk) fun _ => ⟨rfl, by decide +kernel⟩

/-- What NACK_WAKE of TW0 counts after a command. -/
def nackWakeAfter : Host.Outcome State Fault Refusal → Option Nat
  | .next t => some t.tw.c0.nackWake
  | _ => none

/-- The keep-alive receiver NACKs the address and counts it (R480). -/
theorem wakeTw0_counts_in_shutdown : nackWakeAfter (exec (.wake .tw0) shutdownState) = some 1 := by decide +kernel

/-- Refutes O27: in SHUTDOWN the address byte of TW0, a wake source, is NACKed and counted, where the statement has no effect of any
wake source. -/
theorem not_shutdownIsLeftOnlyByAKeepAlivePor : ¬ Obligations.ShutdownIsLeftOnlyByAKeepAlivePor := by
  intro h
  obtain ⟨-, -, hwake, -⟩ := h shutdownState rfl shutdownState_powerInv
  have hcounted := wakeTw0_counts_in_shutdown
  rw [hwake .tw0] at hcounted
  exact absurd hcounted (by decide +kernel)

/-- The entry of an event of Queue 28 in the response list of TW1. -/
def listedEvent : TwEnt := ⟨1, 2, 28, [], some none⟩

/-- Event Queue 28 goes over TW1, its ring is full, one more event is held back, and the response list shows one event. -/
def heldEventState : State :=
  { (State.reset.updQ 28 fun k => { k with path := .tw1, st := .run, cqTail := 255, coal := [default] }) with
    pw := { State.reset.pw with mode := .run, logic := .running }
    fr := { State.reset.fr with running := true }
    otp := { State.reset.otp with tw1Addr := some 0x21 }
    tw := { State.reset.tw with resp := [listedEvent] } }

/-- How many entries the response list holds after a command. -/
def responsesAfter : Host.Outcome State Fault Refusal → Option Nat
  | .next t => some t.tw.resp.length
  | _ => none

/-- The entry that the read frees in the ring is taken by the event held back, which joins the list (R423). -/
theorem tw1BlockRead_refills : responsesAfter (exec (.tw1BlockRead 0x40 true) heldEventState) = some 1 := by decide +kernel

/-- Refutes O55: a complete read of the last entry of the response list, that of an event, frees a ring entry of its Queue, and the event
that was held back takes it and stands in the list at once; the statement has the list empty. -/
theorem not_twoWireTransfersAct : ¬ Obligations.TwoWireTransfersAct := by
  rintro ⟨-, hread, -⟩
  obtain ⟨-, hentry, -⟩ := hread heldEventState 0x21 rfl rfl
  obtain ⟨-, t, hexec, hrest, -⟩ := hentry listedEvent [] rfl
  have hrefilled := tw1BlockRead_refills
  rw [hexec, responsesAfter, hrest] at hrefilled
  exact absurd hrefilled (by decide)

end Sys2Proof.Stated
end
section
/-! Icecore: the bytes of a record, folding, loss, flush and clear (R521, R527-R530, R534). -/

namespace Sys2Proof.Machine

open Sys2Proof

/-! ### The bytes of a record (Table 16.1) -/

/-- What the CRC covers behind the repeat count. -/
def IceRec.tail (r : IceRec) : List Byte := le 2 r.code ++ le 2 r.source ++ le 2 r.flags ++ fitTo 16 r.payload

@[simp] theorem IceRec.tail_length (r : IceRec) : r.tail.length = 22 := by simp [IceRec.tail]

/-- The fields of a record stand one behind the other; the CRC leaves the repeat count out. -/
theorem IceRec.bytes_eq (r : IceRec) :
    r.bytes = le 4 r.seq ++ (le 2 r.rep ++ (r.tail ++ le 4 (crc32c (le 4 r.seq ++ r.tail)).toNat)) := by
  simp [IceRec.bytes, IceRec.tail]

theorem IceRec.bytes_seq (r : IceRec) : r.bytes.take 4 = le 4 r.seq := by
  rw [bytes_eq, List.take_left' (by simp)]

theorem IceRec.bytes_drop_seq (r : IceRec) :
    r.bytes.drop 4 = le 2 r.rep ++ (r.tail ++ le 4 (crc32c (le 4 r.seq ++ r.tail)).toNat) := by
  rw [bytes_eq, List.drop_left' (by simp)]

theorem IceRec.bytes_drop_rep (r : IceRec) : r.bytes.drop 6 = r.tail ++ le 4 (crc32c (le 4 r.seq ++ r.tail)).toNat := by
  rw [← List.drop_drop (i := 2) (j := 4), bytes_drop_seq, List.drop_left' (by simp)]

theorem IceRec.bytes_tail (r : IceRec) : (r.bytes.drop 6).take 22 = r.tail := by
  rw [bytes_drop_rep, List.take_left' (by simp)]

theorem IceRec.bytes_crc (r : IceRec) : r.bytes.drop 28 = le 4 (crc32c (le 4 r.seq ++ r.tail)).toNat := by
  rw [← List.drop_drop (i := 22) (j := 6), bytes_drop_rep, List.drop_left' (by simp)]

/-- A field of the covered part stands behind the fields before it. -/
theorem IceRec.bytes_field (r : IceRec) {a b c : List Byte} (h : r.tail = a ++ (b ++ c)) :
    (r.bytes.drop (6 + a.length)).take b.length = b := by
  rw [← List.drop_drop, bytes_drop_rep, h, List.append_assoc, List.drop_left, List.append_assoc, List.take_left]

/-! ### Occurrences -/

/-- R527: an occurrence equal to the newest buffered record is folded into it. -/
theorem State.iceRecord_folds {s : State} {code src sev : Nat} {p : List Byte} {old : List IceRec} {r : IceRec}
    (hlive : s.live = true) (hbuf : s.ice.buf = old ++ [r]) (hcode : r.code = code) (hsrc : r.source = src)
    (hpayload : r.payload = fitTo 16 p) (hflags : r.flags = (if s.pw.pfw then 16 else 0) + 4 * s.srcClass src + sev)
    (hrep : r.rep < 65535) :
    s.iceRecord code src sev p = { s with ice := { s.ice with buf := old ++ [{ r with rep := r.rep + 1 }] } } := by
  have hlast : s.ice.buf.getLast? = some r := by rw [hbuf, List.getLast?_concat]
  have hinit : s.ice.buf.dropLast = old := by rw [hbuf, List.dropLast_concat]
  unfold State.iceRecord
  rw [if_neg (by simp [hlive])]
  extract_lets flags pl same
  have hsame : same r = true := by simp [same, flags, pl, hcode, hsrc, hpayload, hflags]
  have hfolds : (same r && decide (r.rep < 65535)) = true := by rw [hsame, decide_eq_true hrep, Bool.true_and]
  simp only [hlast]
  rw [if_pos hfolds, hinit]

theorem Ice.reserve_counts (i : Ice) :
    i.reserve.buf = i.buf ∧ i.reserve.next = i.next ∧ i.reserve.lost = i.lost := by
  unfold Ice.reserve
  dsimp only
  split
  · exact ⟨rfl, rfl, rfl⟩
  · exact ⟨rfl, rfl, rfl⟩

/-- R528: a full buffer loses the occurrence; at most a reservation comes before. -/
theorem State.iceOpen_lost_ex {s : State} (code src flags : Nat) (p : List Byte) (hfull : 1024 ≤ s.ice.buf.length) :
    ∃ i, s.iceOpen code src flags p = State.iceLose { s with ice := i } ∧ i.buf = s.ice.buf ∧ i.next = s.ice.next ∧
      i.lost = s.ice.lost := by
  have hcounts (c : Bool) : (if c then s.ice.reserve else s.ice).buf = s.ice.buf ∧
      (if c then s.ice.reserve else s.ice).next = s.ice.next ∧ (if c then s.ice.reserve else s.ice).lost = s.ice.lost := by
    cases c with
    | true => exact s.ice.reserve_counts
    | false => exact ⟨rfl, rfl, rfl⟩
  unfold State.iceOpen
  dsimp only
  specialize hcounts (decide (s.ice.room ≤ 512) && !s.pw.pfw)
  generalize (if (decide (s.ice.room ≤ 512) && !s.pw.pfw) = true then s.ice.reserve else s.ice) = i at hcounts ⊢
  obtain ⟨hbuf, hnext, hlost⟩ := hcounts
  exact ⟨i, if_pos (by simp [hbuf, hfull]), hbuf, hnext, hlost⟩

theorem State.iceOpen_lost {s : State} {code src flags : Nat} {p : List Byte} (hfull : 1024 ≤ s.ice.buf.length) :
    (s.iceOpen code src flags p).ice.lost = s.ice.lost + 1 ∧ (s.iceOpen code src flags p).ice.next = s.ice.next ∧
      (s.iceOpen code src flags p).ice.buf = s.ice.buf := by
  obtain ⟨i, hopen, hbuf, hnext, hlost⟩ := State.iceOpen_lost_ex code src flags p hfull
  rw [hopen]
  exact ⟨congrArg (· + 1) hlost, hnext, hbuf⟩

/-! ### Flush and clear -/

theorem State.batStore_ex (s : State) : ∃ b, s.batStore = { s with bat := b } := by
  unfold State.batStore
  dsimp only
  split
  · exact ⟨s.bat, rfl⟩
  · split
    · exact ⟨_, rfl⟩
    · exact ⟨_, rfl⟩

/-- The end of a flush, and the store of the battery values that a power-fail warning has left due (R76). -/
def State.flushEnded (s : State) : State :=
  when s.pw.batDue (fun s => { s.batStore with pw := { s.pw with batDue := false } }) s.iceFlushed

theorem exec_iceFlushDone {s : State} (hlive : s.live = true) (hflushing : s.ice.flushing = true)
    (hclear : s.ice.clearing = none) : exec .iceFlushDone s = .next s.flushEnded := by
  simp [exec, execIceFlushDone, State.flushEnded, hlive, hflushing, hclear]

theorem State.iceFlushed_told (s : State) : Told s s.iceFlushed := by
  have committed : Told s ((s.updIce fun i => { i.commit with flushCmds := [] }).iceGap) := by
    obtain ⟨i, hgap⟩ := (s.updIce fun i => { i.commit with flushCmds := [] }).iceGap_ex
    rw [hgap]
    exact ⟨⟨id, rfl, rfl, rfl, rfl, rfl, rfl, rfl, rfl, rfl, rfl, rfl, rfl, rfl, rfl, rfl, rfl, rfl, rfl, rfl, rfl, rfl, rfl, rfl, rfl,
      rfl, rfl, rfl, rfl, rfl, rfl, rfl, rfl, rfl, rfl, rfl, rfl, rfl, rfl, rfl, rfl, rfl, rfl, rfl, rfl, rfl, rfl, rfl, rfl, rfl,
      rfl⟩, rfl⟩
  exact committed.trans (told_overL _ _ (fun t u => u.cmdDone_told t 0 []) _)

/-- With no command of a flush and nothing lost, a flush moves the buffer into the ring and does no more. -/
theorem State.iceFlushed_ice {s : State} (hcmds : s.ice.flushCmds = []) (hlost : s.ice.lostPend = 0) :
    s.iceFlushed.ice = { s.ice.commit with flushCmds := [] } := by
  simp [State.iceFlushed, hcmds, overL, State.iceGap, State.updIce, Ice.commit, hlost]

/-- The battery values apart, the end of a flush is that of Icecore. -/
theorem State.flushEnded_ex (s : State) : ∃ b p, s.flushEnded = { s.iceFlushed with bat := b, pw := p } ∧ p.batDue = false := by
  cases hdue : s.pw.batDue with
  | true =>
    obtain ⟨b, hb⟩ := s.iceFlushed.batStore_ex
    exact ⟨b, _, by rw [State.flushEnded, hdue, Machine.when, if_pos rfl, hb], rfl⟩
  | false => exact ⟨s.iceFlushed.bat, s.iceFlushed.pw, by rw [State.flushEnded, hdue]; rfl, by rw [s.iceFlushed_told.posted.pw, hdue]⟩

end Sys2Proof.Machine

namespace Sys2Proof.Stated

open Sys2Proof Sys2Proof.Machine

/-- Settles O41: the fields stand one behind the other, and what the CRC covers does not hold the repeat count. -/
theorem recordCrcLeavesTheRepeatCountOut : Obligations.RecordCrcLeavesTheRepeatCountOut := by
  intro r n
  refine ⟨?length, r.bytes_seq, ?rep, ?code, ?source, ?flags, ?payload, ?crc, ?count⟩
  case length => simp [r.bytes_eq]
  case rep => rw [r.bytes_drop_seq, List.take_left' (by simp)]
  case code => simpa using r.bytes_field (a := []) (b := le 2 r.code) (c := le 2 r.source ++ le 2 r.flags ++ fitTo 16 r.payload) (by simp [IceRec.tail])
  case source => simpa using r.bytes_field (a := le 2 r.code) (b := le 2 r.source) (c := le 2 r.flags ++ fitTo 16 r.payload) (by simp [IceRec.tail])
  case flags => simpa using r.bytes_field (a := le 2 r.code ++ le 2 r.source) (b := le 2 r.flags) (c := fitTo 16 r.payload) (by simp [IceRec.tail])
  case payload => simpa using r.bytes_field (a := le 2 r.code ++ le 2 r.source ++ le 2 r.flags) (b := fitTo 16 r.payload) (c := []) (by simp [IceRec.tail])
  case crc => rw [r.bytes_crc, r.bytes_seq, r.bytes_tail]
  case count => rw [IceRec.bytes_crc, IceRec.bytes_crc]; rfl

/-- Settles O42: a fold is one of equal records, a full buffer loses, and a flush and a clear end by their own equations. -/
theorem recordsFoldFlushAndClear : Obligations.RecordsFoldFlushAndClear := by
  refine ⟨⟨fun s code src sev p old r hlive hbuf hcode hsrc hpayload hflags hrep =>
      State.iceRecord_folds hlive hbuf hcode hsrc hpayload hflags hrep,
    fun s code src flags p hfull => ⟨_, rfl, State.iceOpen_lost hfull⟩⟩,
    fun s hlive hflushing hclear => ?flushed, fun s hidle => ?noFlush, fun s t h hlive hpfw hclear => ?cleared,
    fun s hidle => ?noClear⟩
  case flushed =>
    obtain ⟨b, p, hended, hdue⟩ := s.flushEnded_ex
    refine ⟨_, (exec_iceFlushDone hlive hflushing hclear).trans (congrArg _ hended), s.iceFlushed_told.posted.ch,
      s.iceFlushed_told.outs, fun hcmds hlost => ?_, hdue⟩
    have hice := State.iceFlushed_ice hcmds hlost
    exact ⟨congrArg Ice.buf hice, congrArg Ice.flushing hice, congrArg Ice.foldPend hice, congrArg Ice.ring hice⟩
  case noFlush => simp [exec, execIceFlushDone, hidle]
  case cleared => simp [exec, execIceClearDone, hclear, hlive, hpfw, State.updIce]
  case noClear => simp [exec, execIceClearDone, hidle]

end Sys2Proof.Stated
end
section
/-! The Keyring watchdog (17): seals, key writes, registration, expiry and the clock monitor. -/

namespace Sys2Proof.Machine

open Sys2Proof

section
variable {s t u : State} {count : Nat}

/-! ### A seal (Table 17.13) -/

theorem exec_keyringSeal (h : s.krgCounts = true) : exec (.keyringSeal count) s = .next (
    let miss := s.krg.reg &&& ~~~(s.krg.given ||| (if s.fr.ceHalted then 1 else 0))
    if count ≥ s.krgP then s.krgFault 2 s.krgP 0 0
    else if count < s.krgW then s.krgFault 1 count 0 0
    else if s.krg.st == .run && miss != 0 then s.krgFault 3 count miss 0
    else if s.krg.st == .run && s.krg.bad != 0 then s.krgFault 4 count 0 s.krg.bad
    else s.krgGood count) := by
  show execKeyringSeal count s = _
  unfold execKeyringSeal
  rw [if_pos h]

/-- A good seal is the last row: no earlier one matches. -/
theorem exec_keyringSeal_good (h : s.krgCounts = true) (hp : count < s.krgP) (hw : s.krgW ≤ count)
    (hkeys : s.krg.st = .run →
      s.krg.reg &&& ~~~(s.krg.given ||| (if s.fr.ceHalted then 1 else 0)) = 0 ∧ s.krg.bad = 0) :
    exec (.keyringSeal count) s = .next (s.krgGood count) := by
  rw [exec_keyringSeal h]
  extract_lets miss
  rw [if_neg (Nat.not_le.mpr hp), if_neg (Nat.not_lt.mpr hw)]
  by_cases hrun : s.krg.st = .run
  · obtain ⟨hmiss, hbad⟩ := hkeys hrun
    simp [miss, hmiss, hbad]
  · simp [hrun]

/-- Keyring after a good seal at count c (R552, R553, R555). -/
def Krg.sealed (k : Krg) (c : Nat) : Krg :=
  let run := k.st == .run
  let good := if run then k.goodCounts + c else 0
  { k with
    st := .run, count := 0, pseq := k.pseq + 1, given := 0, bad := 0, dup := 0, lastDup := k.dup
    regLock := k.regLock || run, goodCounts := min 1000000 good, rstCnt := if good ≥ 1000000 then 0 else k.rstCnt }

/-- The DUP record of a good seal, where one is due, leaves everything but the records (R554). -/
theorem State.when_iceRecord_ex (s : State) (b : Bool) (c o v : Nat) (p : List Byte) :
    ∃ i, when b (fun s => s.iceRecord c o v p) s = { s with ice := i } := by
  cases b
  · exact ⟨s.ice, rfl⟩
  · exact s.iceRecord_ex c o v p

/-- A good seal moves Keyring on; in RUN it ends Keyring's source of FAULT_N. -/
theorem State.krgGood_eq (s : State) (c : Nat) : ∃ i : Ice, s.krgGood c =
    if s.krg.st == .run then { s with ice := i, krg := s.krg.sealed c, hpt := s.hpt &&& ~~~(1#9 <<< 7) }
    else { s with ice := i, krg := s.krg.sealed c } := by
  unfold State.krgGood
  extract_lets k run s1 good s2
  obtain ⟨i, hi⟩ : ∃ i, s1 = { s with ice := i } := s.when_iceRecord_ex ..
  have h2 : s2 = { s with ice := i, krg := s.krg.sealed c } := by
    unfold s2
    rw [hi]
    rfl
  refine ⟨i, ?_⟩
  rw [h2]

/-- A good seal starts RUN with an empty key set and the next PSEQ (R552); in RUN it ends registration. -/
theorem State.krgGood_seals (s : State) (c : Nat) :
    (s.krgGood c).krg.st = .run ∧ (s.krgGood c).krg.count = 0 ∧ (s.krgGood c).krg.pseq = s.krg.pseq + 1 ∧
    (s.krgGood c).krg.given = 0 ∧ (s.krgGood c).krg.bad = 0 ∧ (s.krgGood c).krg.dup = 0 ∧
    (s.krgGood c).krg.lastDup = s.krg.dup ∧ (s.krgGood c).krg.reg = s.krg.reg ∧ (s.krgGood c).krg.keys = s.krg.keys ∧
    (s.krg.st = .run → (s.krgGood c).krg.regLock = true ∧ (s.krgGood c).hpt.getLsbD 7 = false) ∧
    (s.krgGood c).ch = s.ch ∧ (s.krgGood c).pw = s.pw := by
  obtain ⟨i, hi⟩ := s.krgGood_eq c
  rw [hi]
  split
  · next hrun =>
    refine ⟨rfl, rfl, rfl, rfl, rfl, rfl, rfl, rfl, rfl, fun _ => ⟨?_, ?_⟩, rfl, rfl⟩
    · show (s.krg.regLock || s.krg.st == .run) = true
      rw [hrun, Bool.or_true]
    · simp
  · next hrun => exact ⟨rfl, rfl, rfl, rfl, rfl, rfl, rfl, rfl, rfl, fun h => absurd (beq_iff_eq.mpr h) hrun, rfl, rfl⟩

/-! ### A key write (R554) -/

/-- A write of a registered task's key, correct for the present PSEQ. -/
def Krg.accepts (k : Krg) (task : Fin 16) (v : Half) : Bool :=
  k.reg.getLsbD task.val && v == k.keys[task] ^^^ k.pseq.setWidth 16

/-- What a key write makes of the key set. -/
def Krg.keyWrite (k : Krg) (task : Fin 16) (v : Half) : Krg :=
  if k.accepts task v then
    if k.given.getLsbD task.val then { k with dup := k.dup ||| (1#16 <<< task.val) }
    else { k with given := k.given ||| (1#16 <<< task.val) }
  else { k with bad := k.bad ||| (1#16 <<< (if k.reg.getLsbD task.val then task.val else 15)) }

theorem Krg.accepts_iff {k : Krg} {task : Fin 16} {v : Half} :
    k.accepts task v = true ↔ k.reg.getLsbD task.val = true ∧ v = k.keys[task] ^^^ k.pseq.setWidth 16 := by
  rw [Krg.accepts, Bool.and_eq_true, beq_iff_eq]

theorem exec_keyringKeyWrite {task : Fin 16} {v : Half} (h : s.krgCounts = true) :
    exec (.keyringKeyWrite task v) s = .next { s with krg := s.krg.keyWrite task v } := by
  show execKeyringKeyWrite task v s = _
  unfold execKeyringKeyWrite
  rw [if_pos h]
  rfl

/-! ### A Keyring fault restarts the CE (R555, R556) -/

/-- Only the Channels and the records are changed. -/
def ChIceOnly (s t : State) : Prop := ∃ v i, t = { s with ch := v, ice := i }

theorem ChIceOnly.refl (s : State) : ChIceOnly s s := ⟨s.ch, s.ice, rfl⟩

theorem ChIceOnly.trans (h : ChIceOnly s t) (k : ChIceOnly t u) : ChIceOnly s u := by
  obtain ⟨v, i, rfl⟩ := h
  obtain ⟨w, j, rfl⟩ := k
  exact ⟨w, j, rfl⟩

theorem State.updCh_chIce (s : State) (n : Fin 64) (f : Chan → Chan) : ChIceOnly s (s.updCh n f) := ⟨_, s.ice, rfl⟩

theorem State.mapCh_chIce (s : State) (f : Fin 64 → Chan → Chan) : ChIceOnly s (s.mapCh f) := ⟨_, s.ice, rfl⟩

theorem State.keepEvent_chIce (s : State) (c o : Nat) (p : List Byte) : ChIceOnly s (s.keepEvent c o p) := by
  obtain ⟨i, hi⟩ := s.keepEvent_ex c o p
  exact ⟨s.ch, i, hi⟩

theorem State.compPending_chIce (s : State) : ChIceOnly s s.compPending := by
  refine overL_rel ChIceOnly.refl ChIceOnly.trans _ _ (fun n u => ?_) s
  split
  · exact .refl u
  · exact overL_rel ChIceOnly.refl ChIceOnly.trans _ _
      (fun m w => (State.updCh_chIce w m _).trans (State.keepEvent_chIce _ _ _ _)) u

theorem State.placeSinks_chIce (s : State) : ChIceOnly s s.placeSinks := by
  obtain ⟨⟨v, hv⟩, -⟩ := s.placeSinks_sinksOnly
  exact ⟨v, s.ice, hv⟩

/-- Keyring's FAULT_N source outlasts a logic-die reset. -/
theorem State.kept_hpt (s : State) : s.kept.hpt.getLsbD 7 = s.hpt.getLsbD 7 := by
  refine (getLsbD_flags _ 7).trans ?_
  simp

/-- Keyring across a logic-die reset: its registration is gone, and its source of FAULT_N stays. -/
theorem State.logicReset_krg {cause step : Nat} {die : LogicDie} (hmode : s.pw.mode = .start ∨ s.pw.mode = .run)
    (hlogic : s.pw.logic ≠ .off) : (s.logicReset cause die step).krg = s.krg.atReset ∧
      (s.logicReset cause die step).hpt.getLsbD 7 = s.hpt.getLsbD 7 := by
  have hacts : ¬ (s.pw.mode == .off || s.pw.mode == .shutdown || s.pw.mode == .dormant || s.pw.logic == .off) = true := by
    rcases hmode with e | e <;> simp [e, hlogic]
  unfold State.logicReset
  rw [if_neg hacts]
  extract_lets pair ref s0 heads s1 s2
  have h1 : ChIceOnly s s1 := by
    unfold s1
    split
    · exact s.compPending_chIce
    · exact (s.compPending_chIce.trans (State.mapCh_chIce _ _)).trans (State.placeSinks_chIce _)
  obtain ⟨v, i, hs1⟩ := h1
  have hkrg : s1.krg = s.krg := by rw [hs1]
  have hhpt : s1.hpt = s.hpt := by rw [hs1]
  constructor
  · show s1.krg.atReset = _
    rw [hkrg]
  · exact (State.kept_hpt s1).trans (by rw [hhpt])

theorem State.keepKrgFault_ex (s : State) (p : List Byte) : ∃ i, s.keepKrgFault p = { s with ice := i } := ⟨_, rfl⟩

theorem State.running_of_krgCounts (h : s.krgCounts = true) : s.pw.logic = .running := by
  unfold State.krgCounts at h
  exact beq_iff_eq.mp (Bool.and_eq_true_iff.mp h).1

theorem exec_expire (h : s.krgCounts = true) : exec .expire s = .next (s.krgFault 2 s.krgP 0 0) := congrArg _ (if_pos h)

/-- Keyring with a fault noted (R555). -/
def Krg.faulted (k : Krg) (n kind : Nat) (miss bad : BitVec 16) : Krg :=
  { k with rstCnt := n, goodCounts := 0, lastKind := kind, fMiss := miss, fBad := bad, lastDup := k.dup }

/-- A reset keeps Keyring's fault count. -/
theorem Krg.atReset_rstCnt (k : Krg) : k.atReset.rstCnt = k.rstCnt := by
  unfold Krg.atReset
  split
  · rfl
  · rfl

theorem Krg.atReset_lastKind (k : Krg) : k.atReset.lastKind = k.lastKind := by
  unfold Krg.atReset
  split
  · rfl
  · rfl

section
variable {kind c : Nat} {miss bad : BitVec 16}

/-- A fault in BOOT: the fault is noted, FAULT_N set and the record kept; then the reset by its number. -/
theorem State.krgFault_boot (hst : s.krg.st = .boot) : ∃ i p, s.krgFault kind c miss bad =
    let n := min 7 (s.krg.rstCnt + 1)
    let s2 := { s.setFault 7 with ice := i, krg := s.krg.faulted n kind miss bad }
    if n ≥ 4 then ((s2.keepEvent 0x0F13 rDevice p).logicReset 3 .inReset 3).updKrg fun k => { k with st := .safe }
    else s2.resetTo4 3 := by
  unfold State.krgFault
  extract_lets k clean n payload s1 s2
  have hn : n = min 7 (s.krg.rstCnt + 1) := by
    have hclean : clean = false := by simp [clean, k, hst]
    unfold n
    rw [hclean, if_neg Bool.false_ne_true]
  obtain ⟨i, hi⟩ := (s1.setFault 7).keepKrgFault_ex payload
  refine ⟨i, le 1 n, ?_⟩
  have h2 : s2 = { s.setFault 7 with ice := i, krg := s.krg.faulted n kind miss bad } := hi
  rw [h2, hn]

/-- The first three faults restart the CE, with the fault noted and FAULT_N set. -/
theorem State.krgFault_restarts (hmode : s.pw.mode = .start ∨ s.pw.mode = .run) (hlogic : s.pw.logic = .running)
    (hst : s.krg.st = .boot) (hfew : s.krg.rstCnt < 3) :
    (s.krgFault kind c miss bad).krg = (s.krg.faulted (s.krg.rstCnt + 1) kind miss bad).atReset ∧
    (s.krgFault kind c miss bad).pw.cause = 3 ∧ (s.krgFault kind c miss bad).pw.logic = .running ∧
    (s.krgFault kind c miss bad).hpt.getLsbD 7 = true := by
  obtain ⟨i, p, hfault⟩ := State.krgFault_boot (kind := kind) (c := c) (miss := miss) (bad := bad) hst
  have hn : min 7 (s.krg.rstCnt + 1) = s.krg.rstCnt + 1 := by omega
  rw [hfault]
  extract_lets n _ s2
  have hfew' : ¬ n ≥ 4 := by omega
  have hr : Restarted s2 (s2.resetTo4 3) 3 .running 3 := State.resetTo4_restarted hmode hlogic
  have hreset : s2.resetTo4 3 = s2.logicReset 3 .running 3 := if_pos (beq_iff_eq.mpr hlogic)
  obtain ⟨hkrg, hhpt⟩ := State.logicReset_krg (s := s2) (cause := 3) (die := .running) (step := 3) hmode (by simp [show s2.pw.logic = .running from hlogic])
  rw [if_neg hfew']
  refine ⟨?_, hr.cause, hr.logic, ?_⟩
  · rw [hreset, hkrg]
    show (s.krg.faulted n kind miss bad).atReset = _
    rw [show n = s.krg.rstCnt + 1 from hn]
  · rw [hreset, hhpt]
    show (s.setFault 7).hpt.getLsbD 7 = true
    simp

/-- The fourth fault puts Keyring into SAFE and holds the logic die in reset (R556). -/
theorem State.krgFault_safe (hmode : s.pw.mode = .start ∨ s.pw.mode = .run) (hlogic : s.pw.logic = .running)
    (hst : s.krg.st = .boot) (hmany : 3 ≤ s.krg.rstCnt) :
    (s.krgFault kind c miss bad).krg.st = .safe ∧ (s.krgFault kind c miss bad).pw.logic = .inReset := by
  obtain ⟨i, p, hfault⟩ := State.krgFault_boot (kind := kind) (c := c) (miss := miss) (bad := bad) hst
  rw [hfault]
  extract_lets n _ s2
  have hmany' : n ≥ 4 := by omega
  rw [if_pos hmany']
  have hr : Restarted (s2.keepEvent 0x0F13 rDevice p) ((s2.keepEvent 0x0F13 rDevice p).logicReset 3 .inReset 3) 3 .inReset 3 :=
    State.logicReset_restarted (by rw [State.keepEvent_pw]; exact hmode) (by simp [show s2.pw.logic = .running from hlogic])
  exact ⟨rfl, hr.logic⟩

end

/-! ### The clock monitor (R557) -/

/-- The selected clock has failed: Keyring goes on with the other. -/
def State.krgClockFail (s : State) : State :=
  let failed := if s.krg.clkMain then 0 else 1
  let s1 := (s.updKrg fun k => { k with clkMain := !k.clkMain, clkFail := true }).setFault 8
  if s1.live then s1.iceRecord 0x0F12 rDevice 2 (le 1 failed) else s1.keepEvent 0x0F12 rDevice (le 1 failed)

theorem exec_krgClock (h : s.krgCounts = true) (hstep : 5 ≤ s.pw.step) (hclk : s.krg.clkFail = false) :
    exec .krgClock s = .next s.krgClockFail := by
  refine congrArg _ (if_pos ?_)
  simp [h, hstep, hclk]

/-- The failure is recorded, or its record kept for the start. -/
theorem State.krgClockFail_ex (s : State) : ∃ i, s.krgClockFail =
    { s.setFault 8 with ice := i, krg := { s.krg with clkMain := !s.krg.clkMain, clkFail := true } } := by
  unfold State.krgClockFail
  extract_lets failed s1
  split
  · exact s1.iceRecord_ex ..
  · exact s1.keepEvent_ex ..

theorem State.krgClockFail_krg (s : State) :
    s.krgClockFail.krg = { s.krg with clkMain := !s.krg.clkMain, clkFail := true } := by
  obtain ⟨i, hi⟩ := s.krgClockFail_ex
  rw [hi]

theorem State.krgClockFail_hpt (s : State) : s.krgClockFail.hpt.getLsbD 8 = true := by
  obtain ⟨i, hi⟩ := s.krgClockFail_ex
  simp [hi]

theorem State.krgClockFail_ch (s : State) : s.krgClockFail.ch = s.ch := by
  obtain ⟨i, hi⟩ := s.krgClockFail_ex
  simp [hi]

end

end Sys2Proof.Machine

namespace Sys2Proof.Stated

open Sys2Proof Sys2Proof.Machine

/-- Settles O44: the rows of Table 17.13 are tried in their order, and a good seal is the last. -/
theorem sealHasTheResultOfTheFirstMatchingRow : Obligations.SealHasTheResultOfTheFirstMatchingRow := by
  intro s c hcounts miss
  refine ⟨fun hlate => ?_, fun hp hearly => ?_, fun hp hw hrun hmiss => ?_, fun hp hw hrun hmiss hbad => ?_,
    fun hp hw hkeys => ⟨_, exec_keyringSeal_good hcounts hp hw hkeys, s.krgGood_seals c⟩⟩
  · rw [exec_keyringSeal hcounts]
    exact congrArg _ (if_pos hlate)
  · rw [exec_keyringSeal hcounts]
    exact congrArg _ ((if_neg (Nat.not_le.mpr hp)).trans (if_pos hearly))
  · have hrow : (s.krg.st == .run && miss != 0) = true := by rw [Bool.and_eq_true, beq_iff_eq, bne_iff_ne]; exact ⟨hrun, hmiss⟩
    rw [exec_keyringSeal hcounts]
    exact congrArg _ ((if_neg (Nat.not_le.mpr hp)).trans ((if_neg (Nat.not_lt.mpr hw)).trans (if_pos hrow)))
  · have hrow : ¬ (s.krg.st == .run && miss != 0) = true := by rw [Bool.and_eq_true, bne_iff_ne]; exact fun h => h.2 hmiss
    have hrow' : (s.krg.st == .run && s.krg.bad != 0) = true := by
      rw [Bool.and_eq_true, beq_iff_eq, bne_iff_ne]; exact ⟨hrun, hbad⟩
    rw [exec_keyringSeal hcounts]
    exact congrArg _ ((if_neg (Nat.not_le.mpr hp)).trans ((if_neg (Nat.not_lt.mpr hw)).trans
      ((if_neg hrow).trans (if_pos hrow'))))

/-- Settles O45: a key write by the task's registration, its value and the keys given before; with the CE held in reset task 0
counts as given. -/
theorem keyWritesFollowPseq : Obligations.KeyWritesFollowPseq := by
  intro s t v hcounts ok
  have hwrite := exec_keyringKeyWrite (task := t) (v := v) hcounts
  refine ⟨fun hok hgiven => ?_, fun hok hgiven => ?_, fun hok => ?_, fun c hhalted hrun hmiss hbad hp hw => ?_⟩
  · rw [hwrite, Krg.keyWrite, if_pos (Krg.accepts_iff.mpr hok), if_neg (Bool.eq_false_iff.mp hgiven)]
  · rw [hwrite, Krg.keyWrite, if_pos (Krg.accepts_iff.mpr hok), if_pos hgiven]
  · rw [hwrite, Krg.keyWrite, if_neg fun h => hok (Krg.accepts_iff.mp h)]
  · obtain ⟨hst, hcount, hpseq, -⟩ := s.krgGood_seals c
    refine ⟨_, exec_keyringSeal_good hcounts hp hw fun _ => ⟨?_, hbad⟩, hst, hcount, hpseq⟩
    rw [if_pos hhalted]
    exact hmiss

/-- Settles O47: an expiry is the Keyring fault of kind 2, whose reset keeps Keyring's counts; the fourth ends in SAFE. -/
theorem keyringEventsAct : Obligations.KeyringEventsAct := by
  refine ⟨fun s t k hlogic hst hlock => ?_, fun s t k hlocked => ?_, fun s hlogic hst hsoft => ?_,
    fun s hcounts hmode hst hfew => ⟨_, exec_expire hcounts, ?_⟩,
    fun s hcounts hmode hst hmany => ⟨_, exec_expire hcounts, ?_⟩, fun s hcounts hstep hclk => ?_⟩
  · refine congrArg _ (if_pos ?_)
    rcases hst with e | e <;> simp [hlogic, e, hlock]
  · refine congrArg _ (if_neg ?_)
    rcases hlocked with e | e <;> simp [e]
  · refine congrArg _ (if_pos ?_)
    simp [hlogic, hst, hsoft]
  · obtain ⟨hkrg, hcause, hlogic, hhpt⟩ := s.krgFault_restarts (kind := 2) (c := s.krgP) (miss := 0) (bad := 0)
      hmode (State.running_of_krgCounts hcounts) hst hfew
    rw [hkrg]
    exact ⟨Krg.atReset_rstCnt _, Krg.atReset_lastKind _, Krg.atReset_st_boot hst, hcause, hlogic, hhpt⟩
  · exact s.krgFault_safe hmode (State.running_of_krgCounts hcounts) hst hmany
  · exact ⟨_, exec_krgClock hcounts hstep hclk, s.krgClockFail_krg, s.krgClockFail_hpt, s.krgClockFail_ch⟩

end Sys2Proof.Stated
end
section
/-! Received Euvos messages (13, 15): the drops in their order, echo requests and the messages of the arbiter. -/

namespace Sys2Proof.Machine

open Sys2Proof

section
variable {s t : State} {m : NetMsg}

/-! ### A frame, whatever row names it -/

/-- Every row of a received message takes it by its bytes. -/
theorem exec_netRecv {c : Instr} (h : c ∈ [.commandMessage m, .echoReq m, .permit m, .revoke m, .failover m]) :
    exec c s = .next (s.netRecv m) := by
  simp only [List.mem_cons, List.not_mem_nil, or_false] at h
  rcases h with h | h | h | h | h
  all_goals
    rw [h]
    rfl

theorem State.netRecv_off (h : s.live = false ∨ s.net.up m.link = false) : s.netRecv m = s := by
  refine if_pos ?_
  rcases h with e | e
  · rw [e]; rfl
  · rw [e]; exact Bool.or_true _

theorem State.netRecv_laneFull (hlive : s.live = true) (hup : s.net.up m.link = true) (hlane : m.laneFull = true) :
    s.netRecv m = s.netDrop m.link 5 := by
  simp [State.netRecv, hlive, hup, hlane]

theorem State.netRecv_insecure (hlive : s.live = true) (hup : s.net.up m.link = true) (hlane : m.laneFull = false)
    (hsec : s.macsecOk m = false) : s.netRecv m = s.netDrop m.link 0 := by
  simp [State.netRecv, hlive, hup, hlane, hsec]

/-- A frame that MACsec takes has used its packet number up. -/
theorem State.netRecv_secure (hlive : s.live = true) (hup : s.net.up m.link = true) (hlane : m.laneFull = false)
    (hsec : s.macsecOk m = true) : s.netRecv m = (s.rxPn m).netTake m := by
  simp [State.netRecv, hlive, hup, hlane, hsec]

/-- R450: MACsec takes no frame without a valid tag, on a link that is not secured, or with a packet number that is used up. -/
theorem State.macsecOk_refuses (h : m.secOk = false ∨ s.net.mka m.link ≠ 2 ∨
    ∃ x, (s.net.rxSc.find? fun x => x.link == m.link && x.sci == m.sci) = some x ∧ m.pn.toNat ≤ x.last) :
    s.macsecOk m = false := by
  unfold State.macsecOk
  rcases h with hsec | hmka | ⟨x, hx, hpn⟩
  · simp [hsec]
  · simp [hmka]
  · rw [hx]
    simp [hpn]

/-- A drop adds one to the counter of its row, up to its last value, and changes nothing else (R639). -/
theorem State.netDrop_ex (s : State) (l : Link) (k : Fin 8) : ∃ d, s.netDrop l k = { s with net := { s.net with drops := d } } ∧
    d = Vector.ofFn fun j =>
      if j.val = linkIx l * 8 + k.val then min (2 ^ 32 - 1) (s.net.drops[j] + 1) else s.net.drops[j] := by
  refine ⟨_, rfl, ?_⟩
  simp only [beq_iff_eq]

/-- A used packet number changes the receive channels alone. -/
theorem State.rxPn_ex (s : State) (m : NetMsg) : ∃ r, s.rxPn m = { s with net := { s.net with rxSc := r } } := ⟨_, rfl⟩

/-! ### The drops of a frame that MACsec has taken (Table 13.6, log 84) -/

theorem State.netTake_other (h : isEuvos m = false) : s.netTake m = s := by simp [State.netTake, h]

theorem State.netTake_ipBad (h : isEuvos m = true) (hip : m.ipBad = true) : s.netTake m = s.netDrop m.link 4 := by
  simp [State.netTake, h, hip]

theorem State.netTake_badHeader (h : isEuvos m = true) (hip : m.ipBad = false) (hhead : m.badHeader = true) :
    s.netTake m = s.netDrop m.link 2 := by simp [State.netTake, h, hip, hhead]

theorem State.netTake_badType (h : isEuvos m = true) (hip : m.ipBad = false) (hhead : m.badHeader = false)
    (htype : m.typeOk = false) : s.netTake m = s.netDrop m.link 3 := by simp [State.netTake, h, hip, hhead, htype]

theorem State.netTake_badLen (h : isEuvos m = true) (hip : m.ipBad = false) (hhead : m.badHeader = false)
    (htype : m.typeOk = true) (hlen : m.badLen = true) : s.netTake m = s.netDrop m.link 2 := by
  simp [State.netTake, h, hip, hhead, htype, hlen]

theorem State.netTake_badAddress (h : isEuvos m = true) (hip : m.ipBad = false) (hhead : m.badHeader = false)
    (htype : m.typeOk = true) (hlen : m.badLen = false) (haddr : s.badAddress m = true) : s.netTake m = s.netDrop m.link 1 := by
  simp [State.netTake, h, hip, hhead, htype, hlen, haddr]

/-! ### A frame that no check turns away -/

/-- The checks that a received message passes before its TYPE decides what it asks for. -/
structure State.Admits (s : State) (m : NetMsg) : Prop where
  live : s.live = true
  up : s.net.up m.link = true
  lane : m.laneFull = false
  sec : s.macsecOk m = true
  euvos : isEuvos m = true
  ip : m.ipBad = false
  head : m.badHeader = false
  len : m.badLen = false
  addr : s.badAddress m = false

theorem State.Admits.netRecv (h : s.Admits m) (htype : m.typeOk = true) : s.netRecv m =
    if m.typ == 1 then (s.heard m).netCommand m
    else if m.typ == 7 then (s.heard m).netEcho m
    else (s.heard m).hingeMsg (getLe m.payload 4 1) m.src m.payload := by
  have haddr : (s.rxPn m).badAddress m = false := h.addr
  rw [State.netRecv_secure h.live h.up h.lane h.sec]
  simp [State.netTake, State.heard, h.euvos, h.ip, h.head, htype, h.len, haddr]

theorem State.Admits.netRecv_echo (h : s.Admits m) (htyp : m.typ = 7) : s.netRecv m = (s.heard m).netEcho m := by
  rw [h.netRecv (by simp [NetMsg.typeOk, htyp]), htyp]
  rfl

theorem State.Admits.netRecv_hinge (h : s.Admits m) (htyp : m.typ = 6) :
    s.netRecv m = (s.heard m).hingeMsg (getLe m.payload 4 1) m.src m.payload := by
  rw [h.netRecv (by simp [NetMsg.typeOk, htyp]), htyp]
  rfl

/-! ### The messages of the arbiter (R497, R498, R505) -/

theorem ofLe_lt (l : List Byte) : ofLe l < 256 ^ l.length := by
  induction l with
  | nil => exact Nat.one_pos
  | cons b r ih =>
    have hb : b.toNat < 256 := b.isLt
    rw [ofLe, List.length_cons, Nat.pow_succ]
    omega

theorem getLe_lt (l : List Byte) (off k : Nat) : getLe l off k < 256 ^ k :=
  (ofLe_lt _).trans_le (Nat.pow_le_pow_right (by omega) (List.length_take_le _ _))

/-- A message of the arbiter: HINGE of a KIND with an EPOCH beyond the last. -/
structure State.Arbiter (s : State) (m : NetMsg) (k : Nat) : Prop where
  typ : m.typ = 6
  hen : s.hinge.hen = true
  euvos : s.hinge.euvos = true
  src : m.src = s.hgf Fld.ARBNODE
  length : m.payload.length = 16
  kind : getLe m.payload 4 1 = k
  epoch : s.hinge.epoch.toNat < getLe m.payload 0 4

/-- The epoch of a HINGE message is taken. -/
def State.epochTaken (s : State) (m : NetMsg) : State :=
  (s.heard m).updHinge fun h => { h with epoch := BitVec.ofNat 32 (getLe m.payload 0 4) }

/-- Of the pair only the epoch changes, and nothing of the Channels. -/
theorem State.epochTaken_ex (s : State) (m : NetMsg) : ∃ e n, s.epochTaken m = { s with hinge := { s.hinge with epoch := e }, net := n } ∧
    e.toNat = getLe m.payload 0 4 :=
  ⟨_, _, rfl, (BitVec.toNat_ofNat ..).trans (Nat.mod_eq_of_lt (getLe_lt m.payload 0 4))⟩

theorem State.Arbiter.netRecv {k : Nat} (h : s.Arbiter m k) (hk : 1 ≤ k ∧ k ≤ 3) (hgoes : s.Admits m) : s.netRecv m =
    if k == 1 then (s.epochTaken m).updHinge fun h => { h with permitted := true }
    else if k == 2 then (s.epochTaken m).updHinge fun h => { h with permitted := false }
    else if s.hinge.st == .standby && s.hinge.permitted then (s.epochTaken m).hingeTake 5 false
    else s.epochTaken m := by
  rw [hgoes.netRecv_hinge h.typ, h.kind]
  refine if_neg ?_
  have hhen : (s.heard m).hinge.hen = true := h.hen
  have heuvos : (s.heard m).hinge.euvos = true := h.euvos
  have hsrc : m.src = (s.heard m).hgf Fld.ARBNODE := h.src
  have hepoch : ¬ getLe m.payload 0 4 ≤ (s.heard m).hinge.epoch.toNat := Nat.not_le.mpr h.epoch
  simp [hhen, heuvos, ← hsrc, h.length, h.kind, hk, hepoch]

theorem State.Arbiter.netRecv_permit (h : s.Arbiter m 1) (hgoes : s.Admits m) :
    s.netRecv m = (s.epochTaken m).updHinge fun h => { h with permitted := true } := h.netRecv (by decide) hgoes

theorem State.Arbiter.netRecv_revoke (h : s.Arbiter m 2) (hgoes : s.Admits m) :
    s.netRecv m = (s.epochTaken m).updHinge fun h => { h with permitted := false } := h.netRecv (by decide) hgoes

/-- R505: a permitted STANDBY takes over. -/
theorem State.Arbiter.netRecv_failover (h : s.Arbiter m 3) (hgoes : s.Admits m) (hst : s.hinge.st = .standby)
    (hperm : s.hinge.permitted = true) : s.netRecv m = (s.epochTaken m).hingeTake 5 false := by
  refine (h.netRecv (by decide) hgoes).trans ((if_neg (by decide)).trans ((if_neg (by decide)).trans (if_pos ?_)))
  rw [hst, hperm]
  rfl

/-- R497: an EPOCH that is not new is dropped and counted. -/
theorem State.Admits.netRecv_oldEpoch (h : s.Admits m) (htyp : m.typ = 6) (hold : getLe m.payload 0 4 ≤ s.hinge.epoch.toNat) :
    s.netRecv m =
      { s.heard m with net := { (s.heard m).net with hingeDrops := (s.heard m).net.hingeDrops + 1 } } := by
  rw [h.netRecv_hinge htyp]
  have hepoch : getLe m.payload 0 4 ≤ (s.heard m).hinge.epoch.toNat := hold
  refine if_pos ?_
  simp [hepoch]

/-! ### A Hinge state is entered (R517, R520) -/

theorem State.sendStatus_hinge (s : State) : s.sendStatus.hinge = s.hinge := by
  unfold State.sendStatus
  split
  · exact State.sendMsg_hinge ..
  · rfl

/-- A Hinge state is entered: of the pair, only the state and REVERT change. -/
theorem State.hingeEnter_hinge (s : State) (dst : HingeState) (cause : Nat) : (s.hingeEnter dst cause).hinge =
    { s.hinge with st := dst, revert := s.hinge.revert && dst == .standby } := by
  unfold State.hingeEnter
  rw [State.sendStatus_hinge, State.postRec_hinge]
  rfl

theorem State.hingeTake_hinge (s : State) (cause : Nat) (swap : Bool) : (s.hingeTake cause swap).hinge =
    { s.hinge with swap := swap, takeCause := cause, cold := cause == 4, st := .taking, revert := false } := by
  unfold State.hingeTake
  rw [State.hingeEnter_hinge]
  simp [State.updHinge]

end

end Sys2Proof.Machine

namespace Sys2Proof.Stated

open Sys2Proof Sys2Proof.Machine

/-- Settles O51: each check in its order, with the drop of its row; a drop changes nothing but its counter. -/
theorem receivedMessagesAct : Obligations.ReceivedMessagesAct := by
  unfold Obligations.ReceivedMessagesAct
  intro dropped
  have direct (s : State) (l : Link) (k : Fin 8) : dropped s (s.netDrop l k) l k.val := by
    obtain ⟨d, hdrop, hd⟩ := s.netDrop_ex l k
    rw [hdrop]
    exact ⟨hd, rfl, rfl, rfl, rfl⟩
  have taken (s : State) (m : NetMsg) (l : Link) (k : Fin 8) : dropped s ((s.rxPn m).netDrop l k) l k.val := by
    obtain ⟨r, hr⟩ := s.rxPn_ex m
    rw [hr]
    obtain ⟨d, hdrop, hd⟩ := State.netDrop_ex { s with net := { s.net with rxSc := r } } l k
    rw [hdrop]
    exact ⟨hd, rfl, rfl, rfl, rfl⟩
  refine ⟨fun s m c hc hlive hup => ?_, fun s m c hc hoff => ?_⟩
  · rw [exec_netRecv hc]
    refine ⟨fun hlane => ⟨_, rfl, ?_⟩, fun hlane hsec => ⟨_, rfl, ?_⟩, State.macsecOk_refuses,
      fun hlane hsec hother => ⟨_, rfl, ?_⟩, fun hlane hsec heuvos => ?_⟩
    · rw [State.netRecv_laneFull hlive hup hlane]
      exact direct s m.link 5
    · rw [State.netRecv_insecure hlive hup hlane hsec]
      exact direct s m.link 0
    · rw [State.netRecv_secure hlive hup hlane hsec, State.netTake_other hother]
      exact ⟨rfl, rfl, rfl, rfl⟩
    rw [State.netRecv_secure hlive hup hlane hsec]
    refine ⟨fun hip => ⟨_, rfl, ?_⟩, fun hip hhead => ⟨_, rfl, ?_⟩, fun hip hhead htype => ⟨_, rfl, ?_⟩,
      fun hip hhead htype hlen => ⟨_, rfl, ?_⟩, fun hip hhead htype hlen haddr => ⟨_, rfl, ?_⟩⟩
    · rw [State.netTake_ipBad heuvos hip]
      exact taken s m m.link 4
    · rw [State.netTake_badHeader heuvos hip hhead]
      exact taken s m m.link 2
    · rw [State.netTake_badType heuvos hip hhead htype]
      exact taken s m m.link 3
    · rw [State.netTake_badLen heuvos hip hhead htype hlen]
      exact taken s m m.link 2
    · rw [State.netTake_badAddress (s := s.rxPn m) heuvos hip hhead htype hlen haddr]
      exact taken s m m.link 1
  · rw [exec_netRecv hc, State.netRecv_off hoff]

/-- Settles O53: an echo goes back as it came; a new epoch of the arbiter is taken with what its KIND asks for, an old one counted. -/
theorem echoAndArbiterMessagesAct : Obligations.EchoAndArbiterMessagesAct := by
  unfold Obligations.EchoAndArbiterMessagesAct
  intro goes arbiter
  have admits {s : State} {m : NetMsg} (h : goes s m) : s.Admits m := by
    obtain ⟨hlive, hup, hlane, hsec, heuvos, hip, hhead, hlen, haddr⟩ := h
    exact ⟨hlive, hup, hlane, hsec, heuvos, hip, hhead, hlen, haddr⟩
  have arbitrates {s : State} {m : NetMsg} {k : Nat} (h : arbiter s m k) : s.Arbiter m k := by
    obtain ⟨htyp, hhen, heuvos, hsrc, hlength, hkind, hepoch⟩ := h
    exact ⟨htyp, hhen, heuvos, hsrc, hlength, hkind, hepoch⟩
  refine ⟨fun s m hgoes htyp => ?_, fun s m hgoes harb => ⟨_, exec_netRecv (m := m) (by simp), ?_⟩,
    fun s m hgoes harb => ⟨_, exec_netRecv (m := m) (by simp), ?_⟩,
    fun s m hgoes harb hst hperm => ⟨_, exec_netRecv (m := m) (by simp), ?_⟩,
    fun s m hgoes htyp hold => ⟨_, exec_netRecv (m := m) (by simp), exec_netRecv (m := m) (by simp),
      exec_netRecv (m := m) (by simp), ?_⟩⟩
  · rw [exec_netRecv (m := m) (by simp), (admits hgoes).netRecv_echo htyp]
    rfl
  · rw [(arbitrates harb).netRecv_permit (admits hgoes)]
    obtain ⟨e, n, htaken, he⟩ := s.epochTaken_ex m
    rw [htaken]
    exact ⟨rfl, he, rfl, rfl⟩
  · rw [(arbitrates harb).netRecv_revoke (admits hgoes)]
    obtain ⟨e, n, htaken, he⟩ := s.epochTaken_ex m
    rw [htaken]
    exact ⟨rfl, he, rfl, rfl⟩
  · rw [(arbitrates harb).netRecv_failover (admits hgoes) hst hperm, State.hingeTake_hinge]
    exact ⟨rfl, rfl, rfl⟩
  · rw [(admits hgoes).netRecv_oldEpoch htyp hold]
    exact ⟨rfl, rfl⟩

end Sys2Proof.Stated
end
section
/-! Link events (13): neighbour discovery, the state of a link, MKA and the transmit opportunities. -/

namespace Sys2Proof.Machine

open Sys2Proof

section
variable {s t u : State} {l : Link}

/-! ### Neighbour discovery (R458) -/

/-- A node known by an IPv6 address on a link takes the MAC address advertised. -/
def Node.advertised (e : Node) (l : Link) (ip : BitVec 128) (mac : BitVec 48) : Node :=
  match e.encap with
  | .udp a _ => if a == ip && e.link == l then { e with mac := mac } else e
  | .raw => e

theorem exec_neighbourAdvertisement {ip : BitVec 128} {mac : BitVec 48} (hlive : s.live = true) (hcar : s.net.carries l = true) :
    exec (.neighbourAdvertisement l ip mac) s =
      .next (s.updNet fun n => { n with nodes := n.nodes.map fun e => e.advertised l ip mac }) := by
  refine congrArg _ (if_pos ?_)
  rw [hlive, hcar]
  rfl

/-- An advertisement leaves a node its address, its link and its encapsulation. -/
theorem Node.advertised_keeps (e : Node) (l : Link) (ip : BitVec 128) (mac : BitVec 48) :
    (e.advertised l ip mac).node = e.node ∧ (e.advertised l ip mac).link = e.link ∧ (e.advertised l ip mac).encap = e.encap := by
  unfold Node.advertised
  split
  · split
    · exact ⟨rfl, rfl, rfl⟩
    · exact ⟨rfl, rfl, rfl⟩
  · exact ⟨rfl, rfl, rfl⟩

theorem Node.advertised_mac {e : Node} {ip : BitVec 128} {mac : BitVec 48} {p : Half} (hlink : e.link = l)
    (hip : e.encap = .udp ip p) : (e.advertised l ip mac).mac = mac := by
  simp [Node.advertised, hip, hlink]

/-! ### A link goes up or down (R451, R456) -/

/-- No link is secured, or loses its SAK, and nothing but the transmit side and the records changes. -/
def SecuredKept (s t : State) : Prop := ∃ n i, t = { s with net := n, ice := i } ∧ n.mka = s.net.mka

theorem SecuredKept.refl (s : State) : SecuredKept s s := ⟨s.net, s.ice, rfl, rfl⟩

theorem SecuredKept.trans (h : SecuredKept s t) (k : SecuredKept t u) : SecuredKept s u := by
  obtain ⟨n, i, rfl, hn⟩ := h
  obtain ⟨m, j, rfl, hm⟩ := k
  exact ⟨m, j, rfl, hm.trans hn⟩

theorem Net.mka_congr {n m : Net} (h1 : n.mka1 = m.mka1) (hS : n.mkaS = m.mkaS) : n.mka = m.mka := by
  funext l
  cases l
  · exact h1
  · exact hS

theorem State.updNet_securedKept (s : State) {f : Net → Net} (h1 : (f s.net).mka1 = s.net.mka1) (hS : (f s.net).mkaS = s.net.mkaS) :
    SecuredKept s (s.updNet f) :=
  ⟨f s.net, s.ice, rfl, Net.mka_congr h1 hS⟩

theorem State.iceRecord_securedKept (s : State) (c o v : Nat) (p : List Byte) : SecuredKept s (s.iceRecord c o v p) := by
  obtain ⟨i, hi⟩ := s.iceRecord_ex c o v p
  exact ⟨s.net, i, hi, rfl⟩

theorem State.sendNd_securedKept (s : State) (l : Link) (solicit : Bool) (target dst : BitVec 128) :
    SecuredKept s (s.sendNd l solicit target dst) :=
  ⟨_, s.ice, rfl, Net.mka_congr rfl rfl⟩

theorem State.resolveNodes_securedKept (s : State) (l o : Link) : SecuredKept s (s.resolveNodes l o) :=
  overL_rel SecuredKept.refl SecuredKept.trans _ _ (fun e u => by
    split
    · exact u.sendNd_securedKept ..
    · exact SecuredKept.refl u) s

/-- What a lost link carried moves to a link that stays secured or unsecured as it was. -/
theorem State.linkMove_securedKept (s : State) (l : Link) : SecuredKept s (s.linkMove l) := by
  unfold State.linkMove
  extract_lets o mv s1
  have hmoved : SecuredKept s s1 := by
    unfold s1
    split
    · exact ((s.resolveNodes_securedKept ..).trans (State.updNet_securedKept _ rfl rfl)).trans (State.iceRecord_securedKept ..)
    · exact SecuredKept.refl s
  split
  · exact hmoved.trans (State.updNet_securedKept _ rfl rfl)
  · exact hmoved

/-- The link state as a link comes up or goes down: without a SAK (R450). -/
def Net.turn (n : Net) (l : Link) (up : Bool) : Net :=
  (match l with
    | .t1 => { n with up1 := up }
    | .t1s => { n with upS := up }).setMka l 0

theorem Net.turn_up (n : Net) (l : Link) (up : Bool) : (n.turn l up).up l = up := by cases l <;> rfl

theorem Net.turn_mka (n : Net) (l : Link) (up : Bool) : (n.turn l up).mka l = 0 := by cases l <;> rfl

/-- A change of a link is recorded; one that goes down hands on what it carried. -/
theorem State.linkTo_turns {up : Bool} (hlive : s.live = true) (hup : s.net.up l = !up) (hheld : up = true → s.linkHeld l = false) :
    s.linkTo l up =
      let s2 := (s.updNet fun n => n.turn l up).iceRecord 0x0724 rDevice 1 (le 1 (linkIx l) ++ le 1 (bit up))
      if up then s2 else s2.linkMove l := by
  unfold State.linkTo
  refine if_neg ?_
  cases up
  · simp [hlive, hup]
  · simp [hlive, hup, hheld rfl]

theorem State.linkTo_up (hlive : s.live = true) (hup : s.net.up l = false) (hheld : s.linkHeld l = false) :
    ∃ i, s.linkTo l true = { s with net := s.net.turn l true, ice := i } := by
  rw [State.linkTo_turns hlive hup fun _ => hheld]
  exact State.iceRecord_ex (s.updNet fun n => n.turn l true) ..

/-- A link that goes down is without a SAK. -/
theorem State.linkTo_down_mka (hlive : s.live = true) (hup : s.net.up l = true) : (s.linkTo l false).net.mka l = 0 := by
  rw [State.linkTo_turns hlive hup (by simp)]
  obtain ⟨n, i, hn, hkept⟩ := (State.iceRecord_securedKept (s.updNet fun n => n.turn l false) 0x0724 rDevice 1
    (le 1 (linkIx l) ++ le 1 (bit false))).trans (State.linkMove_securedKept _ l)
  refine (congrArg (fun t : State => t.net.mka l) hn).trans ?_
  exact (congrFun hkept l).trans (s.net.turn_mka l false)

/-! ### MKA (R450, Table 13.2) -/

/-- A new SAK: the link carries traffic, packet numbers start again, and no receive channel is known. -/
def Net.newSak (n : Net) (l : Link) : Net :=
  (match l with
    | .t1 => { n with sak1 := n.sak1 + 1, pn1 := 0, rekey1 := false, rxSc := n.rxSc.filter (·.link != l) }
    | .t1s => { n with sakS := n.sakS + 1, pnS := 0, rekeyS := false, rxSc := n.rxSc.filter (·.link != l) }).setMka l 2

theorem exec_mkaFrame_newSak (hlive : s.live = true) (hup : s.net.up l = true) :
    exec (.mkaFrame l true) s = .next (s.updNet fun n => n.newSak l) := by
  refine congrArg _ ((if_neg ?_).trans (if_pos rfl))
  simp [hlive, hup]

theorem exec_mkaFrame_agreement (hlive : s.live = true) (hup : s.net.up l = true) :
    exec (.mkaFrame l false) s = .next (s.updNet fun n => n.setMka l (max 1 (n.mka l))) := by
  refine congrArg _ ((if_neg ?_).trans (if_neg (by decide)))
  simp [hlive, hup]

theorem Net.newSak_carries {n : Net} (hup : n.up l = true) : (n.newSak l).carries l = true := by
  cases l
  · exact Bool.and_eq_true_iff.mpr ⟨hup, rfl⟩
  · exact Bool.and_eq_true_iff.mpr ⟨hup, rfl⟩

theorem Net.newSak_rxSc (n : Net) (l : Link) : (n.newSak l).rxSc = n.rxSc.filter (·.link != l) := by cases l <;> rfl

theorem Net.setMka_mka (n : Net) (l : Link) (k : Nat) : (n.setMka l k).mka l = k := by cases l <;> rfl

theorem Net.setMka_nodes (n : Net) (l : Link) (k : Nat) : (n.setMka l k).nodes = n.nodes := by cases l <;> rfl

/-! ### What is handed to the MAC stays handed over (R467) -/

/-- Nothing is handed to a MAC: the count of messages and what went out are as before. -/
structure SentKept (s t : State) : Prop where
  mseq : t.net.mseq = s.net.mseq
  sent : t.net.sent = s.net.sent

theorem SentKept.refl (s : State) : SentKept s s := ⟨rfl, rfl⟩

theorem SentKept.trans (h : SentKept s t) (k : SentKept t u) : SentKept s u := ⟨k.mseq.trans h.mseq, k.sent.trans h.sent⟩

theorem SentKept.of_net (h : t.net = s.net) : SentKept s t := ⟨by rw [h], by rw [h]⟩

theorem Net.setLane_sent (n : Net) (lane : Cls) (x : List TxMsg) : (n.setLane lane x).sent = n.sent := by cases lane <;> rfl

theorem Net.setLane_mseq (n : Net) (lane : Cls) (x : List TxMsg) : (n.setLane lane x).mseq = n.mseq := by cases lane <;> rfl

theorem State.sendMsg_sentKept (s : State) (lane : Cls) (typ dst queue cls : Nat) (pl : List Byte)
    (fr : Option (Fin 32 × Option Nat)) (e : Bool) (m : Option Nat) (k : Option (Nat × Option Word)) :
    SentKept s (s.sendMsg lane typ dst queue cls pl fr e m k) :=
  overL_rel SentKept.refl SentKept.trans _ _ (fun _ u => ⟨u.net.setLane_mseq lane _, u.net.setLane_sent lane _⟩) s

theorem State.eventPut_sentKept (s : State) (q : Fin 32) (e : Event) : SentKept s (s.eventPut q e) := by
  unfold State.eventPut
  extract_lets k bytes s1
  have hwritten : SentKept s s1 := .of_net rfl
  split
  · exact hwritten.trans (s1.sendMsg_sentKept ..)
  · exact hwritten.trans (.of_net rfl)
  · exact hwritten

theorem State.eventTo_sentKept (s : State) (e : Event) (q : Fin 32) : SentKept s (s.eventTo e q) := by
  unfold State.eventTo
  extract_lets k
  split
  · exact s.eventPut_sentKept q e
  · split
    · exact .of_net rfl
    · split
      · exact .of_net rfl
      · exact .of_net rfl

theorem State.postOnly_sentKept (s : State) (c o : Nat) (p : List Byte) : SentKept s (s.postOnly c o p) := by
  unfold State.postOnly
  extract_lets e
  split
  · exact .of_net rfl
  · exact overL_rel SentKept.refl SentKept.trans _ _ (fun q u => u.eventTo_sentKept e q) s

theorem State.postRec_sentKept (s : State) (c o : Nat) (p : List Byte) : SentKept s (s.postRec c o p) :=
  (SentKept.of_net (State.iceRecord_net ..)).trans (State.postOnly_sentKept ..)

theorem State.drainOne_sentKept (s : State) (q : Fin 32) : SentKept s (s.drainOne q) := by
  unfold State.drainOne
  extract_lets k pick
  split
  · exact .refl s
  · split
    · exact (s.eventPut_sentKept q _).trans (.of_net rfl)
    · clear_value pick
      cases pick with
      | none => exact .refl s
      | some e => exact (s.eventPut_sentKept q e).trans (.of_net rfl)

theorem State.freeTo_sentKept (s : State) (q : Fin 32) (i : Nat) : SentKept s (s.freeTo q i) := by
  unfold State.freeTo
  extract_lets k free0 freed
  exact (SentKept.of_net (s.updQ_net ..)).trans
    (overL_rel SentKept.refl SentKept.trans _ _ (fun _ u => u.drainOne_sentKept q) _)

theorem State.txFree_sentKept (s : State) (f : Option (Fin 32 × Option Nat)) : SentKept s (s.txFree f) := by
  unfold State.txFree
  split
  · exact .refl s
  · next q id =>
    extract_lets s1 k
    have h1 : SentKept s s1 := .of_net rfl
    split
    · exact h1
    · exact h1.trans (s1.freeTo_sentKept ..)

theorem State.latMiss_sentKept (s : State) (q : Fin 32) (tag : Word) (since lat : Nat) :
    SentKept s (s.latMiss q tag since lat) := by
  unfold State.latMiss
  split
  · exact (s.postRec_sentKept ..).trans (.of_net rfl)
  · exact .refl s

/-- What a message frees once it is handed over sends nothing by itself. -/
theorem State.handed_sentKept (s pre : State) (m : TxMsg) (bytes : List Byte) : SentKept s (s.handed pre m bytes) := by
  unfold State.handed
  extract_lets s1 s2
  have h1 : SentKept s s1 := by
    unfold s1
    split
    · exact .of_net rfl
    · exact .refl s
  have h2 : SentKept s s2 := h1.trans (s1.txFree_sentKept _)
  split
  · exact h2.trans (s2.latMiss_sentKept ..)
  · exact h2

/-! ### The bytes of a message on its way out (R464) -/

/-- A field written over the bytes that stood there. -/
theorem getLe_putBytes_same {b : List Byte} {off : Nat} (k n : Nat) (h : off ≤ b.length) :
    getLe (putBytes b off (le k n)) off k = n % 256 ^ k := by
  have hdrop : (putBytes b off (le k n)).drop off = le k n ++ b.drop (off + (le k n).length) := by
    rw [putBytes, List.append_assoc, List.drop_left' (by simpa using h)]
  rw [getLe, hdrop]
  exact getLe_le_append k n _

/-- A field ahead of the bytes written. -/
theorem getLe_putBytes_before {b x : List Byte} {a k off : Nat} (hoff : a + k ≤ off) (hlen : a + k ≤ b.length) :
    getLe (putBytes b off x) a k = getLe b a k := by
  have htake : (putBytes b off x).take (a + k) = b.take (a + k) := by
    rw [putBytes, List.append_assoc, List.take_append_of_le_length (by simp; omega), List.take_take, Nat.min_eq_left hoff]
  rw [getLe, getLe, List.take_drop, List.take_drop, htake]

theorem length_putBytes {b x : List Byte} {off : Nat} (h : off + x.length ≤ b.length) : (putBytes b off x).length = b.length := by
  simp [putBytes]
  omega

/-- The bytes that are handed over: MSEQ where the message has no number of its own, and LAT where it carries one. -/
def State.sentBytes (s : State) (m : TxMsg) : List Byte :=
  let b1 := if m.keepSeq then m.bytes else putBytes m.bytes 8 (le 4 s.net.mseq.toNat)
  match m.lat with
  | some (since, _) => putBytes b1 44 (le 2 (s.latOf since))
  | none => b1

theorem State.sentBytes_mseq {m : TxMsg} (hkeep : m.keepSeq = false) (hlen : 12 ≤ m.bytes.length) :
    getLe (s.sentBytes m) 8 4 = s.net.mseq.toNat := by
  have hput : getLe (putBytes m.bytes 8 (le 4 s.net.mseq.toNat)) 8 4 = s.net.mseq.toNat := by
    rw [getLe_putBytes_same 4 _ (by omega)]
    exact Nat.mod_eq_of_lt s.net.mseq.isLt
  have hlen' : (putBytes m.bytes 8 (le 4 s.net.mseq.toNat)).length = m.bytes.length := length_putBytes (by simpa using hlen)
  have hfront {x : List Byte} : getLe (putBytes (putBytes m.bytes 8 (le 4 s.net.mseq.toNat)) 44 x) 8 4 = s.net.mseq.toNat :=
    (getLe_putBytes_before (by omega) (by omega)).trans hput
  unfold State.sentBytes
  rw [hkeep, if_neg Bool.false_ne_true]
  extract_lets b1
  split
  · exact hfront
  · exact hput

/-- The first message in lane order goes out under the next MSEQ (R467). -/
theorem State.handOver_sends {m : TxMsg} (hfirst : s.net.first l = some m) : (s.handOver l).net.mseq = s.net.mseq + 1 ∧
    (s.handOver l).net.sent = s.net.sent ++ [{ m with bytes := s.sentBytes m, hdr := some (s.txHdr m) }] := by
  unfold State.handOver
  rw [hfirst]
  obtain ⟨hmseq, hsent⟩ := State.handed_sentKept _ _ _ _
  exact ⟨hmseq, hsent⟩

end

end Sys2Proof.Machine

namespace Sys2Proof.Stated

open Sys2Proof Sys2Proof.Machine

/-- Settles O54: each event of a link by the operation that it asks for. -/
theorem linkEventsAct : Obligations.LinkEventsAct := by
  refine ⟨fun s l src mac hlive hcar => ?_, fun s l ip mac hlive hcar => ⟨_, exec_neighbourAdvertisement hlive hcar, ?_, ?_⟩,
    fun s l hlive hup hheld => ⟨_, rfl, ?_⟩, fun s l hlive hup => ⟨_, rfl, ?_⟩,
    fun s l hlive hup => ⟨⟨_, exec_mkaFrame_newSak hlive hup, Net.newSak_carries hup, ?_⟩,
      ⟨_, exec_mkaFrame_agreement hlive hup, s.net.setMka_mka l _, s.net.setMka_nodes l _⟩⟩,
    fun s m hlive hcar hfirst => ⟨s.handOver .t1s, ?_, ?_⟩, fun s hfirst => ?_⟩
  · refine congrArg _ (if_pos ?_)
    simp [hlive, hcar]
  · simp only [State.updNet, List.map_map]
    exact List.map_congr_left fun e _ => (e.advertised_keeps l ip mac).1
  · intro e he p hlink hencap
    simp only [State.updNet, List.mem_map] at he
    obtain ⟨x, -, rfl⟩ := he
    obtain ⟨-, hxlink, hxencap⟩ := x.advertised_keeps l ip mac
    exact Node.advertised_mac (hxlink.symm.trans hlink) (hxencap.symm.trans hencap)
  · obtain ⟨i, hi⟩ := State.linkTo_up hlive hup hheld
    rw [hi]
    exact ⟨s.net.turn_up l true, s.net.turn_mka l true, rfl, rfl⟩
  · have hmka := State.linkTo_down_mka hlive hup
    obtain ⟨n, i, hdown, hn, -⟩ := State.linkTo_down l hlive
    refine ⟨?_, hmka, ?_, ?_⟩
    · rw [hdown]
      exact hn
    · rw [hdown]
    · rw [hdown]
  · intro c hc
    rw [State.updNet, Net.newSak_rxSc, List.mem_filter] at hc
    simpa using hc.2
  · refine congrArg _ (if_pos ?_)
    rw [hlive, hcar]
    rfl
  · obtain ⟨hmseq, hsent⟩ := State.handOver_sends hfirst
    exact ⟨hmseq, _, hsent, State.sentBytes_mseq⟩
  · have hnone : s.handOver .t1s = s := by rw [State.handOver, hfirst]
    show Host.Outcome.next (if s.live && s.net.carries .t1s then s.handOver .t1s else s) = .next s
    rw [hnone, ite_self]

end Sys2Proof.Stated
end
section
/-! Two-wire errors and Host Notify (14). -/

namespace Sys2Proof.Machine

open Sys2Proof

section
variable {s : State} {e : NotifyEnd}

/-! ### When TW1 sends (R487, R488) -/

theorem exec_hostNotify (hon : s.notifyOn = true) (hloss : s.tw.losses = 0) (hdue : s.tw.notify = true) :
    exec (.hostNotify e) s = .next (s.notifySend e) := by
  refine congrArg _ (if_pos ?_)
  simp [hon, hloss, hdue]

theorem exec_hostNotifyRetry (hon : s.notifyOn = true) (hloss : s.tw.losses ≠ 0) (hdue : s.tw.notify = true) :
    exec (.hostNotifyRetry e) s = .next (s.notifySend e) := by
  refine congrArg _ (if_pos ?_)
  simp [hon, hloss, hdue]

/-- A bus error is counted, ahead of what the loss does. -/
def State.busErrorNoted (s : State) : State := s.updCnt .tw1 fun c => { c with busError := inc16 c.busError }

theorem exec_twBusError (hon : s.notifyOn = true) (hdue : s.tw.notify = true) :
    exec (.twBusError .tw1) s = .next s.busErrorNoted.notifyLoss := by
  refine congrArg _ (if_pos ?_)
  rw [hon, hdue]
  rfl

/-! ### A loss (R488, R491) -/

theorem State.notifyLoss_retry (h : s.tw.losses < 7) :
    s.notifyLoss = s.updTw fun t => { t with notify := true, losses := t.losses + 1 } := if_neg (by omega)

/-- The eighth loss in a row ends the case. -/
theorem State.notifyLoss_last (h : s.tw.losses = 7) : s.notifyLoss =
    (s.updCnt .tw1 fun c => { c with hnFail := inc16 c.hnFail }).updTw fun t =>
      { t with notify := false, losses := 0, lastNotify := some s.fr.count } := if_pos (by omega)

/-- A lost arbitration is counted with its place, ahead of what the loss does. -/
def State.arbNoted (s : State) (k : Nat) (i : Fin 8) : State :=
  s.updCnt .tw1 fun c => { c with arbLost := inc16 c.arbLost, lastArb := BitVec.ofNat 16 (min 7 k * 256 + i.val) }

theorem State.notifySend_arbLost (s : State) (k : Nat) (i : Fin 8) : s.notifySend (.arbLost k i) = (s.arbNoted k i).notifyLoss := rfl

theorem State.arbNoted_losses (s : State) (k : Nat) (i : Fin 8) : (s.arbNoted k i).tw.losses = s.tw.losses := rfl

end

end Sys2Proof.Machine

namespace Sys2Proof.Stated

open Sys2Proof Sys2Proof.Machine

/-- Settles O56: each error by the counter that its row moves, and an attempt by how it ended and how many were lost before it. -/
theorem twoWireErrorsAndNotifyAct : Obligations.TwoWireErrorsAndNotifyAct := by
  refine ⟨fun s b hlive haddr => congrArg _ (if_pos ?_), fun s hon hdue hfew => ⟨_, exec_twBusError hon hdue, ?_⟩,
    fun s b hlive haddr hsmbus => congrArg _ ((if_neg ?_).trans (if_neg ?_)), fun s hon hdue => ⟨fun hnone => ?_, fun hnone => ?_,
      fun k i hnone => ⟨_, exec_hostNotify hon hnone hdue, ?_⟩, fun hsome => ?_, fun k i hseven => ?_⟩⟩
  · rw [hlive, haddr]
    rfl
  · rw [State.notifyLoss_retry (s := s.busErrorNoted) hfew]
    exact ⟨rfl, rfl, rfl⟩
  · obtain ⟨a, ha⟩ := Option.isSome_iff_exists.mp haddr
    simp [hlive, ha, hsmbus]
  · simp
  · exact ⟨_, exec_hostNotify hon hnone hdue, rfl, rfl, rfl⟩
  · exact ⟨_, exec_hostNotify hon hnone hdue, rfl, rfl⟩
  · have hfew : (s.arbNoted k i).tw.losses < 7 := by rw [State.arbNoted_losses, hnone]; decide
    rw [State.notifySend_arbLost, State.notifyLoss_retry hfew]
    exact ⟨congrArg (· + 1) hnone, rfl, rfl⟩
  · exact ⟨_, exec_hostNotifyRetry hon hsome hdue, rfl, rfl⟩
  · have hlast : (s.arbNoted k i).tw.losses = 7 := hseven
    refine ⟨_, exec_hostNotifyRetry hon (by omega) hdue, ?_⟩
    rw [State.notifySend_arbLost, State.notifyLoss_last hlast]
    exact ⟨rfl, rfl, rfl⟩

end Sys2Proof.Stated
end
section
/-! Permission, partner detection and takeover of a Hinge pair (15). -/

namespace Sys2Proof.Machine

open Sys2Proof

section
variable {s t u : State}

/-! ### What a state that is entered leaves alone -/

theorem State.sendStatus_ch (s : State) : s.sendStatus.ch = s.ch := by
  unfold State.sendStatus
  split
  · exact State.sendMsg_ch ..
  · rfl

theorem State.hingeEnter_ch (s : State) (dst : HingeState) (cause : Nat) : (s.hingeEnter dst cause).ch = s.ch := by
  unfold State.hingeEnter
  rw [State.sendStatus_ch, State.postRec_ch]
  rfl

theorem State.hingeTake_ch (s : State) (cause : Nat) (swap : Bool) : (s.hingeTake cause swap).ch = s.ch :=
  State.hingeEnter_ch ..

theorem State.postSwap_hinge (s : State) (result : Nat) : (s.postSwap result).hinge = s.hinge := State.postRec_hinge ..

/-- Commands that complete leave the pair as it is. -/
theorem State.completeOuts_hinge {p : Out → Bool} {f : Out → State → State} (hf : ∀ o u, (f o u).hinge = u.hinge) (s : State) :
    (s.completeOuts p f).hinge = s.hinge := by
  refine overL_rel (R := fun s t => t.hinge = s.hinge) (fun _ => rfl) (fun h k => k.trans h) _ _ (fun o u => ?_) s
  split
  · exact hf o _
  · rfl

/-! ### Permission and pulses (R497, R508, R512) -/

/-- HINGE_GNT as the pin shows it; under PIN it is the permission. -/
def Hinge.granted (h : Hinge) (level : Bool) : Hinge :=
  { h with gntLevel := level, permitted := if h.euvos then h.permitted else level }

/-- While the logic die runs, a level of HINGE_GNT sets the permission, and its loss ends a reset hold under PIN. -/
theorem exec_hingeGnt {level : Bool} (hdown : s.pw.mode ≠ .shutdown) (hoff : s.pw.mode ≠ .off) (hlogic : s.pw.logic = .running) :
    ∃ b, exec (.hingeGnt level) s = .next { s with hinge := { s.hinge.granted level with resetHold := b } } := by
  have hon : ¬ (s.pw.mode == .shutdown || s.pw.mode == .off) = true := by simp [hdown, hoff]
  show ∃ b, execHingeGnt level s = _
  unfold execHingeGnt
  rw [if_neg hon]
  extract_lets changed s1 s2
  have hrecord : ¬ (changed && s.pw.logic != .running && s.hinge.hen) = true := by simp [hlogic]
  rw [if_neg hrecord]
  unfold s2
  split
  · exact ⟨false, rfl⟩
  · exact ⟨s.hinge.resetHold, rfl⟩

/-- A partner pulse, or the partner in reset hold, is noted; a reset hold of the own chip ends. -/
def Hinge.pulsed (h : Hinge) (hold : Bool) : Hinge :=
  { h with
    pulseNow := h.pulseNow || !hold, holdNow := h.holdNow || hold, pulseEver := true, resetHold := false
    partnerDrove := h.partnerDrove || !hold }

theorem exec_partnerPulse {hold : Bool} (hhen : s.hinge.hen = true) (hst : s.hinge.st ≠ .handing) :
    exec (.partnerPulse hold) s = .next { s with hinge := s.hinge.pulsed hold } := by
  refine congrArg _ ((if_neg (by simp [hhen])).trans (if_neg ?_))
  simp [hst]

/-! ### The link (R500, Table 15.5) -/

/-- A link lost is noted and recorded. -/
def State.linkLostNoted (s : State) : State :=
  (s.updHinge fun h => { h with linkUp := false, partnerLost := h.partnerLost || h.st == .active }).postRec 0x0804 rDevice
    (le 1 0 ++ le 1 (bit (s.hinge.noPulseRun == 0)))

theorem exec_hingeLinkLost (hlive : s.live = true) (hhen : s.hinge.hen = true) (hup : s.hinge.linkUp = true)
    (hmiss : 25 ≤ s.hinge.missRun) : exec .hingeLinkLost s = .next
      (if s.hinge.st == .standby && s.hinge.noPulseRun == 0 then s.linkLostNoted.hingeEnter .out 8 else s.linkLostNoted) := by
  refine congrArg _ (if_pos ?_)
  simp [hlive, hhen, hup, hmiss]

theorem State.linkLostNoted_hinge (s : State) : s.linkLostNoted.hinge =
    { s.hinge with linkUp := false, partnerLost := s.hinge.partnerLost || s.hinge.st == .active } := State.postRec_hinge ..

/-! ### Takeover and regain (R505, Table 15.5) -/

theorem exec_partnerAbsent (hlive : s.live = true) (hst : s.hinge.st = .standby) (hperm : s.hinge.permitted = true)
    (hdrove : s.hinge.partnerDrove = true) (hmiss : 2 ≤ s.hinge.missRun) (hpulse : 2 ≤ s.hinge.noPulseRun)
    (hnow : s.hinge.pulseNow = false) (hhold : s.hinge.holdNow = false) (hbeat : s.hinge.gotBeat = false)
    (hmirror : s.hinge.mirror.complete = true) : exec .partnerAbsent s = .next (s.hingeTake 2 false) := by
  refine congrArg _ (if_pos ?_)
  simp [hlive, hst, hperm, hdrove, hmiss, hpulse, hnow, hhold, hbeat, hmirror]

theorem exec_coldStartTake {f : Nat} (hlive : s.live = true) (hst : s.hinge.st = .standby) (hperm : s.hinge.permitted = true)
    (hstep : s.hinge.step17 = some f) (hdue : f + (if s.primary then 0 else 250) ≤ s.fr.count) (hpulse : s.hinge.pulseEver = false) :
    exec .coldStartTake s = .next (s.hingeTake 4 false) := by
  show execColdStartTake s = _
  unfold execColdStartTake
  extract_lets h due
  refine congrArg _ (if_pos ?_)
  have hdue' : due = true := by simp [due, h, hstep, hdue]
  simp [h, hlive, hst, hperm, hdue', hpulse]

/-- The swap of a HANDING chip is aborted (Table 15.5). -/
def Hinge.regained (h : Hinge) : Hinge :=
  { h with swap := false, releaseNext := false, outRecs := [], nAborts := min 65535 (h.nAborts + 1) }

/-- A HANDING chip whose partner is gone is ACTIVE again; a HANDOVER that waited completes. -/
theorem exec_handingRegain (hlive : s.live = true) (hst : s.hinge.st = .handing) (hdriving : s.hinge.driving = true)
    (hmiss : 2 ≤ s.hinge.missRun) (hbeat : s.hinge.gotBeat = false) (hrun : 1 ≤ s.hinge.noPulseRun)
    (hnow : s.hinge.pulseNow = false) (hhold : s.hinge.holdNow = false) : exec .handingRegain s = .next (
      (({ s with hinge := s.hinge.regained } : State).hingeEnter .active 10).postSwap 2 |>.completeOuts
        (fun o => o.wait == .handover) fun o u => u.finish o.cmd 0x12 (some u.fr.count)) := by
  refine congrArg _ (if_pos ?_)
  simp [hlive, hst, hdriving, hmiss, hbeat, hrun, hnow, hhold]

/-! ### The converter after a handover (R510) -/

theorem exec_converterHandoverEnd {f : Nat} (hlive : s.live = true) (hdrives : s.drives = false) (hend : s.hinge.handEnd = some f)
    (hdue : s.hinge.partnerFlags.getLsbD 7 = true ∨ f ≤ s.fr.count) : exec .converterHandoverEnd s =
      .next { s with hinge := { s.hinge with handEnd := none }, cv := { s.cv with dorm := some s.fr.count, shed := none } } := by
  show execConverterHandoverEnd s = _
  unfold execConverterHandoverEnd
  rw [hend]
  refine congrArg _ (if_pos ?_)
  rcases hdue with h | h
  · rw [hlive, hdrives, h]
    rfl
  · simp [hlive, hdrives, h]

end

end Sys2Proof.Machine

namespace Sys2Proof.Stated

open Sys2Proof Sys2Proof.Machine

/-- Settles O57: each event of the pair at its condition, and what is entered with it. -/
theorem hingeEventsMoveThePair : Obligations.HingeEventsMoveThePair := by
  refine ⟨fun s l hdown hoff hlogic => ?_, fun s b hhen hst => ⟨_, exec_partnerPulse hhen hst, ?_⟩, fun s b hhen => ?_,
    fun s hlive hhen hup hmiss => ⟨_, exec_hingeLinkLost hlive hhen hup hmiss, ?_⟩,
    fun s hlive hst hperm hdrove hmiss hpulse hnow hhold hbeat hmirror =>
      ⟨_, exec_partnerAbsent hlive hst hperm hdrove hmiss hpulse hnow hhold hbeat hmirror, ?_⟩,
    fun s f hlive hst hperm hstep hdue hpulse => ⟨_, exec_coldStartTake hlive hst hperm hstep hdue hpulse, ?_⟩,
    fun s hlive hst hdriving hmiss hbeat hrun hnow hhold =>
      ⟨_, exec_handingRegain hlive hst hdriving hmiss hbeat hrun hnow hhold, ?_⟩,
    fun s f hlive hdrives hend hdue => exec_converterHandoverEnd hlive hdrives hend hdue⟩
  · obtain ⟨b, hb⟩ := exec_hingeGnt (level := l) hdown hoff hlogic
    exact ⟨_, hb, rfl, rfl, rfl, rfl⟩
  · refine ⟨rfl, rfl, rfl, fun hb => ?_, fun hb => ?_, rfl⟩
    · simp [Hinge.pulsed, hb]
    · simp [Hinge.pulsed, hb]
  · exact congrArg _ (if_pos (by simp [hhen]))
  · split
    · next hout =>
      have hst := beq_iff_eq.mp (Bool.and_eq_true_iff.mp hout).1
      rw [State.hingeEnter_hinge, State.linkLostNoted_hinge]
      exact ⟨rfl, fun _ _ => rfl, fun h => absurd hst h⟩
    · next hstays =>
      rw [State.linkLostNoted_hinge]
      exact ⟨rfl, fun hst hpulse => absurd (by simp [hst, hpulse]) hstays, fun _ => rfl⟩
  · rw [State.hingeTake_hinge, State.hingeTake_ch]
    exact ⟨rfl, rfl, rfl⟩
  · rw [State.hingeTake_hinge]
    exact ⟨rfl, rfl, rfl⟩
  · rw [State.completeOuts_hinge (fun _ _ => State.finish_hinge ..), State.postSwap_hinge, State.hingeEnter_hinge]
    exact ⟨rfl, rfl, rfl, rfl⟩

end Sys2Proof.Stated
end
section
/-! The USB PD ports (19): what each operation of a port leaves, then attach, detach, Requests, contracts and moisture. -/

namespace Sys2Proof.Machine

open Sys2Proof

section
variable {s t : State} {p : Fin 2}

/-! ### The AUX rail of a port -/

@[simp] theorem State.auxStart_pd (s : State) (r : Fin 4) (x : Nat) : (s.auxStart r x).pd = s.pd := rfl
@[simp] theorem State.auxStart_ch (s : State) (r : Fin 4) (x : Nat) : (s.auxStart r x).ch = s.ch := rfl
@[simp] theorem State.auxAim_pd (s : State) (r : Fin 4) (x : Nat) : (s.auxAim r x).pd = s.pd := rfl
@[simp] theorem State.auxOff_pd (s : State) (r : Fin 4) : (s.auxOff r).pd = s.pd := rfl
@[simp] theorem State.auxOff_ch (s : State) (r : Fin 4) : (s.auxOff r).ch = s.ch := rfl

/-- A rail starts toward its target. -/
theorem State.auxStart_starts (s : State) (r : Fin 4) (x : Nat) :
    ((s.auxStart r x).aux[r]).st = .start ∧ ((s.auxStart r x).aux[r]).target = x := by
  unfold State.auxStart
  rw [State.updAux_same]
  exact ⟨rfl, rfl⟩

theorem State.auxStart_other {r m : Fin 4} (h : m ≠ r) (x : Nat) : (s.auxStart r x).aux[m] = s.aux[m] :=
  s.updAux_other r m _ h

theorem State.auxAim_target (s : State) (r : Fin 4) (x : Nat) : ((s.auxAim r x).aux[r]).target = x := by
  unfold State.auxAim
  rw [State.updAux_same]

theorem State.auxOff_st (s : State) (r : Fin 4) : ((s.auxOff r).aux[r]).st = .off := by
  unfold State.auxOff
  rw [State.updAux_same]
  rfl

/-! ### Messages, states, capabilities -/

@[simp] theorem State.pdSend_pd (s : State) (p : Fin 2) (m : PdOut) :
    (s.pdSend p m).pd[p] = { s.pd[p] with nMsgs := (s.pd[p]).nMsgs + 1, lastMsg := some m } := State.updPd_same ..
@[simp] theorem State.pdSend_aux (s : State) (p : Fin 2) (m : PdOut) : (s.pdSend p m).aux = s.aux := rfl
@[simp] theorem State.pdSend_ch (s : State) (p : Fin 2) (m : PdOut) : (s.pdSend p m).ch = s.ch := rfl

@[simp] theorem State.pdEnter_pd (s : State) (p : Fin 2) (x : PdState) (c : Nat) :
    (s.pdEnter p x c).pd[p] = { s.pd[p] with st := x } := by
  unfold State.pdEnter
  rw [State.postRec_pd, State.updPd_same]

@[simp] theorem State.pdEnter_aux (s : State) (p : Fin 2) (x : PdState) (c : Nat) : (s.pdEnter p x c).aux = s.aux := by
  unfold State.pdEnter
  rw [State.postRec_aux, State.updPd_aux]

@[simp] theorem State.pdEnter_ch (s : State) (p : Fin 2) (x : PdState) (c : Nat) : (s.pdEnter p x c).ch = s.ch := by
  unfold State.pdEnter
  rw [State.postRec_ch, State.updPd_ch]

@[simp] theorem State.pdAdvertise_pd (s : State) (p : Fin 2) : (s.pdAdvertise p).pd[p] =
    { s.pd[p] with pdos := s.pdoList p, nMsgs := (s.pd[p]).nMsgs + 1, lastMsg := some .sourceCap } := by
  unfold State.pdAdvertise
  rw [State.pdSend_pd, State.updPd_same]

@[simp] theorem State.pdAdvertise_aux (s : State) (p : Fin 2) : (s.pdAdvertise p).aux = s.aux := rfl
@[simp] theorem State.pdAdvertise_ch (s : State) (p : Fin 2) : (s.pdAdvertise p).ch = s.ch := rfl

/-- VBUS goes off: what belonged to the sink is void, and the discharge sink runs (log 52). -/
@[simp] theorem State.pdDrop_pd (s : State) (p : Fin 2) : (s.pdDrop p).pd[p] =
    { (s.pd[p]).void with vconn := false, cable5 := false, wetAt := none, discharge := true } := by
  unfold State.pdDrop
  rw [State.auxOff_pd, State.updPd_same]

@[simp] theorem State.pdDrop_ch (s : State) (p : Fin 2) : (s.pdDrop p).ch = s.ch := rfl

theorem State.pdDrop_rail (s : State) (p : Fin 2) : ((s.pdDrop p).aux[pdRail p]).st = .off := State.auxOff_st ..

@[simp] theorem State.pdMoist_pd (s : State) (p : Fin 2) (wet : List (Fin 4)) (low : Nat) : (s.pdMoist p wet low).pd = s.pd :=
  State.postRec_pd ..

/-! ### Attach and detach (R578, R583, R587) -/

/-- The port takes a sink: nothing of the one before it, with VCONN and its cable. -/
def PdPort.taken (k : PdPort) (a : AttachIn) (vc : Bool) : PdPort :=
  { k.void with
    cc2 := a.cc2, vconn := vc, cable5 := vc && a.cable5, discharge := false
    life := { k.life with attach := k.life.attach + 1 } }

/-- The rail of a port with a new sink starts toward 5 V. -/
def State.pdStartRail (s : State) (p : Fin 2) (a : AttachIn) (vc : Bool) : State :=
  (((s.updPd p fun k => k.taken a vc).updAux (pdRail p) fun x => { x with icc := some 3 }).auxStart (pdRail p) 500)

theorem exec_attach {a : AttachIn} (hlive : s.live = true) (hst : (s.pd[p]).st = .unattached) : exec (.attach p a) s = .next (
    let vc := s.pdf p Fld.VCONNEN == 1 && a.ra && a.vconnIn
    let s2 := s.pdStartRail p a vc
    ((if vc then s2.pdSend p .discoverIdentity else s2).pdEnter p .attached 1).pdAdvertise p) := by
  refine congrArg _ (if_pos ?_)
  rw [hlive, hst]
  rfl

/-- Discover_Identity, where VCONN is on, changes the count of messages and the last one. -/
theorem State.discover_pd (s : State) (p : Fin 2) (b : Bool) : ∃ n m,
    (if b then s.pdSend p .discoverIdentity else s).pd[p] = { s.pd[p] with nMsgs := n, lastMsg := m } := by
  cases b
  · exact ⟨_, _, rfl⟩
  · exact ⟨_, _, s.pdSend_pd p _⟩

theorem State.discover_aux (s : State) (p : Fin 2) (b : Bool) :
    (if b then s.pdSend p .discoverIdentity else s).aux = s.aux := by cases b <;> rfl

theorem State.discover_ch (s : State) (p : Fin 2) (b : Bool) :
    (if b then s.pdSend p .discoverIdentity else s).ch = s.ch := by cases b <;> rfl

theorem State.pdStartRail_pd (s : State) (p : Fin 2) (a : AttachIn) (vc : Bool) :
    (s.pdStartRail p a vc).pd[p] = (s.pd[p]).taken a vc := by
  unfold State.pdStartRail
  rw [State.auxStart_pd, State.updAux_pd, State.updPd_same]

theorem State.pdStartRail_other {a : AttachIn} {vc : Bool} {r : Fin 4} (h : r ≠ pdRail p) :
    (s.pdStartRail p a vc).aux[r] = s.aux[r] := by
  unfold State.pdStartRail
  rw [State.auxStart_other h, State.updAux_other _ _ _ _ h, State.updPd_aux]

theorem exec_detach {v : Nat} (hlive : s.live = true) (hatt : pdAttached (s.pd[p]).st = true) :
    exec (.detach p v) s = .next ((s.pdDetached p v).pdEnter p .unattached 2) := by
  refine congrArg _ (if_pos ?_)
  rw [hlive, hatt]
  rfl

theorem State.pdDetached_pd (s : State) (p : Fin 2) (v : Nat) : (s.pdDetached p v).pd = (s.pdDrop p).pd := State.postRec_pd ..

theorem State.pdDetached_aux (s : State) (p : Fin 2) (v : Nat) : (s.pdDetached p v).aux = (s.pdDrop p).aux :=
  State.postRec_aux ..

theorem State.pdDetached_ch (s : State) (p : Fin 2) (v : Nat) : (s.pdDetached p v).ch = s.ch := State.postRec_ch ..

/-! ### Rd within a transition (R587) -/

/-- The generator of the rail stops where it can (R587). -/
def State.pdHold (s : State) (p : Fin 2) : State :=
  let r := pdRail p
  let g := (s.aux[r]).gen
  let m : Motion := ⟨g.p, g.v, g.a⟩
  let stop := (m.runAll (stopPlan g.v g.a (s.auxLims r))).1
  (s.updPd p fun k => { k with rdGone := true }).updAux r fun a => { a with gen := a.gen.aim stop }

theorem exec_rdAbsent (hlive : s.live = true) (hst : (s.pd[p]).st = .transition) (hrd : (s.pd[p]).rdGone = false) :
    exec (.rdAbsent p) s = .next (s.pdHold p) := by
  refine congrArg _ (if_pos ?_)
  rw [hlive, hst, hrd]
  rfl

theorem State.pdHold_pd (s : State) (p : Fin 2) : (s.pdHold p).pd[p] = { s.pd[p] with rdGone := true } := by
  unfold State.pdHold
  extract_lets r g m stop
  rw [State.updAux_pd, State.updPd_same]

theorem State.pdHold_ch (s : State) (p : Fin 2) : (s.pdHold p).ch = s.ch := by
  unfold State.pdHold
  extract_lets r g m stop
  rw [State.updAux_ch, State.updPd_ch]

theorem exec_rdReturn (hlive : s.live = true) (hst : (s.pd[p]).st = .transition) (hrd : (s.pd[p]).rdGone = true) :
    exec (.rdReturn p) s = .next ((s.updPd p fun k => { k with rdGone := false }).auxAim (pdRail p)
      (2 * (if (s.pd[p]).srcWait then (s.pd[p]).volt else (s.pd[p]).nextVolt))) := by
  refine congrArg _ (if_pos ?_)
  rw [hlive, hst, hrd]
  rfl

/-! ### Moisture (R584, R585) -/

/-- The pins found wet by a test. -/
def State.pdWet (s : State) (p : Fin 2) (imp : Vector Nat 4) : List (Fin 4) := (s.pd[p]).pins.filter fun i => s.pinWet p imp i

theorem exec_moistureTest {imp : Vector Nat 4} (hlive : s.live = true) (hen : s.pdf p Fld.MOISTEN = 1)
    (hst : (s.pd[p]).st = .unattached ∨ (s.pd[p]).st = .moist) : exec (.moistureTest p imp) s = .next (s.pdTest p imp) := by
  refine congrArg _ (if_pos ?_)
  rcases hst with h | h
  · rw [hlive, hen, h]
    rfl
  · rw [hlive, hen, h]
    rfl

/-- What a test notes before the state of the port decides: the impedances, the run of wet tests, CORROSION and its record. -/
def State.pdTested (s : State) (p : Fin 2) (imp : Vector Nat 4) : State :=
  let k := s.pd[p]
  let wet := s.pdWet p imp
  let low := (k.pins.map fun i => imp[i]).foldl min (2 ^ 32 - 1)
  let isWet := !wet.isEmpty
  let corr := k.corrosion || (isWet && k.wetRun + 1 ≥ 600)
  let s1 := s.updPd p fun k => { k with
    imp := Vector.ofFn fun i => if (s.pd[p]).pins.contains i then imp[i] else k.imp[i]
    wetRun := if isWet then min 600 (k.wetRun + 1) else 0, corrosion := corr, testNow := false }
  if corr && !k.corrosion then s1.pdMoist p wet low else s1

theorem State.pdTested_pd (s : State) (p : Fin 2) (imp : Vector Nat 4) : ∃ x : Vector Nat 4, (s.pdTested p imp).pd[p] =
    { s.pd[p] with
      imp := x, testNow := false
      wetRun := if !(s.pdWet p imp).isEmpty then min 600 ((s.pd[p]).wetRun + 1) else 0
      corrosion := (s.pd[p]).corrosion || (!(s.pdWet p imp).isEmpty && (s.pd[p]).wetRun + 1 ≥ 600) } := by
  unfold State.pdTested
  extract_lets k wet low isWet corr s1
  refine ⟨Vector.ofFn fun i => if (s.pd[p]).pins.contains i then imp[i] else (s.pd[p]).imp[i], ?_⟩
  rw [apply_ite State.pd, State.pdMoist_pd, ite_self]
  exact State.updPd_same ..

section
variable {imp : Vector Nat 4}

/-- A wet test in UNATTACHED. -/
theorem State.pdTest_wet (hst : (s.pd[p]).st = .unattached) (hwet : s.pdWet p imp ≠ []) :
    ∃ low, s.pdTest p imp = (s.pdTested p imp).pdToMoist p (s.pdWet p imp) low := by
  refine ⟨_, (if_pos (beq_iff_eq.mpr hst)).trans (if_pos ?_)⟩
  simpa [State.pdWet] using hwet

/-- A dry test in UNATTACHED. -/
theorem State.pdTest_dry (hst : (s.pd[p]).st = .unattached) (hdry : s.pdWet p imp = []) : s.pdTest p imp = s.pdTested p imp := by
  refine (if_pos (beq_iff_eq.mpr hst)).trans (if_neg ?_)
  simpa [State.pdWet] using hdry

/-- A test in MOIST: three dry ones in a row lead back. -/
theorem State.pdTest_moist (hst : (s.pd[p]).st = .moist) : s.pdTest p imp =
    if !(s.pdWet p imp).isEmpty then (s.pdTested p imp).updPd p fun k => { k with dryRun := 0 }
    else if (s.pd[p]).dryRun + 1 ≥ 3 then ((s.pdTested p imp).updPd p fun k => { k with dryRun := 0 }).pdEnter p .unattached 3
    else (s.pdTested p imp).updPd p fun k => { k with dryRun := k.dryRun + 1 } :=
  (if_neg (by rw [hst]; decide)).trans (if_pos (beq_iff_eq.mpr hst))

end

/-- The port is in MOIST, and its counter moves on. -/
theorem State.pdToMoist_pd (h : (s.pd[p]).st = .unattached) (wet : List (Fin 4)) (low : Nat) : (s.pdToMoist p wet low).pd[p] =
    { s.pd[p] with
      st := .moist, vconn := false, dryRun := 0, wetAt := none
      life := { (s.pd[p]).life with moist := (s.pd[p]).life.moist + 1 } } := by
  have hfree : ¬ pdAttached (s.pd[p]).st = true := by rw [h]; decide
  unfold State.pdToMoist
  rw [if_neg hfree, State.pdMoist_pd, State.pdEnter_pd, State.updPd_same]

end

end Sys2Proof.Machine

namespace Sys2Proof.Stated

open Sys2Proof Sys2Proof.Machine

/-- A sink is taken, held through a transition, and let go (R578, R583, R587). -/
theorem attach_takes_sink (s : State) (p : Fin 2) (a : AttachIn) (hlive : s.live = true) (hst : (s.pd[p]).st = .unattached) :
    ∃ t, exec (.attach p a) s = .next t ∧
      (t.pd[p]).st = .attached ∧ (t.pd[p]).cc2 = a.cc2 ∧ (t.pd[p]).vconn = (s.pdf p Fld.VCONNEN == 1 && a.ra && a.vconnIn) ∧
      (t.pd[p]).life.attach = (s.pd[p]).life.attach + 1 ∧ (t.pd[p]).lastMsg = some .sourceCap ∧ (t.aux[pdRail p]).st = .start ∧
      (t.aux[pdRail p]).target = 500 ∧ (∀ r, r ≠ pdRail p → t.aux[r] = s.aux[r]) ∧ t.ch = s.ch := by
  refine ⟨_, exec_attach hlive hst, ?_⟩
  extract_lets vc s2
  obtain ⟨n, m, hpd⟩ := s2.discover_pd p vc
  obtain ⟨hstart, htarget⟩ := State.auxStart_starts ((s.updPd p fun k => k.taken a vc).updAux (pdRail p) fun x =>
    { x with icc := some 3 }) (pdRail p) 500
  rw [State.pdAdvertise_pd, State.pdEnter_pd, hpd, State.pdStartRail_pd, State.pdAdvertise_aux, State.pdEnter_aux,
    State.discover_aux, State.pdAdvertise_ch, State.pdEnter_ch, State.discover_ch]
  exact ⟨rfl, rfl, rfl, rfl, rfl, hstart, htarget, fun r hr => State.pdStartRail_other hr, rfl⟩

theorem detach_drops_sink (s : State) (p : Fin 2) (v : Nat) (hlive : s.live = true) (hatt : pdAttached (s.pd[p]).st = true) :
    ∃ t, exec (.detach p v) s = .next t ∧ (t.pd[p]).st = .unattached ∧ (t.pd[p]).obj = 0 ∧ (t.pd[p]).vconn = false ∧
      (t.pd[p]).discharge = true ∧ (t.aux[pdRail p]).st = .off ∧ t.ch = s.ch := by
  refine ⟨_, exec_detach hlive hatt, ?_⟩
  rw [State.pdEnter_pd, State.pdDetached_pd, State.pdDrop_pd, State.pdEnter_aux, State.pdDetached_aux, State.pdEnter_ch,
    State.pdDetached_ch]
  exact ⟨rfl, rfl, rfl, rfl, s.pdDrop_rail p, rfl⟩

/-- Settles O59: each event of a sink by the operation of the port that it asks for, and each moisture test by the state of the
port and by whether it finds a wet pin. -/
theorem pdAttachDetachAndMoistureAct : Obligations.PdAttachDetachAndMoistureAct := by
  refine ⟨⟨attach_takes_sink, fun s p hlive hst hrd => ⟨_, exec_rdAbsent hlive hst hrd, ?_⟩,
    fun s p hlive hst hrd => exec_rdReturn hlive hst hrd, detach_drops_sink, fun s p hvc => congrArg _ (if_pos hvc),
    fun s => ⟨_, rfl, fun p => ?_, rfl⟩⟩, fun s p imp hlive hen => ?_⟩
  · rw [State.pdHold_pd, State.pdHold_ch]
    exact ⟨rfl, hst, rfl⟩
  · rw [Fin.getElem_fin, Vector.getElem_map]
    exact ⟨rfl, rfl⟩
  intro wet
  obtain ⟨x, hpd⟩ := s.pdTested_pd p imp
  refine ⟨fun hst hwet => ⟨_, exec_moistureTest hlive hen (.inl hst), ?_⟩,
    fun hst hwet => ⟨_, exec_moistureTest hlive hen (.inl hst), ?_⟩,
    fun hst hwet hmany => ⟨_, exec_moistureTest hlive hen (.inr hst), ?_⟩,
    fun hst hwet hfew => ⟨_, exec_moistureTest hlive hen (.inr hst), ?_⟩,
    fun hst hwet => ⟨_, exec_moistureTest hlive hen (.inr hst), ?_⟩⟩
  · obtain ⟨low, htest⟩ := State.pdTest_wet (imp := imp) hst hwet
    rw [htest, State.pdToMoist_pd (by rw [hpd]; exact hst), hpd]
    exact ⟨rfl, rfl⟩
  · have hdry : s.pdWet p imp = [] := not_not.mp hwet
    rw [State.pdTest_dry hst hdry, hpd, hdry]
    exact ⟨hst, rfl⟩
  · have hdry : s.pdWet p imp = [] := not_not.mp hwet
    rw [State.pdTest_moist hst, hdry, if_neg (by simp), if_pos (by omega), State.pdEnter_pd]
  · have hdry : s.pdWet p imp = [] := not_not.mp hwet
    rw [State.pdTest_moist hst, hdry, if_neg (by simp), if_neg (by omega), State.updPd_same, hpd]
    exact ⟨hst, rfl⟩
  · have hwet' : (!(s.pdWet p imp).isEmpty) = true := by simpa using show s.pdWet p imp ≠ [] from hwet
    rw [State.pdTest_moist hst, if_pos hwet', State.updPd_same, hpd]
    refine ⟨hst, rfl, fun hrun => ?_⟩
    rw [hwet', hrun]
    exact Bool.or_true _

end Sys2Proof.Stated
end
section
/-! Requests, contracts and Hard Resets of the USB PD ports (19). -/

namespace Sys2Proof.Machine

open Sys2Proof

section
variable {s : State} {p : Fin 2} {r : PdRequest}

/-! ### A Request (R580) -/

/-- A Request is judged in ATTACHED and in CONTRACT, with no other one under way. -/
theorem exec_request (hlive : s.live = true) (hst : (s.pd[p]).st = .attached ∨ (s.pd[p]).st = .contract)
    (hnone : (s.pd[p]).nextObj = 0) : exec (.request p r) s = .next (
      match s.pdNamed p r with
      | none => (s.updPd p fun k => { k with waits := 0 }).pdSend p .reject
      | some (o, volt) =>
        let dp := pdWatt volt r.cur - pdWatt (s.pd[p]).volt (s.pd[p]).cur
        if s.pdMustWait p dp then s.pdWait p dp else s.pdAccept p r o volt) := by
  refine congrArg _ (if_pos ?_)
  rw [hlive, hnone]
  rcases hst with h | h
  · rw [h]
    rfl
  · rw [h]
    rfl

theorem State.pdReject_pd (s : State) (p : Fin 2) : ((s.updPd p fun k => { k with waits := 0 }).pdSend p .reject).pd[p] =
    { s.pd[p] with waits := 0, nMsgs := (s.pd[p]).nMsgs + 1, lastMsg := some .reject } := by
  rw [State.pdSend_pd, State.updPd_same]

/-- What Accept notes of a Request. -/
def PdPort.accepted (k : PdPort) (r : PdRequest) (o : Pdo) (volt : Nat) : PdPort :=
  { k with
    nextObj := r.obj, nextPps := o.pps, nextVolt := volt, nextCur := r.cur, srcWait := true, waits := 0, regRun := 0
    nMsgs := k.nMsgs + 1, lastMsg := some .accept }

theorem State.pdAccept_pd (s : State) (p : Fin 2) (r : PdRequest) (o : Pdo) (volt : Nat) : (s.pdAccept p r o volt).pd[p] =
    if (s.pd[p]).st == .contract then { (s.pd[p]).accepted r o volt with st := .transition }
    else (s.pd[p]).accepted r o volt := by
  unfold State.pdAccept
  extract_lets s1
  have h1 : s1.pd[p] = (s.pd[p]).accepted r o volt := by
    unfold s1
    rw [State.pdSend_pd, State.updPd_same]
    rfl
  split
  · rw [State.pdEnter_pd, h1]
  · exact h1

theorem State.pdAccept_aux (s : State) (p : Fin 2) (r : PdRequest) (o : Pdo) (volt : Nat) : (s.pdAccept p r o volt).aux = s.aux := by
  unfold State.pdAccept
  extract_lets s1
  have h1 : s1.aux = s.aux := rfl
  split
  · rw [State.pdEnter_aux, h1]
  · exact h1

/-- Wait, short of the eighth in a row. -/
theorem State.pdWait_pd (h : (s.pd[p]).waits < 7) (dp : ℚ) : (s.pdWait p dp).pd[p] =
    { s.pd[p] with waits := (s.pd[p]).waits + 1, nMsgs := (s.pd[p]).nMsgs + 1, lastMsg := some .wait } := by
  unfold State.pdWait
  extract_lets k hr s1
  have hfew : ¬ k.waits + 1 ≥ 8 := show ¬ (s.pd[p]).waits + 1 ≥ 8 by omega
  rw [if_neg hfew]
  unfold s1
  rw [State.postRec_pd, State.pdSend_pd, State.updPd_same]

/-! ### The new voltage (R581) -/

/-- ICC of the rail for an accepted Request. -/
def PdPort.icc (k : PdPort) : ℚ :=
  let i : ℚ := (k.nextCur : ℚ) / 100
  if k.nextPps then i else min (5 / 4 * i) (25 / 4)

/-- tSrcTransition has elapsed: the rail moves to the new voltage. -/
theorem exec_srcTransition (hlive : s.live = true) (hnext : (s.pd[p]).nextObj ≠ 0) (hwait : (s.pd[p]).srcWait = true)
    (hst : (s.pd[p]).st = .transition ∨ (s.pd[p]).st = .attached) (hrd : (s.pd[p]).rdGone = false) :
    exec (.srcTransition p) s = .next (((s.updPd p fun k => { k with srcWait := false, regRun := 0 }).updAux (pdRail p)
      fun a => { a with icc := some (s.pd[p]).icc }).auxAim (pdRail p) (2 * (s.pd[p]).nextVolt)) := by
  refine congrArg _ ((if_pos ?_).trans (if_neg (Bool.eq_false_iff.mp hrd)))
  have hnext' : ((s.pd[p]).nextObj != 0) = true := bne_iff_ne.mpr hnext
  rw [hlive, hnext', hwait]
  rcases hst with h | h
  · rw [h]
    rfl
  · rw [h]
    rfl

/-! ### A Hard Reset (R575, log 53) -/

/-- A Hard Reset voids the contract: the port is ATTACHED, its rail aims at 5 V. -/
theorem State.pdHardReset_voids (s : State) (p : Fin 2) (sent : Bool) :
    ((s.pdHardReset p sent).pd[p]).st = .attached ∧ ((s.pdHardReset p sent).pd[p]).obj = 0 ∧
      ((s.pdHardReset p sent).pd[p]).life.hard = (s.pd[p]).life.hard + 1 ∧
      ((s.pdHardReset p sent).aux[pdRail p]).target = 500 := by
  unfold State.pdHardReset
  extract_lets r s1 s2 s3
  have h1 : (s1.pd[p]).life = (s.pd[p]).life := by
    cases sent
    · rfl
    · show ((s.pdSend p .hardReset).pd[p]).life = _
      rw [State.pdSend_pd]
  have h3 : s3.pd[p] = { (s1.pd[p]).void with life := { (s1.pd[p]).life with hard := (s1.pd[p]).life.hard + 1 } } := by
    unfold s3 s2
    rw [State.auxAim_pd, State.updAux_pd, State.updPd_same]
  have htarget : (s3.aux[pdRail p]).target = 500 := State.auxAim_target ..
  rw [State.pdAdvertise_pd, State.pdEnter_pd, h3, State.pdAdvertise_aux, State.pdEnter_aux, h1]
  exact ⟨rfl, rfl, rfl, htarget⟩

theorem exec_contractHardReset (hlive : s.live = true) (hst : (s.pd[p]).st = .contract)
    (hdue : (s.pd[p]).pps = true ∨ 250 ≤ (s.pd[p]).ccPeriods) : exec (.contractHardReset p) s = .next (s.pdHardReset p true) := by
  refine congrArg _ (if_pos ?_)
  rw [hlive, hst]
  rcases hdue with h | h
  · rw [h]
    rfl
  · rw [decide_eq_true h, Bool.or_true]
    rfl

theorem exec_noPdReply (hlive : s.live = true) (hst : (s.pd[p]).st = .attached) (hnone : (s.pd[p]).nextObj = 0) :
    exec (.noPdReply p) s = .next (s.pdEnter p .typecOnly 1) := by
  refine congrArg _ (if_pos ?_)
  rw [hlive, hst, hnone]
  rfl

/-! ### Messages beside Requests (R575) -/

/-- What a message beside a Request asks of the port. -/
def State.pdAnswer (s : State) (p : Fin 2) : PdMsg → State
  | .hardReset => s.pdHardReset p false
  | .getSourceCap => s.pdAdvertise p
  | .getSourceCapExtended => s.pdSend p .sourceCapExtended
  | .getStatus => s.pdSend p .status
  | .getPpsStatus => s.pdSend p .ppsStatus
  | .discoverIdentityReply five => if (s.pd[p]).vconn then s.updPd p fun k => { k with cable5 := five } else s
  | .other _ => s.pdSend p .notSupported

theorem exec_pdReceivedMessage {m : PdMsg} (hlive : s.live = true) (hatt : pdAttached (s.pd[p]).st = true) :
    exec (.pdReceivedMessage p m) s = .next (s.pdAnswer p m) := by
  have hacts : (s.live && pdAttached (s.pd[p]).st) = true := by rw [hlive, hatt]; rfl
  refine congrArg _ ((if_pos hacts).trans ?_)
  cases m <;> rfl

end

end Sys2Proof.Machine

namespace Sys2Proof.Stated

open Sys2Proof Sys2Proof.Machine

/-- Settles O60: a Request by whether it names an object and by the power that can be spared, and the other events of a contract. -/
theorem pdContractsAct : Obligations.PdContractsAct := by
  refine ⟨fun s p r hlive hst hnone => ⟨fun hname => ⟨_, exec_request hlive hst hnone, ?_⟩,
      fun o v hname hspare => ⟨_, exec_request hlive hst hnone, ?_⟩, fun o v hname hwait hfew => ⟨_, exec_request hlive hst hnone, ?_⟩⟩,
    fun s p hlive hnext hwait hst hrd => ⟨_, exec_srcTransition hlive hnext hwait hst hrd, ?_, State.auxAim_target .., ?_⟩,
    fun s p hlive hst hnone => ⟨_, exec_noPdReply hlive hst hnone, ?_, State.pdEnter_aux ..⟩,
    fun s p hlive hst hdue => ⟨_, exec_contractHardReset hlive hst hdue, s.pdHardReset_voids p true⟩,
    fun s p hlive hatt => ⟨fun b => exec_pdReceivedMessage hlive hatt, exec_pdReceivedMessage hlive hatt,
      exec_pdReceivedMessage hlive hatt, exec_pdReceivedMessage hlive hatt, exec_pdReceivedMessage hlive hatt,
      ⟨_, exec_pdReceivedMessage hlive hatt, ?_⟩⟩⟩
  · rw [hname]
    dsimp only
    rw [State.pdReject_pd, State.pdSend_aux, State.updPd_aux]
    exact ⟨rfl, rfl, rfl, rfl, rfl⟩
  · rw [hname]
    dsimp only
    rw [if_neg (Bool.eq_false_iff.mp hspare), State.pdAccept_pd, State.pdAccept_aux]
    rcases hst with h | h
    · rw [h, if_neg (by decide), if_neg (by decide)]
      exact ⟨rfl, rfl, rfl, rfl, rfl, h, rfl⟩
    · rw [h, if_pos (by decide), if_pos rfl]
      exact ⟨rfl, rfl, rfl, rfl, rfl, rfl, rfl⟩
  · rw [hname]
    dsimp only
    rw [if_pos hwait, State.pdWait_pd hfew]
    exact ⟨rfl, rfl, hnone⟩
  · rw [State.auxAim_pd, State.updAux_pd, State.updPd_same]
  · rw [State.auxAim_pd, State.updAux_pd, State.updPd_same]
  · rw [State.pdEnter_pd]
  · obtain ⟨hst, hobj, -, -⟩ := s.pdHardReset_voids p false
    exact ⟨hst, hobj⟩

end Sys2Proof.Stated
end
section
/-! Update commands and events (20): the slots, the verification and the confirmation. -/

namespace Sys2Proof.Machine

open Sys2Proof

/-! ### The slots (R596, R600) -/

theorem Upd.setSlot_other (u : Upd) (b : Bool) (x : Slot) : (u.setSlot b x).slot (!b) = u.slot (!b) := by cases b <;> rfl

theorem Upd.setSlot_ex (u : Upd) (b : Bool) (x : Slot) : ∃ y z, u.setSlot b x = { u with slotA := y, slotB := z } := by
  cases b
  · exact ⟨x, u.slotB, rfl⟩
  · exact ⟨u.slotA, x, rfl⟩

/-- The update state v is u with the record of it written and events kept for the start. -/
def Upd.Filed (u v : Upd) : Prop := ∃ a b l, v = { u with rec0 := a, rec1 := b, postAtStart := l }

section
variable {u v w : Upd}

theorem Upd.Filed.trans (h : u.Filed v) (k : v.Filed w) : u.Filed w := by
  obtain ⟨a, b, l, rfl⟩ := h
  obtain ⟨c, d, m, rfl⟩ := k
  exact ⟨c, d, m, rfl⟩

theorem Upd.Filed.slot (h : u.Filed v) (b : Bool) : v.slot b = u.slot b := by
  obtain ⟨x, y, l, rfl⟩ := h
  cases b <;> rfl

theorem Upd.Filed.size (h : u.Filed v) : v.size = u.size := by
  obtain ⟨a, b, l, rfl⟩ := h
  rfl

theorem Upd.Filed.recovery (h : u.Filed v) : v.recovery = u.recovery := by
  obtain ⟨a, b, l, rfl⟩ := h
  rfl

theorem Upd.Filed.verifying (h : u.Filed v) : v.verifying = u.verifying := by
  obtain ⟨a, b, l, rfl⟩ := h
  rfl

theorem Upd.Filed.booted (h : u.Filed v) : v.booted = u.booted := by
  obtain ⟨a, b, l, rfl⟩ := h
  rfl

theorem Upd.Filed.shadow (h : u.Filed v) : v.shadow = u.shadow := by
  obtain ⟨a, b, l, rfl⟩ := h
  rfl

theorem Upd.Filed.confirmLate (h : u.Filed v) : v.confirmLate = u.confirmLate := by
  obtain ⟨a, b, l, rfl⟩ := h
  rfl

theorem Upd.putRec_filed (u : Upd) : u.Filed u.putRec := by
  unfold Upd.putRec
  extract_lets x
  split
  · exact ⟨x, u.rec1, u.postAtStart, rfl⟩
  · exact ⟨u.rec0, x, u.postAtStart, rfl⟩

end

section
variable {s t : State} {b : Bool} {st : SlotState} {r : Nat}

theorem State.updEvent_filed (s : State) (c : Nat) (p : List Byte) : s.upd.Filed (s.updEvent c p).upd := by
  obtain ⟨l, hl⟩ := s.updEvent_upd c p
  exact ⟨_, _, l, hl⟩

theorem State.updEvent_otp (s : State) (c : Nat) (p : List Byte) : (s.updEvent c p).otp = s.otp := by
  unfold State.updEvent
  split
  · exact State.postRec_otp ..
  · rfl

theorem State.updEvent_outs (s : State) (c : Nat) (p : List Byte) : (s.updEvent c p).outs = s.outs := by
  unfold State.updEvent
  split
  · exact State.postRec_outs ..
  · rfl

/-- A slot takes a state and a reason; the rest of the update state stays, but for its record. -/
theorem State.slotTo_filed (s : State) (b : Bool) (st : SlotState) (r : Nat) :
    (s.upd.setSlot b { s.upd.slot b with st := st, reason := r }).Filed (s.slotTo b st r).upd := by
  unfold State.slotTo
  extract_lets x
  refine Upd.Filed.trans ?_ (State.updEvent_filed ..)
  rw [State.updUpd_upd]
  split
  · exact ⟨_, _, _, rfl⟩
  · exact Upd.putRec_filed _

theorem State.slotTo_slot (s : State) (b : Bool) (st : SlotState) (r : Nat) :
    (s.slotTo b st r).upd.slot b = { s.upd.slot b with st := st, reason := r } := by
  rw [(s.slotTo_filed b st r).slot, Upd.setSlot_slot]

theorem State.slotTo_other (s : State) (b : Bool) (st : SlotState) (r : Nat) :
    (s.slotTo b st r).upd.slot (!b) = s.upd.slot (!b) := by
  rw [(s.slotTo_filed b st r).slot, Upd.setSlot_other]

theorem State.slotTo_size (s : State) (b : Bool) (st : SlotState) (r : Nat) : (s.slotTo b st r).upd.size = s.upd.size := by
  obtain ⟨y, z, h⟩ := s.upd.setSlot_ex b { s.upd.slot b with st := st, reason := r }
  rw [(s.slotTo_filed b st r).size, h]

theorem State.slotTo_recovery (s : State) (b : Bool) (st : SlotState) (r : Nat) :
    (s.slotTo b st r).upd.recovery = s.upd.recovery := by
  obtain ⟨y, z, h⟩ := s.upd.setSlot_ex b { s.upd.slot b with st := st, reason := r }
  rw [(s.slotTo_filed b st r).recovery, h]

theorem State.slotTo_verifying (s : State) (b : Bool) (st : SlotState) (r : Nat) :
    (s.slotTo b st r).upd.verifying = s.upd.verifying := by
  obtain ⟨y, z, h⟩ := s.upd.setSlot_ex b { s.upd.slot b with st := st, reason := r }
  rw [(s.slotTo_filed b st r).verifying, h]

theorem State.slotTo_booted (s : State) (b : Bool) (st : SlotState) (r : Nat) : (s.slotTo b st r).upd.booted = s.upd.booted := by
  obtain ⟨y, z, h⟩ := s.upd.setSlot_ex b { s.upd.slot b with st := st, reason := r }
  rw [(s.slotTo_filed b st r).booted, h]

theorem State.slotTo_shadow (s : State) (b : Bool) (st : SlotState) (r : Nat) : (s.slotTo b st r).upd.shadow = s.upd.shadow := by
  obtain ⟨y, z, h⟩ := s.upd.setSlot_ex b { s.upd.slot b with st := st, reason := r }
  rw [(s.slotTo_filed b st r).shadow, h]

theorem State.slotTo_otp (s : State) (b : Bool) (st : SlotState) (r : Nat) : (s.slotTo b st r).otp = s.otp :=
  State.updEvent_otp ..

theorem State.slotTo_outs (s : State) (b : Bool) (st : SlotState) (r : Nat) : (s.slotTo b st r).outs = s.outs :=
  State.updEvent_outs ..

theorem State.slotTo_pw (s : State) (b : Bool) (st : SlotState) (r : Nat) : (s.slotTo b st r).pw = s.pw :=
  (s.slotTo_dieKept b st r).pw

/-! ### The completion of an update command (log 76) -/

@[simp] theorem State.updDone_upd (s : State) (t : Taken) : (s.updDone t).upd = s.upd := by
  unfold State.updDone
  split
  · exact State.complete_upd ..
  · rfl

@[simp] theorem State.updDone_pw (s : State) (t : Taken) : (s.updDone t).pw = s.pw := by
  unfold State.updDone
  split
  · exact State.complete_pw ..
  · rfl

/-- Outside RECOVERY the command waits for the next tick. -/
theorem State.updDone_waits (t : Taken) (h : s.upd.recovery = false) :
    ∃ o ∈ (s.updDone t).outs, o.cmd = t ∧ o.wait = .tick 0 [] := by
  refine ⟨⟨t, s.outs.length, .tick 0 []⟩, ?_, rfl, rfl⟩
  rw [State.updDone, if_neg (Bool.eq_false_iff.mp h), State.await_outs]
  exact List.mem_append_right _ (List.mem_singleton_self _)

/-! ### UPD_BEGIN (R602) -/

/-- The slot is emptied, takes the size of the image to come, and receives. -/
def State.updBegun (s : State) (b : Bool) (size : Nat) : State :=
  (s.updUpd fun u => { (u.setSlot b ⟨.empty, 0, []⟩) with size := size }).slotTo b .receiving 0

theorem State.updBegun_slot (s : State) (b : Bool) (size : Nat) : (s.updBegun b size).upd.slot b = ⟨.receiving, 0, []⟩ := by
  unfold State.updBegun
  rw [State.slotTo_slot, State.updUpd_upd]
  cases b <;> rfl

theorem State.updBegun_other (s : State) (b : Bool) (size : Nat) : (s.updBegun b size).upd.slot (!b) = s.upd.slot (!b) := by
  unfold State.updBegun
  rw [State.slotTo_other, State.updUpd_upd]
  cases b <;> rfl

theorem State.updBegun_size (s : State) (b : Bool) (size : Nat) : (s.updBegun b size).upd.size = size :=
  State.slotTo_size ..

theorem State.updBegun_recovery (s : State) (b : Bool) (size : Nat) : (s.updBegun b size).upd.recovery = s.upd.recovery := by
  unfold State.updBegun
  rw [State.slotTo_recovery, State.updUpd_upd]
  cases b <;> rfl

/-! ### UPD_DATA (R603) -/

/-- The bytes are added to the content of the slot. -/
def State.updAdded (s : State) (b : Bool) (data : List Byte) : State :=
  s.updUpd fun u => u.setSlot b { s.upd.slot b with image := (s.upd.slot b).image ++ data }

/-- The header's first failed check, where it has come in (log 77). -/
def State.dataReason (s : State) (img : List Byte) : Nat := if imgTotal img != s.upd.size then 1 else s.hdrReason img

/-- The effect of UPD_DATA: the header that is complete with it is checked, or the flash write starts. -/
def State.updReceived (s : State) (t : Taken) (got : Nat) : State :=
  let b := s.receiver.getD false
  let img := (s.upd.slot b).image ++ t.body
  let r := s.dataReason img
  if got < 1024 && img.length ≥ 1024 && r != 0 then ((s.updAdded b t.body).slotTo b .failed r).refuse t 0x22 (le 1 r)
  else ((s.updAdded b t.body).updUpd fun u => { u with flashBusy := true }).updDone t

/-- The bytes that a slot has received. -/
def State.updGot (s : State) : Nat := match s.receiver with | some b => (s.upd.slot b).image.length | none => 0

theorem State.updGot_of_receiver (h : s.receiver = some b) : s.updGot = (s.upd.slot b).image.length := by
  rw [State.updGot, h]

theorem State.updAdded_slot (s : State) (b : Bool) (data : List Byte) :
    (s.updAdded b data).upd.slot b = { s.upd.slot b with image := (s.upd.slot b).image ++ data } := Upd.setSlot_slot ..

/-- The bytes are taken, and their flash write starts. -/
theorem State.updReceived_takes (t : Taken) {got : Nat} (hb : s.receiver = some b)
    (hok : 1024 ≤ got ∨ ((s.upd.slot b).image ++ t.body).length < 1024 ∨ s.dataReason ((s.upd.slot b).image ++ t.body) = 0) :
    s.updReceived t got = ((s.updAdded b t.body).updUpd fun u => { u with flashBusy := true }).updDone t := by
  unfold State.updReceived
  rw [hb, Option.getD_some]
  refine if_neg ?_
  rcases hok with h | h | h
  · simp [Nat.not_lt.mpr h]
  · simp only [Bool.and_eq_true, decide_eq_true_eq]
    omega
  · simp [h]

/-- The header is complete and bad: the slot fails. -/
theorem State.updReceived_fails (t : Taken) {got : Nat} (hb : s.receiver = some b) (hgot : got < 1024)
    (himg : 1024 ≤ ((s.upd.slot b).image ++ t.body).length) (hbad : s.dataReason ((s.upd.slot b).image ++ t.body) ≠ 0) :
    s.updReceived t got = ((s.updAdded b t.body).slotTo b .failed (s.dataReason ((s.upd.slot b).image ++ t.body))).refuse t 0x22
      (le 1 (s.dataReason ((s.upd.slot b).image ++ t.body))) := by
  unfold State.updReceived
  rw [hb, Option.getD_some]
  refine if_pos ?_
  rw [decide_eq_true hgot, decide_eq_true himg, bne_iff_ne.mpr hbad]
  rfl

/-! ### UPD_ACTIVATE (R605) -/

/-- The slot that runs, which UPD_ACTIVATE leaves as it is. -/
def State.isBooted (s : State) (b : Bool) : Bool := !s.upd.recovery && b == s.upd.booted

/-- The effect of UPD_ACTIVATE. -/
def State.updActivated (s : State) (t : Taken) (b rst : Bool) : State :=
  if s.isBooted b then s.complete t 0 none
  else
    let s1 := (s.slotTo b .pending 0).updDone t
    if rst then s1.updPw fun p => { p with resetDue := some (s.fr.count + 251) } else s1

theorem State.isBooted_eq_false (h : s.upd.recovery = true ∨ b ≠ s.upd.booted) : s.isBooted b = false := by
  unfold State.isBooted
  rcases h with h | h
  · simp [h]
  · simp [h]

theorem State.updActivated_pending (t : Taken) (rst : Bool) (h : s.isBooted b = false) :
    (s.updActivated t b rst).upd = (s.slotTo b .pending 0).upd ∧
      (s.updActivated t b rst).pw.resetDue = if rst then some (s.fr.count + 251) else s.pw.resetDue := by
  unfold State.updActivated
  rw [if_neg (Bool.eq_false_iff.mp h)]
  extract_lets s1
  have hupd : s1.upd = (s.slotTo b .pending 0).upd := State.updDone_upd ..
  have hpw : s1.pw = s.pw := (State.updDone_pw ..).trans (s.slotTo_pw b .pending 0)
  cases rst
  · exact ⟨hupd, congrArg Power.resetDue hpw⟩
  · exact ⟨hupd, rfl⟩

theorem State.receiver_congr (h : t.upd = s.upd) : t.receiver = s.receiver := by rw [State.receiver, State.receiver, h]

theorem State.hdrReason_congr (h : t.otp = s.otp) (img : List Byte) : t.hdrReason img = s.hdrReason img := by
  rw [State.hdrReason, State.hdrReason, h]

theorem State.dataReason_congr (hupd : t.upd = s.upd) (hotp : t.otp = s.otp) (img : List Byte) :
    t.dataReason img = s.dataReason img := by
  rw [State.dataReason, State.dataReason, hupd, State.hdrReason_congr hotp]

/-! ### The end of a verification (R604) -/

/-- The reason of a verified image: a read error, its length, or its first failed check; 0 where all is well. -/
def State.verdict (s : State) (b readError : Bool) : Nat :=
  let img := (s.upd.slot b).image
  if readError then 8 else if img.length != imgTotal img then 1 else s.imgReason img

/-- The verification has ended. -/
def State.verified (s : State) : State := s.updUpd fun u => { u with verifying := none }

theorem exec_updVerifyDone {c : Taken} {e : Bool} (h : s.upd.verifying = some (b, c)) : exec (.updVerifyDone e) s = .next (
    if s.verdict b e == 0 then (s.verified.slotTo b .valid 0).cmdDone c 0
    else (s.verified.slotTo b .failed (s.verdict b e)).cmdDone c 0x22 (le 1 (s.verdict b e))) := by
  show execUpdVerifyDone e s = _
  unfold execUpdVerifyDone
  rw [h]
  rfl

theorem State.verified_slot (s : State) (b : Bool) : s.verified.upd.slot b = s.upd.slot b := by cases b <;> rfl

/-! ### TRIAL_CONFIRM (R600, R601) -/

/-- The slot that a confirmation replaces is VALID where it was ACTIVE; the one on trial is ACTIVE. -/
def State.trialEnded (s : State) : State :=
  let b := s.upd.booted
  (if (s.upd.slot !b).st == .active then s.slotTo (!b) .valid 0 else s).slotTo b .active 0

theorem exec_trialConfirm (hlive : s.live = true) (hrun : s.pw.mode = .run) (htrial : (s.upd.slot s.upd.booted).st = .trial)
    (hlong : 1000 ≤ s.upd.trialPeriods) : ∃ c p, exec .trialConfirm s = .next (
      (if s.pw.pfw then s.trialEnded.updUpd fun u => { u with confirmLate := true } else s.trialEnded.confirmWrites).updEvent c p) := by
  refine ⟨_, _, congrArg _ (if_pos ?_)⟩
  rw [hlive, State.inRun, hrun, htrial, decide_eq_true hlong]
  rfl

/-- What the end of a trial leaves as it was: the booted slot and its image, the shadow and the fuses. -/
theorem State.trialEnded_keeps (s : State) : s.trialEnded.upd.booted = s.upd.booted ∧ s.trialEnded.upd.shadow = s.upd.shadow ∧
    s.trialEnded.otp = s.otp ∧
    s.trialEnded.upd.slot s.upd.booted = { s.upd.slot s.upd.booted with st := .active, reason := 0 } := by
  unfold State.trialEnded
  extract_lets b
  rw [State.slotTo_booted, State.slotTo_shadow, State.slotTo_otp, State.slotTo_slot]
  split
  · have hslot : (s.slotTo (!b) .valid 0).upd.slot b = s.upd.slot b := by simpa using s.slotTo_other (!b) .valid 0
    rw [State.slotTo_booted, State.slotTo_shadow, State.slotTo_otp, hslot]
    exact ⟨rfl, rfl, rfl, rfl⟩
  · exact ⟨rfl, rfl, rfl, rfl⟩

theorem State.trialEnded_replaced (s : State) : (s.trialEnded.upd.slot !s.upd.booted).st =
    if (s.upd.slot !s.upd.booted).st = .active then .valid else (s.upd.slot !s.upd.booted).st := by
  unfold State.trialEnded
  extract_lets b
  rw [State.slotTo_other]
  by_cases h : (s.upd.slot !b).st = .active
  · rw [if_pos (beq_iff_eq.mpr h), if_pos h, State.slotTo_st]
  · rw [if_neg (fun e => h (beq_iff_eq.mp e)), if_neg h]

/-- The settings copies once a trial is confirmed (R607). -/
def Upd.trialCopy (u : Upd) : Upd := if u.kept then { u.putCopy (!u.newest1) u.newest with kept := false } else u

/-- A settings copy written is no change of a slot. -/
theorem Upd.trialCopy_slot (u : Upd) (b : Bool) : u.trialCopy.slot b = u.slot b := by
  unfold Upd.trialCopy Upd.putCopy
  split
  · split
    · cases b <;> rfl
    · cases b <;> rfl
  · rfl

/-- What a confirmation writes: the shadow and SVNC reach the image's SVN, and no slot changes. -/
theorem State.confirmWrites_writes (s : State) : (∀ b, s.confirmWrites.upd.slot b = s.upd.slot b) ∧
    s.confirmWrites.upd.shadow = max s.upd.shadow (imgSvn (s.upd.slot s.upd.booted).image) ∧
    s.confirmWrites.otp.svnc = max s.otp.svnc (imgSvn (s.upd.slot s.upd.booted).image) := by
  refine ⟨fun b => ?_, rfl, rfl⟩
  rw [← s.upd.trialCopy_slot b]
  cases b <;> rfl

end

end Sys2Proof.Machine

namespace Sys2Proof.Stated

open Sys2Proof Sys2Proof.Machine

/-! ### The commands (R433) -/

section
variable {s : State} {q : Fin 32} {d : CmdArgs}

@[simp] theorem entered_upd (s : State) (q : Fin 32) (op : Nat) (d : CmdArgs) : (entered s q op d).upd = s.upd := by
  obtain ⟨qs, n, h⟩ := entered_ex s q op d
  rw [h]

@[simp] theorem entered_pw (s : State) (q : Fin 32) (op : Nat) (d : CmdArgs) : (entered s q op d).pw = s.pw := by
  obtain ⟨qs, n, h⟩ := entered_ex s q op d
  rw [h]

theorem exec_updBegin_accepted (haccepted : Accepted (.updBegin q d) s q 0x0A01 d) :
    let t := taken s q 0x0A01 d
    exec (.updBegin q d) s = .next (((entered s q 0x0A01 d).updBegun (t.p 16 1 == 1) (t.p 20 4)).updDone t) :=
  exec_accepted (f := cmdUpdBegin) (eff := fun e => (e.updBegun _ _).updDone _) haccepted rfl rfl

theorem exec_updData_accepted (haccepted : Accepted (.updData q d) s q 0x0A02 d) :
    let t := taken s q 0x0A02 d
    let e := entered s q 0x0A02 d
    exec (.updData q d) s = .next (e.updReceived t e.updGot) :=
  exec_accepted (f := cmdUpdData) (eff := fun e => e.updReceived _ (entered s q 0x0A02 d).updGot) haccepted rfl rfl

theorem exec_updEnd_accepted (haccepted : Accepted (.updEnd q d) s q 0x0A03 d) :
    let t := taken s q 0x0A03 d
    let e := entered s q 0x0A03 d
    exec (.updEnd q d) s = .next ((e.complete t 1 none (evt := true)).updUpd fun u =>
      { u with verifying := some (e.receiver.getD false, t) }) :=
  exec_accepted (f := cmdUpdEnd) (eff := fun e => (e.complete _ 1 none (evt := true)).updUpd fun u =>
    { u with verifying := some (e.receiver.getD false, _) }) haccepted rfl rfl

theorem exec_updActivate_accepted (haccepted : Accepted (.updActivate q d) s q 0x0A04 d) :
    let t := taken s q 0x0A04 d
    exec (.updActivate q d) s =
      .next ((entered s q 0x0A04 d).updActivated t (t.p 16 1 == 1) (t.p 17 1 == 1)) := by
  intro t
  refine exec_accepted (f := cmdUpdActivate) (eff := fun e => if (entered s q 0x0A04 d).isBooted (t.p 16 1 == 1) then e.complete t 0 none
    else if t.p 17 1 == 1 then ((e.slotTo (t.p 16 1 == 1) .pending 0).updDone t).updPw fun p =>
      { p with resetDue := some (e.fr.count + 251) } else (e.slotTo (t.p 16 1 == 1) .pending 0).updDone t) haccepted rfl rfl

end

theorem updBegin_receives (q : Fin 32) (d : CmdArgs) (s : State) (haccepted : Accepted (.updBegin q d) s q 0x0A01 d) :
    let t := taken s q 0x0A01 d
    let b := t.p 16 1 == 1
    ∃ u, exec (.updBegin q d) s = .next u ∧ (u.upd.slot b).st = .receiving ∧ (u.upd.slot b).image = [] ∧
      u.upd.size = t.p 20 4 ∧ u.upd.slot (!b) = s.upd.slot (!b) ∧
      (s.upd.recovery = false → ∃ o ∈ u.outs, o.cmd = t ∧ o.wait = .tick 0 []) := by
  intro t b
  refine ⟨_, exec_updBegin_accepted haccepted, ?_⟩
  rw [State.updDone_upd, State.updBegun_slot, State.updBegun_size, State.updBegun_other, entered_upd]
  refine ⟨rfl, rfl, rfl, rfl, fun hrec => State.updDone_waits t ?_⟩
  rw [State.updBegun_recovery, entered_upd]
  exact hrec

/-- The reason of a header that has come in (R603, log 77). -/
theorem dataReason_entered (s : State) (q : Fin 32) (op : Nat) (d : CmdArgs) (img : List Byte) :
    (entered s q op d).dataReason img = if imgTotal img = s.upd.size then s.hdrReason img else 1 := by
  rw [State.dataReason_congr (entered_upd ..) (entered_otp ..), State.dataReason]
  simp only [bne_iff_ne, ne_eq, ite_not]

section
variable {s : State} {q : Fin 32} {d : CmdArgs} {b : Bool}

theorem updData_takes (haccepted : Accepted (.updData q d) s q 0x0A02 d) (hb : s.receiver = some b)
    (hok : 1024 ≤ (s.upd.slot b).image.length ∨ ((s.upd.slot b).image ++ (taken s q 0x0A02 d).body).length < 1024 ∨
      (entered s q 0x0A02 d).dataReason ((s.upd.slot b).image ++ (taken s q 0x0A02 d).body) = 0) :
    ∃ u, exec (.updData q d) s = .next u ∧ (u.upd.slot b).image = (s.upd.slot b).image ++ (taken s q 0x0A02 d).body ∧
      (u.upd.slot b).st = (s.upd.slot b).st ∧ u.upd.flashBusy = true ∧
      (s.upd.recovery = false → ∃ o ∈ u.outs, o.cmd = taken s q 0x0A02 d ∧ o.wait = .tick 0 []) := by
  have hb' : (entered s q 0x0A02 d).receiver = some b := (State.receiver_congr (entered_upd ..)).trans hb
  refine ⟨_, exec_updData_accepted haccepted, ?_⟩
  rw [State.updReceived_takes _ hb' (by rw [State.updGot_of_receiver hb', entered_upd]; exact hok), State.updDone_upd]
  have hslot : ((((entered s q 0x0A02 d).updAdded b (taken s q 0x0A02 d).body).updUpd fun u =>
      { u with flashBusy := true }).upd.slot b) =
      { s.upd.slot b with image := (s.upd.slot b).image ++ (taken s q 0x0A02 d).body } := by
    rw [← entered_upd s q 0x0A02 d, ← State.updAdded_slot]
    cases b <;> rfl
  rw [hslot]
  refine ⟨rfl, rfl, rfl, fun hrec => State.updDone_waits _ ?_⟩
  obtain ⟨y, z, hset⟩ := (entered s q 0x0A02 d).upd.setSlot_ex b
    { (entered s q 0x0A02 d).upd.slot b with
      image := ((entered s q 0x0A02 d).upd.slot b).image ++ (taken s q 0x0A02 d).body }
  rw [State.updUpd_upd, State.updAdded, State.updUpd_upd, hset, entered_upd]
  exact hrec

theorem updData_fails (haccepted : Accepted (.updData q d) s q 0x0A02 d) (hb : s.receiver = some b)
    (hgot : (s.upd.slot b).image.length < 1024) (himg : 1024 ≤ ((s.upd.slot b).image ++ (taken s q 0x0A02 d).body).length)
    (hbad : (entered s q 0x0A02 d).dataReason ((s.upd.slot b).image ++ (taken s q 0x0A02 d).body) ≠ 0) :
    ∃ u, exec (.updData q d) s = .next u ∧ (u.upd.slot b).st = .failed ∧
      (u.upd.slot b).reason = (entered s q 0x0A02 d).dataReason ((s.upd.slot b).image ++ (taken s q 0x0A02 d).body) := by
  have hb' : (entered s q 0x0A02 d).receiver = some b := (State.receiver_congr (entered_upd ..)).trans hb
  refine ⟨_, exec_updData_accepted haccepted, ?_⟩
  rw [State.updReceived_fails _ hb' (by rw [State.updGot_of_receiver hb', entered_upd]; exact hgot)
    (by rw [entered_upd]; exact himg) (by rw [entered_upd]; exact hbad), State.refuse_upd, State.slotTo_slot, entered_upd]
  exact ⟨rfl, rfl⟩

theorem updEnd_verifies (haccepted : Accepted (.updEnd q d) s q 0x0A03 d) (hb : s.receiver = some b) :
    ∃ u, exec (.updEnd q d) s = .next u ∧ u.upd.verifying = some (b, taken s q 0x0A03 d) ∧
      u.qs = ((entered s q 0x0A03 d).complete (taken s q 0x0A03 d) 1 none (evt := true)).qs ∧
      u.upd.slot b = s.upd.slot b := by
  have hb' : (entered s q 0x0A03 d).receiver = some b := (State.receiver_congr (entered_upd ..)).trans hb
  refine ⟨_, exec_updEnd_accepted haccepted, ?_⟩
  rw [hb', Option.getD_some, State.updUpd_upd, State.complete_upd, entered_upd]
  refine ⟨rfl, rfl, ?_⟩
  cases b <;> rfl

end

theorem updActivate_acts (q : Fin 32) (d : CmdArgs) (s : State) (haccepted : Accepted (.updActivate q d) s q 0x0A04 d) :
    let t := taken s q 0x0A04 d
    let b := t.p 16 1 == 1
    (s.upd.recovery = false → b = s.upd.booted → exec (.updActivate q d) s = .next ((entered s q 0x0A04 d).complete t 0 none)) ∧
    (s.upd.recovery = true ∨ b ≠ s.upd.booted → ∃ u, exec (.updActivate q d) s = .next u ∧ (u.upd.slot b).st = .pending ∧
      u.upd.slot (!b) = s.upd.slot (!b) ∧ u.pw.resetDue = (if t.p 17 1 = 1 then some (s.fr.count + 251) else s.pw.resetDue)) := by
  intro t b
  refine ⟨fun hrec hbooted => ?_, fun hother => ⟨_, exec_updActivate_accepted haccepted, ?_⟩⟩
  · have hruns : (entered s q 0x0A04 d).isBooted b = true := by
      rw [State.isBooted, entered_upd, hrec, hbooted]
      simp
    rw [exec_updActivate_accepted haccepted]
    exact congrArg _ (if_pos hruns)
  · have hfree : (entered s q 0x0A04 d).isBooted b = false := State.isBooted_eq_false (by rw [entered_upd]; exact hother)
    obtain ⟨hupd, hdue⟩ := State.updActivated_pending t (t.p 17 1 == 1) hfree
    rw [hupd, hdue, State.slotTo_st, State.slotTo_other, entered_upd, entered_fr, entered_pw]
    exact ⟨rfl, rfl, by simp only [beq_iff_eq]⟩

/-- The end of a verification, by its verdict (R604). -/
theorem updVerifyDone_ends (s : State) (b : Bool) (t : Taken) (e : Bool) (hver : s.upd.verifying = some (b, t)) :
    ∃ u, exec (.updVerifyDone e) s = .next u ∧ u.upd.verifying = none ∧ u.upd.slot (!b) = s.upd.slot (!b) ∧
      u.upd.slot b = { s.upd.slot b with
        st := if s.verdict b e = 0 then .valid else .failed, reason := s.verdict b e } ∧
      ∃ v : State, u = v.cmdDone t (if (u.upd.slot b).st = .valid then 0 else 0x22)
        (if (u.upd.slot b).st = .valid then [] else le 1 (u.upd.slot b).reason) := by
  have hslot (st : SlotState) (r : Nat) : (s.verified.slotTo b st r).upd.slot b = { s.upd.slot b with st := st, reason := r } := by
    rw [State.slotTo_slot, State.verified_slot]
  have hother (st : SlotState) (r : Nat) : (s.verified.slotTo b st r).upd.slot (!b) = s.upd.slot (!b) := by
    rw [State.slotTo_other, State.verified_slot]
  by_cases h : s.verdict b e = 0
  · refine ⟨_, (exec_updVerifyDone hver).trans (congrArg _ (if_pos (beq_iff_eq.mpr h))), ?_⟩
    rw [State.cmdDone_upd, State.slotTo_verifying, hslot, hother, h, if_pos rfl]
    exact ⟨rfl, rfl, rfl, _, rfl⟩
  · refine ⟨_, (exec_updVerifyDone hver).trans (congrArg _ (if_neg fun x => h (beq_iff_eq.mp x))), ?_⟩
    rw [State.cmdDone_upd, State.slotTo_verifying, hslot, hother, if_neg h]
    exact ⟨rfl, rfl, rfl, _, rfl⟩

theorem trialConfirm_confirms (s : State) (hlive : s.live = true) (hrun : s.pw.mode = .run)
    (htrial : (s.upd.slot s.upd.booted).st = .trial) (hlong : 1000 ≤ s.upd.trialPeriods) :
    ∃ u, exec .trialConfirm s = .next u ∧ (u.upd.slot s.upd.booted).st = .active ∧
      ((s.upd.slot !s.upd.booted).st = .active → (u.upd.slot !s.upd.booted).st = .valid) ∧
      ((s.upd.slot !s.upd.booted).st ≠ .active → (u.upd.slot !s.upd.booted).st = (s.upd.slot !s.upd.booted).st) ∧
      (s.pw.pfw = false → imgSvn (s.upd.slot s.upd.booted).image ≤ u.otp.svnc ∧ s.otp.svnc ≤ u.otp.svnc ∧
        imgSvn (s.upd.slot s.upd.booted).image ≤ u.upd.shadow) ∧
      (s.pw.pfw = true → u.otp = s.otp ∧ u.upd.shadow = s.upd.shadow ∧ u.upd.confirmLate = true) := by
  obtain ⟨c, p, hexec⟩ := exec_trialConfirm hlive hrun htrial hlong
  obtain ⟨hbooted, hshadow, hotp, hslot⟩ := s.trialEnded_keeps
  have hreplaced := s.trialEnded_replaced
  refine ⟨_, hexec, ?_⟩
  have hfiled := State.updEvent_filed (if s.pw.pfw then s.trialEnded.updUpd fun u => { u with confirmLate := true }
    else s.trialEnded.confirmWrites) c p
  rw [hfiled.slot, hfiled.slot, hfiled.shadow, hfiled.confirmLate, State.updEvent_otp]
  cases hpfw : s.pw.pfw with
  | true =>
    have hlate (b : Bool) : (s.trialEnded.updUpd fun u => { u with confirmLate := true }).upd.slot b =
        s.trialEnded.upd.slot b := by cases b <;> rfl
    rw [if_pos rfl, hlate, hlate, hslot, hreplaced]
    exact ⟨rfl, fun h => if_pos h, fun h => if_neg h, fun h => (nomatch h), fun _ => ⟨hotp, hshadow, rfl⟩⟩
  | false =>
    obtain ⟨hslots, hshadow', hsvnc⟩ := s.trialEnded.confirmWrites_writes
    rw [hbooted, hslot] at hshadow' hsvnc
    rw [if_neg Bool.false_ne_true, hslots, hslots, hslot, hreplaced, hshadow', hsvnc, hotp]
    exact ⟨rfl, fun h => if_pos h, fun h => if_neg h,
      fun _ => ⟨le_max_right _ _, le_max_left _ _, le_max_right _ _⟩, fun h => (nomatch h)⟩

/-- Settles O22: the accepted commands by their effects, and the events of the flash, the verification and the trial. -/
theorem updateCommandsAndEventsAct : Obligations.UpdateCommandsAndEventsAct := by
  refine ⟨⟨updBegin_receives, fun q d s haccepted => ?_, fun q d s haccepted => fun b hb => updEnd_verifies haccepted hb,
    updActivate_acts⟩, fun s => rfl, fun s b t e hver => ?_, fun s e hnone => ?_, trialConfirm_confirms⟩
  · intro t b hb img reason
    have hreason : (entered s q 0x0A02 d).dataReason img = reason := dataReason_entered ..
    refine ⟨fun hok => updData_takes haccepted hb ?_, fun hgot himg hbad => ?_⟩
    · rw [hreason]
      exact hok
    · obtain ⟨u, hexec, hst, hr⟩ := updData_fails haccepted hb hgot himg (by rw [hreason]; exact hbad)
      exact ⟨u, hexec, hst, hr.trans hreason⟩
  · obtain ⟨u, hexec, hidle, hother, hslot, hdone⟩ := updVerifyDone_ends s b t e hver
    refine ⟨u, hexec, hidle, hother, by rw [hslot], fun he => ?_, fun he hlen hr => ?_, fun he hlen => ?_,
      fun he hlen hr => ?_, hdone⟩
    · rw [hslot, State.verdict, he]
      exact ⟨rfl, rfl⟩
    · have hzero : s.verdict b e = 0 := by simp [State.verdict, he, hlen, hr]
      rw [hslot, hzero, if_pos rfl]
    · have hone : s.verdict b e = 1 := by simp [State.verdict, he, hlen]
      rw [hslot, hone]
      exact ⟨rfl, rfl⟩
    · have hverdict : s.verdict b e = s.imgReason (s.upd.slot b).image := by simp [State.verdict, he, hlen]
      rw [hslot, hverdict, if_neg hr]
      exact ⟨rfl, rfl⟩
  · show execUpdVerifyDone e s = _
    rw [execUpdVerifyDone, hnone]

end Sys2Proof.Stated
end
